-- ==== Sys2Proof/Word.lean ====
section
/-!
DEFINITION. Word.lean: the machine word, the byte, and the plainest arithmetic over them.

A register of the LB880 is 32 bits wide (R26); a byte of memory is 8 bits.  Values of register fields are
carried as `Nat` once they leave the register, and narrowed where they are put back.
-/

namespace Sys2Proof

/-- A 32-bit register word (R26). -/
abbrev Word := BitVec 32

/-- A byte. -/
abbrev Byte := BitVec 8

/-- A 64-bit word: a `_LO`/`_HI` pair (R29). -/
abbrev Word64 := BitVec 64

/-- The value a 32-bit counter takes after `n` more events: it saturates (R125). -/
def satAdd32 (v n : Nat) : Nat := min (v + n) 0xFFFFFFFF

/-- The value a 64-bit counter takes after `n` more events: it wraps (R125). -/
def wrapAdd64 (v n : Nat) : Nat := (v + n) % 2 ^ 64

/-- A signed reading of the low `w` bits of a number. -/
def toSigned (w n : Nat) : Int :=
  let m := n % 2 ^ w
  if m < 2 ^ (w - 1) then (m : Int) else (m : Int) - (2 ^ w : Nat)

/-- The `w`-bit two's-complement pattern of an integer. -/
def ofSigned (w : Nat) (i : Int) : Nat := (i % ((2 ^ w : Nat) : Int)).toNat

/-- An integer held between two bounds. -/
def clampInt (lo hi i : Int) : Int := max lo (min hi i)

/-- Most-significant-byte-first reading of a byte list. -/
def beNat (bs : List Byte) : Nat := bs.foldl (fun a b => a * 256 + b.toNat) 0

/-- Least-significant-byte-first reading of a byte list. -/
def leNat (bs : List Byte) : Nat := bs.foldr (fun b a => a * 256 + b.toNat) 0

/-- `n` bytes of a number, least significant first. -/
def leBytes : Nat → Nat → List Byte
  | 0, _ => []
  | n + 1, v => BitVec.ofNat 8 v :: leBytes n (v / 256)

/-- `n` bytes of a number, most significant first. -/
def beBytes (n v : Nat) : List Byte := (leBytes n v).reverse

/-- The byte list cut into 32-bit words, least significant byte first; a short tail is padded with zeros. -/
def leWords : Nat → List Byte → List Word
  | 0, _ => []
  | n + 1, bs => BitVec.ofNat 32 (leNat (bs.take 4)) :: leWords n (bs.drop 4)

/-- Bits `lo` to `lo + w - 1` of a number. -/
def bitsOf (n lo w : Nat) : Nat := n / 2 ^ lo % 2 ^ w

end Sys2Proof
end

