-- ==== Sys2Proof/Syntax.lean ====
section
/-!
DEFINITION. Syntax.lean: the commands the LB880 takes, one constructor for each row of spec/opcode_table.json,
and the types of their operands.

The LB880 is modelled as a block: a command is a register access, a mailbox request, a message or a frame that
arrives, an operation of a Needle engine, or an event of a pin, a clock or a timer.  The spec gives the commands no
encoding in bits.
-/

namespace Sys2Proof

/-- A line port (R5). -/
inductive Port where
  | portA | portB
deriving DecidableEq, Repr

/-- A register access source (R31): PF0, PF1, a VF, a Hook core, JTAG or the 2-wire management slave. -/
inductive Source where
  | pf0
  | pf1
  | vf (n : Fin 252)
  | hook (n : Fin 4)
  | jtag
  | mgmt
deriving DecidableEq, Repr

/-- A function of R36: a unit that is brought into and out of service on its own. -/
inductive Fn where
  | line (p : Port)
  | ndl (n : Fin 8)
  | site (n : Fin 4)
  | ply
  | pf1
  | vf (n : Fin 252)
deriving DecidableEq, Repr

/-- A bank of the QSPI flash (R69). -/
inductive Bank where
  | bankA | bankB
deriving DecidableEq, Repr

/-- The two straps (R53), as the pins stand when they are sampled. -/
structure Straps where
  bootSrc : BitVec 2
  twinId : Bool
deriving DecidableEq, Repr

/-- What caused a device reset (R49). -/
inductive ResetCause where
  | pin | supply | software | watchdog
deriving DecidableEq, Repr

/-- A mailbox channel (R78): channel 0 is PF0's, channel 1 the 2-wire management slave's. -/
inductive Chan where
  | ch0 | ch1
deriving DecidableEq, Repr

/-- What a BANK_SELECT asks for (R79): CONFIRM, or TRIAL with TRIES. -/
inductive BankMode where
  | confirm
  | trial (tries : Fin 8)
deriving DecidableEq, Repr

/-- The set-up asked for by a PROTECT_ADVANCE (R59): the values the fields of `SEC.PROTECT` are to have. -/
structure ProtectReq where
  debug : BitVec 2
  bootSrcAllow : BitVec 4
  ownerKeysLocked : Bool
  oobFull : Bool
  userKernels : Bool
deriving DecidableEq, Repr

/-- The region of the flash that an erase or a write names (R79). -/
inductive FlashRegion where
  | bank (b : Bank)
  | config
deriving DecidableEq, Repr

/-- A request that the mailbox carries (R79).  Where a chapter gives the layout of a command's argument words,
the request holds the words as written to `MBX_REQ[1]` onwards; elsewhere it holds the arguments the chapter names. -/
inductive MbxReq where
  | unknown (code : BitVec 16)
  /-- A request whose arguments are none of its command's. -/
  | malformed
  | getInfo
  | getBootLog (dest : Nat)
  | recoveryLoad (offset : Nat) (image : List Byte)
  | flashRead (offset : Nat) (length : Nat) (dest : Nat)
  | flashErase (r : FlashRegion) (sector : Nat) (count : Nat)
  | flashWrite (r : FlashRegion) (offset : Nat) (data : List Byte)
  | imageVerify (b : Bank)
  | bankSelect (b : Bank) (m : BankMode)
  | rollbackCommit (type : Fin 4)
  | updateStart
  | updateStatus
  | updateAbort
  | certRead (dest : Nat)
  | quote (nonce : List Byte) (dest : Nat)
  | measExtend (reg : Fin 4) (input : List Byte)
  | measRead (dest : Nat)
  | fuseRead (bit : Nat) (count : Nat)
  | fuseProgram (bit : Nat) (data : List Bool) (caseTemp : Int) (readBackOk : Bool)
  | protectAdvance (req : ProtectReq)
  | debugChallenge
  | debugResponse (keySlot : Nat) (publicKey : List Byte) (signature : List Byte)
  | random (count : Nat)
  | rootkeyLoad (args : List Word)
  | lineConfig (args : List Word)
  | lineCastOn (args : List Word)
  | lineStatus (args : List Word)
  | lineMute (args : List Word)
  | dualhomeConfig (args : List Word)
  | apsCommand (args : List Word)
  | timeConfig (args : List Word)
  | timeStatus (args : List Word)
  | ndlLoad (args : List Word) (image : List Byte)
  | ndlAssign (args : List Word)
  | ndlStatus
  | plyConfig (args : List Word)
  | powerRequest (args : List Word)
deriving DecidableEq, Repr

/-- What a codeword carries (R137): the header preamble, the header body, or the payload of a profile. -/
inductive CwKind where
  | preamble | body | payload
deriving DecidableEq, Repr

/-- What the modem finds at a sync symbol (R92, R115, R126, R128, R131, R132); at a Fladon-1 port the sync word (R121). -/
structure SyncObs where
  /-- ADC sample index (Fladon-1: bit index) of the boundary found. -/
  place : Nat
  /-- ADC samples from the start of the present `ck_time` cycle to the boundary's stamp (R16). -/
  phase : Fin 192
  /-- The 64 bits received in the place of the sync word (Fladon-1). -/
  syncWord : BitVec 64
  /-- Head-end sample clock relative to nominal, in 0.01 ppm, and what is left of it after the loop's steering. -/
  freq : Int
  freqError : Int
  /-- Mean ADC power, in 0.25 dB below full scale. -/
  power : Nat
  /-- The ADC samples of the sync symbol, prefix first (Fladon-2). -/
  samples : List Int
  /-- The decoded preamble of 16 bytes, or the 256 header bytes of codeword 0 on Fladon-1; none when decoding does not
  converge. -/
  preamble : Option (List Byte)
deriving DecidableEq, Repr

/-- How a codeword comes in at the ADC: on Fladon-2 the samples of the symbols that carry it, prefixes first, and for each
of its coded bits the symbol, the subcarrier and the bit of it (R135); on Fladon-1 the samples, and how many bits (R156). -/
inductive RxWord where
  | symbols (samples : List (List Int)) (bits : List (Nat × Nat × Nat))
  | nrz (adc : List Int) (bits : Nat)
deriving DecidableEq, Repr

/-- A codeword at the receiver: whose profile it is, and how it comes in. -/
structure RxCodeword where
  profile : Fin 8
  signal : RxWord
deriving DecidableEq, Repr

/-- One chunk of an image that the host sends, and its offset in the image (R78). -/
structure ImageChunk where
  offset : Word
  bytes : List Byte
deriving DecidableEq, Repr

/-- What a request for a log carries: its TAG, and the host address or chunk offset of a log longer than 124 bytes (R78). -/
structure LogRequest where
  tag : Byte
  dest : Word64
deriving DecidableEq, Repr

/-- A core register of a Needle engine, accumulators apart (R170). -/
inductive NReg where
  | d (k : Fin 16)
  | p (k : Fin 8)
  | m (k : Fin 8)
  | b (k : Fin 8)
  | l (k : Fin 8)
  | bind
  | ix
  | lc (k : Fin 2)
  | st
deriving DecidableEq, Repr

/-- The address forms *Pn, *Pn++, *Pn--, *Pn+Mk and *(Pn+#off) (R181). -/
inductive NForm where
  | plain | inc | dec
  | addM (k : Fin 8)
  | off (o : BitVec 8)
deriving DecidableEq, Repr

/-- An address form through a pointer. -/
structure NEa where
  p : Fin 8
  form : NForm
deriving DecidableEq, Repr

/-- An operand x (R181): a D register, or a memory word through an address form; as xp or yp, the pair of an even D
register, or a memory pair. -/
inductive NX where
  | reg (d : Fin 16)
  | mem (e : NEa)
deriving DecidableEq, Repr

/-- The amount of a 16-bit shift: #k or Dt. -/
inductive NShift where
  | imm (k : Fin 16)
  | reg (t : Fin 16)
deriving DecidableEq, Repr

/-- The count of LOOP and REP: #count or Dd. -/
inductive NCount where
  | imm (c : BitVec 16)
  | reg (d : Fin 16)
deriving DecidableEq, Repr

/-- The conditions of BR. -/
inductive NCond where
  | al | z | nz | n | nn | c | nc
deriving DecidableEq, Repr

/-- What a read finds in a word (R396). -/
inductive WordFound where
  | one | two | three | poisonBit
deriving DecidableEq, Repr

/-- The on-chip arrays of R401, with the entry the word belongs to. -/
inductive SramArray where
  | flowCache (loc : Nat)
  | endpointCache
  | eqContext (queue : Fin 4096)
  | rule (n : Fin 8192)
  | node (level : Fin 5) (n : Fin 131072)
  | policer (n : Fin 65536)
  | rss (func : Fin 254) (n : Fin 512)
  | pattern (egress : Fin 134) (standby : Bool) (n : Fin 1024)
  | skeinBitmap (word : Fin 524288)
  | function (f : Fn)
  | packetSram
deriving DecidableEq, Repr

/-- How a read that the device issued for an endpoint ends (R421, R423, R429). -/
inductive FetchEnd where
  /-- The data of the oldest frame being fetched: the bytes of the descriptors that name host addresses, in order. -/
  | data (bytes : List Byte)
  /-- That data read completed with UR, CA, a timeout or poison. -/
  | dataError
  /-- Receive descriptors from RQ_HEAD on: their bytes. -/
  | receive (descs : List (List Byte))
  /-- A descriptor fetch of the send ring, or of the receive ring, completed with UR, CA, a timeout or poison. -/
  | sendError
  | receiveError
deriving DecidableEq, Repr


/-- The commands, one constructor per row of the table, in the table's order. -/
inductive Instr where
  /-- REGISTER_WRITE: R28, R34, R40: an aligned 32-bit write of `val` by `src` at BAR0 offset `addr`. -/
  | registerWrite (src : Source) (addr : BitVec 24) (val : Word)
  /-- UNMAPPED_ACCESS: R25: an access at a BAR0 offset that no page holds. -/
  | unmappedAccess (src : Source) (addr : BitVec 24) (write : Bool)
  /-- SIZE_VIOLATION_ACCESS: R26: an access of `bytes` bytes at `addr` that is not 32-bit and naturally aligned. -/
  | sizeViolationAccess (src : Source) (addr : BitVec 24) (bytes : Nat) (write : Bool)
  /-- POWERED_OFF_ACCESS: R35: an access to a page whose domain is powered off. -/
  | poweredOffAccess (src : Source) (addr : BitVec 24) (write : Bool)
  /-- READ_LO: R29: a read of the `_LO` register at `addr`. -/
  | readLo (src : Source) (addr : BitVec 24)
  /-- READ_HI: R29: a read of the `_HI` register at `addr`. -/
  | readHi (src : Source) (addr : BitVec 24)
  /-- WRITE_LO: R30: a write to the `_LO` register at `addr`. -/
  | writeLo (src : Source) (addr : BitVec 24) (val : Word)
  /-- WRITE_HI: R30: a write to the `_HI` register at `addr`. -/
  | writeHi (src : Source) (addr : BitVec 24) (val : Word)
  /-- RC_COUNTER_READ: R44: a read of the 32-bit RC register at `addr`. -/
  | rcCounterRead (src : Source) (addr : BitVec 24)
  /-- RUN: R38: RUN written to the control register of a function. -/
  | run (src : Source) (f : Fn)
  /-- STOP_REQ: R38: STOP_REQ written to the control register of a function. -/
  | stopReq (src : Source) (f : Fn)
  /-- BLOCK_RESET: R549: BLOCK_RESET written to the control register of a function. -/
  | blockReset (src : Source) (f : Fn)
  /-- FORCE_STOP: R38: FORCE_STOP written to the control register of a function. -/
  | forceStop (src : Source) (f : Fn)
  /-- CAST_ON_COMPLETE: R38: the function's cast-on sequence completes. -/
  | castOnComplete (f : Fn)
  /-- CAST_ON_FAIL: R38: the function's cast-on fails or times out, with its FAULT_CODE. -/
  | castOnFail (f : Fn) (code : Byte)
  /-- INTERNAL_FAULT: R38: an internal fault of the function, with its FAULT_CODE. -/
  | internalFault (f : Fn) (code : Byte)
  /-- BIND_OFF_COMPLETE: R38: drain, buffer release and DMA fence of the function complete. -/
  | bindOffComplete (f : Fn)
  /-- SNAP_ARM: R45, R47: ARM written to `SNAP.CTRL`, with MODE and CANCEL as in the same write. -/
  | snapArm (src : Source) (mode : Bool) (cancel : Bool)
  /-- SNAP_NOW: R47: NOW written to `SNAP.CTRL`, with MODE and CANCEL as in the same write. -/
  | snapNow (src : Source) (mode : Bool) (cancel : Bool)
  /-- SNAP_CANCEL: R47: CANCEL written to `SNAP.CTRL`. -/
  | snapCancel (src : Source)
  /-- SNAP_AT_COMMIT: R551: a write of `SNAP.AT_SEC_HI`. -/
  | snapAtCommit (src : Source) (hi : Word)
  /-- SNAP_CAPTURE: R41: the counter unit of the page at a page slot finds its time shadow at or past the snapshot instant. -/
  | snapCapture (slot : BitVec 12)
  /-- SNAP_COMPLETE: R42: every participating page has captured. -/
  | snapComplete
  /-- COLD_RESET: R49: both holder supplies were absent and then at least one is present. -/
  | coldReset (straps : Straps) (supplyA : Bool) (supplyB : Bool)
  /-- DEVICE_RESET: R49: a device reset by its trigger, the straps sampled at its end. -/
  | deviceReset (cause : ResetCause) (straps : Straps)
  /-- RESET_CTRL_DEVICE: R49: a write of `DEV.RESET_CTRL` with DEVICE 1 and a KEY. -/
  | resetCtrlDevice (src : Source) (key : BitVec 16) (straps : Straps)
  /-- PCIE_RESET: R50: PERST_N low, a hot reset or link down. -/
  | pcieReset
  /-- HOOK_WATCHDOG_EXPIRY: R52: the watchdog of a Hook core is not served for 100 ms. -/
  | hookWatchdogExpiry (core : Fin 4) (straps : Straps)
  /-- BOOT_START: R54: RESET_N rises with every supply valid and the ROM starts. -/
  | bootStart
  /-- MEMORY_TRAINING_COMPLETE: R66: LPDDR5X training ends. -/
  | memoryTrainingComplete (ok : Bool)
  /-- IMAGE_LOAD_COMPLETE: R68: the body of the bank being loaded has been read, or could not be read. -/
  | imageLoadComplete (readOk : Bool)
  /-- FW_READY: R63: firmware completes start-up. -/
  | fwReady
  /-- MBX_OVERRUN: R78: GO is written while the channel is BUSY. -/
  | mbxOverrun (ch : Chan)
  /-- UNKNOWN_CMD: R81: a mailbox request with an undefined command code. -/
  | unknownCmd (ch : Chan) (tag : Byte) (code : BitVec 16)
  /-- GET_INFO: R79: mailbox command 0x0001. -/
  | getInfo (ch : Chan) (tag : Byte)
  /-- GET_BOOT_LOG: R78, R79: mailbox command 0x0002, with the host address or chunk offset of a log longer than 124 bytes. -/
  | getBootLog (ch : Chan) (req : LogRequest)
  /-- RECOVERY_LOAD: R66, R78: mailbox command 0x0003, with the image the host sends; on channel 1 with one chunk of it and
  the chunk's offset. -/
  | recoveryLoad (ch : Chan) (tag : Byte) (image : ImageChunk)
  /-- FLASH_READ: R78, R79: mailbox command 0x0010; data longer than 124 bytes goes to host address `dest` on channel 0 and is read from chunk offset `dest` on channel 1. -/
  | flashRead (ch : Chan) (tag : Byte) (offset : BitVec 25) (length : BitVec 26) (dest : Word64)
  /-- FLASH_ERASE: R79: mailbox command 0x0011, in 64 KiB sectors of the region. -/
  | flashErase (ch : Chan) (tag : Byte) (r : FlashRegion) (sector : Fin 240) (count : Fin 241)
  /-- FLASH_WRITE: R79: mailbox command 0x0012. -/
  | flashWrite (ch : Chan) (tag : Byte) (r : FlashRegion) (offset : BitVec 24) (data : List Byte)
  /-- IMAGE_VERIFY: R79: mailbox command 0x0013. -/
  | imageVerify (ch : Chan) (tag : Byte) (b : Bank)
  /-- BANK_SELECT: R72: mailbox command 0x0014. -/
  | bankSelect (ch : Chan) (tag : Byte) (b : Bank) (m : BankMode)
  /-- ROLLBACK_COMMIT: R73: mailbox command 0x0015 for image type `type + 1`. -/
  | rollbackCommit (ch : Chan) (tag : Byte) (type : Fin 4)
  /-- UPDATE_START: R82: mailbox command 0x0020. -/
  | updateStart (ch : Chan) (tag : Byte)
  /-- UPDATE_STATUS: R79: mailbox command 0x0021. -/
  | updateStatus (ch : Chan) (tag : Byte)
  /-- UPDATE_ABORT: R79: mailbox command 0x0022. -/
  | updateAbort (ch : Chan) (tag : Byte)
  /-- CORE_MOVE_START: R84: firmware starts moving a Hook core. -/
  | coreMoveStart (core : Fin 4)
  /-- CORE_MOVE_COMPLETE: R85: a moved core passes or fails its start-up check. -/
  | coreMoveComplete (core : Fin 4) (passed : Bool)
  /-- CERT_READ: R75: mailbox command 0x0030, with `dest` as for FLASH_READ. -/
  | certRead (ch : Chan) (tag : Byte) (dest : Word64)
  /-- QUOTE: R77: mailbox command 0x0031, with `dest` as for FLASH_READ. -/
  | quote (ch : Chan) (tag : Byte) (nonce : BitVec 256) (dest : Word64)
  /-- MEAS_EXTEND: R76: mailbox command 0x0032 for MEAS4 + `reg`. -/
  | measExtend (ch : Chan) (tag : Byte) (reg : Fin 4) (input : BitVec 512)
  /-- MEAS_READ: R79: mailbox command 0x0033, with `dest` as for FLASH_READ. -/
  | measRead (ch : Chan) (tag : Byte) (dest : Word64)
  /-- FUSE_READ: R55: mailbox command 0x0038, of `count` fuse bits from `bit`. -/
  | fuseRead (ch : Chan) (tag : Byte) (bit : BitVec 14) (count : BitVec 10)
  /-- FUSE_PROGRAM: R57: mailbox command 0x0039, at a case temperature in degrees C, with the result of the read-back. -/
  | fuseProgram (ch : Chan) (tag : Byte) (bit : BitVec 14) (data : List Bool) (caseTemp : Int) (readBackOk : Bool)
  /-- PROTECT_ADVANCE: R59: mailbox command 0x003A. -/
  | protectAdvance (ch : Chan) (tag : Byte) (req : ProtectReq)
  /-- DEBUG_CHALLENGE: R60: mailbox command 0x003B. -/
  | debugChallenge (ch : Chan) (tag : Byte)
  /-- DEBUG_RESPONSE: R60: mailbox command 0x003C. -/
  | debugResponse (ch : Chan) (tag : Byte) (keySlot : Byte) (publicKey : BitVec 456) (signature : BitVec 912)
  /-- RANDOM: R87: mailbox command 0x0040. -/
  | random (ch : Chan) (tag : Byte) (count : Fin 65)
  /-- ROOTKEY_LOAD: R463: mailbox command 0x0041, with its argument words. -/
  | rootkeyLoad (ch : Chan) (tag : Byte) (args : List Word)
  /-- ENTROPY_HEALTH_FAIL: R87, R88: a block of samples of the noise source meets the health tests. -/
  | entropyHealthFail
  /-- DRBG_RESEED: R87: the 1 s reseed instant of the DRBG, which takes a block of samples of the noise source. -/
  | drbgReseed
  /-- ENTROPY_STARTUP_RETEST: R88: a failed source re-runs its start-up test over these samples. -/
  | entropyStartupRetest (samples : List Bool)
  /-- SYNC_SYMBOL_FOUND: R115, R121, R126, R128, R131, R132: clock recovery places a sync symbol; alignment, gain, equaliser and clock recovery advance. -/
  | syncSymbolFound (p : Port) (obs : SyncObs)
  /-- SYNC_SYMBOL_MISS: R115, R116, R128, R133: at a predicted boundary no sync symbol is found. -/
  | syncSymbolMiss (p : Port)
  /-- HEADER_BODY: R95 to R103, R116, R122, R254: the header body of the line frame, none when a codeword of it is not decoded; on Fladon-1 the header. -/
  | headerBody (p : Port) (body : Option (List Byte))
  /-- CODEWORD_ARRIVAL: R134, R137: a codeword is demapped and reaches the decoder queue. -/
  | codewordArrival (p : Port) (kind : CwKind) (rx : RxCodeword)
  /-- CODEWORD_DECODED: R97, R137 to R139: the codeword in decode ends with these bits, `zero` when they leave a zero syndrome;
  `at_` in ticks of 1/768 ns after the line frame boundary. -/
  | codewordDecoded (p : Port) (zero : Bool) (info : List Byte) (parity : List Bool) (iters at_ : Nat)
  /-- DELINEATOR_FEH: R105, R110 to R114: the delineator tests the eight bytes at its position. -/
  | delineatorFeh (p : Port) (profile : Fin 8)
  /-- DELINEATOR_ANCHOR: R110, R111: the first predicted position of an anchored line frame meets the anchor. -/
  | delineatorAnchor (p : Port) (profile : Fin 8)
  /-- DOWNSTREAM_FRAME: R106 to R109, R113, R114, R466: the oldest frame delineated in anchored SYNC is taken. -/
  | downstreamFrame (p : Port) (profile : Fin 8)
  /-- GRANT_MAP: R201 to R207: the grant map of the oldest line frame whose control area holds one is taken. -/
  | grantMap (p : Port)
  /-- MGMT_SECTION: R227 to R229, R232: the management section is split into short messages. -/
  | mgmtSection (p : Port)
  /-- TIME_SECTION: R275: the time section is split into time messages. -/
  | timeSection (p : Port)
  /-- LOS_WINDOW: R117, R127: a 1 us power window ends with its mean ADC power in 0.25 dB below full scale and its clipped samples. -/
  | losWindow (p : Port) (power clipped : Nat)
  /-- DEFECT_WINDOW_END: R117: a window of 64 line frames, or of 1,024, ends. -/
  | defectWindowEnd (p : Port) (long : Bool)
  /-- LOD_EVALUATION: R117: a line frame ends and the delineators are judged. -/
  | lodEvaluation (p : Port)
  /-- DS_CTRL_WRITE: R101, R124: a write of `LFR_x.DS_CTRL`. -/
  | dsCtrlWrite (src : Source) (val : Word) (p : Port)
  /-- CDR_ACQUIRE_START: R128: clock recovery leaves FREE. -/
  | cdrAcquireStart (p : Port)
  /-- CDR_ACQUIRE_TIMEOUT: R128: 20 ms in ACQUIRE without two spaced sync symbols. -/
  | cdrAcquireTimeout (p : Port)
  /-- CDR_LOSS: R128, R157: the phase error passes 32 samples, or on Fladon-1 the slicer error stays high. -/
  | cdrLoss (p : Port)
  /-- LOAD_DATA_ACCESS: R140, R141: a read or a write of `LINE_x.LOAD_DATA`. -/
  | loadDataAccess (src : Source) (p : Port) (write : Option Word)
  /-- EQ_CAPTURE_RECORD: R150, R182 to R185: a channel-estimate record falls due. -/
  | eqCaptureRecord (p : Port)
  /-- TXMON_ARM: R151: a write of `LINE_x.TXMON_CAP` with ARM. -/
  | txmonArm (src : Source) (p : Port) (val : Word)
  /-- TXMON_CANCEL: R151: a write of `LINE_x.TXMON_CAP` with CANCEL. -/
  | txmonCancel (src : Source) (p : Port) (val : Word)
  /-- TXMON_CAPTURE_DONE: R151, R182 to R185: both captures are taken; `input` is the TXMON input at the DAC samples' instants
  from the `first` on, counted from the window's first. -/
  | txmonCaptureDone (p : Port) (first : Int) (input : List Int)
  /-- BURST_START: R152, R154, R205, R211, R294: the oldest drawn burst falls due: the instant at which LA_BEN is to be asserted,
  `phase` DAC samples after the start of the present `ck_time` cycle. -/
  | burstStart (p : Port) (phase : Fin 128)
  /-- BURST_COMPLETE: R149, R152, R222, R226: the burst in progress ends; `order` names it by the place of its grant in
  the order of receipt. -/
  | burstComplete (p : Port) (order : Nat)
  /-- BEN_STUCK: R155: LA_BEN has been asserted for 140 us. -/
  | benStuck (p : Port)
  /-- LASER_EN_WRITE: R154, R155, R161: a write of `LINE_x.TX_CTRL`. -/
  | laserEnWrite (src : Source) (p : Port) (val : Word)
  /-- OPT_FAULT: R161: LA_FAULT_N goes low, or LA_PRESENT_N high. -/
  | optFault (p : Port) (faultPin : Bool)
  /-- OPT_PRESENT: R161: LA_PRESENT_N goes low, or LA_FAULT_N high again. -/
  | optPresent (p : Port) (presentPin : Bool)
  /-- BIAS_RAMP_STEP: R160: a whole microsecond. -/
  | biasRampStep (p : Port)
  /-- RSSI_SAMPLE: R162: LA_RSSI is sampled. -/
  | rssiSample (p : Port) (sample : Fin 4096)
  /-- LD: R181: engine n executes LD Dd, ea. -/
  | ndlLd (n : Fin 8) (d : Fin 16) (e : NEa)
  /-- LDP: R181: LDP Dd, ea. -/
  | ndlLdp (n : Fin 8) (d : Fin 16) (e : NEa)
  /-- ST: R181: ST ea, Ds. -/
  | ndlSt (n : Fin 8) (e : NEa) (d : Fin 16)
  /-- STP: R181: STP ea, Ds. -/
  | ndlStp (n : Fin 8) (e : NEa) (d : Fin 16)
  /-- LDI: R179, R181: LDI reg, #imm16. -/
  | ndlLdi (n : Fin 8) (r : NReg) (v : BitVec 16)
  /-- LDIL: R179, R181: LDIL reg, #imm24. -/
  | ndlLdil (n : Fin 8) (r : NReg) (v : BitVec 24)
  /-- MOV: R179, R181: MOV reg, reg. -/
  | ndlMov (n : Fin 8) (r q : NReg)
  /-- LEA: R181: LEA Pd, Ps, Mk. -/
  | ndlLea (n : Fin 8) (pd ps mk : Fin 8)
  /-- LDA: R181: LDA ACa, ea. -/
  | ndlLda (n : Fin 8) (a : Fin 4) (e : NEa)
  /-- STH: R173: STH ea, ACa. -/
  | ndlSth (n : Fin 8) (e : NEa) (a : Fin 4)
  /-- STL: R173: STL ea, ACa. -/
  | ndlStl (n : Fin 8) (e : NEa) (a : Fin 4)
  /-- STAH: R173: STAH Dd, ACa. -/
  | ndlStah (n : Fin 8) (d : Fin 16) (a : Fin 4)
  /-- ADD: R174: ADD Dd, Ds, x. -/
  | ndlAdd (n : Fin 8) (d q : Fin 16) (x : NX)
  /-- SUB: R174: SUB Dd, Ds, x. -/
  | ndlSub (n : Fin 8) (d q : Fin 16) (x : NX)
  /-- ADDS: R174: ADDS Dd, Ds, x. -/
  | ndlAdds (n : Fin 8) (d q : Fin 16) (x : NX)
  /-- SUBS: R174: SUBS Dd, Ds, x. -/
  | ndlSubs (n : Fin 8) (d q : Fin 16) (x : NX)
  /-- AND: R181: AND Dd, Ds, x. -/
  | ndlAnd (n : Fin 8) (d q : Fin 16) (x : NX)
  /-- OR: R181: OR Dd, Ds, x. -/
  | ndlOr (n : Fin 8) (d q : Fin 16) (x : NX)
  /-- XOR: R181: XOR Dd, Ds, x. -/
  | ndlXor (n : Fin 8) (d q : Fin 16) (x : NX)
  /-- SHL: R181: SHL Dd, Ds, #k or Dt. -/
  | ndlShl (n : Fin 8) (d q : Fin 16) (k : NShift)
  /-- SHR: R181: SHR Dd, Ds, #k or Dt. -/
  | ndlShr (n : Fin 8) (d q : Fin 16) (k : NShift)
  /-- SHRL: R181: SHRL Dd, Ds, #k or Dt. -/
  | ndlShrl (n : Fin 8) (d q : Fin 16) (k : NShift)
  /-- ABS: R174: ABS Dd, Ds. -/
  | ndlAbs (n : Fin 8) (d q : Fin 16)
  /-- CMP: R181: CMP Ds, x. -/
  | ndlCmp (n : Fin 8) (q : Fin 16) (x : NX)
  /-- NORM: R181: NORM Dd, ACa. -/
  | ndlNorm (n : Fin 8) (d : Fin 16) (a : Fin 4)
  /-- DIVS: R181: DIVS Dd, Ds. -/
  | ndlDivs (n : Fin 8) (d q : Fin 16)
  /-- MPY: R171: MPY ACa, x, y. -/
  | ndlMpy (n : Fin 8) (a : Fin 4) (x : NX) (y : Fin 16)
  /-- MPYI: R171: MPYI ACa, x, y. -/
  | ndlMpyi (n : Fin 8) (a : Fin 4) (x : NX) (y : Fin 16)
  /-- MAC: R172: MAC ACa, x, y. -/
  | ndlMac (n : Fin 8) (a : Fin 4) (x : NX) (y : Fin 16)
  /-- MSU: R172: MSU ACa, x, y. -/
  | ndlMsu (n : Fin 8) (a : Fin 4) (x : NX) (y : Fin 16)
  /-- MACD: R172, R181: MACD ACa, ea1, ea2. -/
  | ndlMacd (n : Fin 8) (a : Fin 4) (e f : NEa)
  /-- CMAC: R172, R181: CMAC ACa, xp, yp. -/
  | ndlCmac (n : Fin 8) (a : Fin 4) (x y : NX)
  /-- CMACJ: R172, R181: CMACJ ACa, xp, yp. -/
  | ndlCmacj (n : Fin 8) (a : Fin 4) (x y : NX)
  /-- PWR: R181: PWR ACa, xp. -/
  | ndlPwr (n : Fin 8) (a : Fin 4) (x : NX)
  /-- PWRA: R172, R181: PWRA ACa, xp. -/
  | ndlPwra (n : Fin 8) (a : Fin 4) (x : NX)
  /-- ADDA: R172: ADDA ACa, ACb. -/
  | ndlAdda (n : Fin 8) (a b : Fin 4)
  /-- SUBA: R172: SUBA ACa, ACb. -/
  | ndlSuba (n : Fin 8) (a b : Fin 4)
  /-- SHA: R172, R181: SHA ACa, #k. -/
  | ndlSha (n : Fin 8) (a : Fin 4) (k : Int)
  /-- NEGA: R172: NEGA ACa. -/
  | ndlNega (n : Fin 8) (a : Fin 4)
  /-- CLRA: R181: CLRA ACa. -/
  | ndlClra (n : Fin 8) (a : Fin 4)
  /-- SETIX: R180: SETIX #imm16. -/
  | ndlSetix (n : Fin 8) (v : BitVec 16)
  /-- IMIN: R180: IMIN Dv, Di, ea. -/
  | ndlImin (n : Fin 8) (v d : Fin 16) (e : NEa)
  /-- IMAX: R180: IMAX Dv, Di, ea. -/
  | ndlImax (n : Fin 8) (v d : Fin 16) (e : NEa)
  /-- IMIN2: R180: IMIN2 Dv, Di, ea. -/
  | ndlImin2 (n : Fin 8) (v d : Fin 16) (e : NEa)
  /-- IMAX2: R180: IMAX2 Dv, Di, ea. -/
  | ndlImax2 (n : Fin 8) (v d : Fin 16) (e : NEa)
  /-- BR: R181: BR cond, label. -/
  | ndlBr (n : Fin 8) (cond : NCond) (to_ : BitVec 14)
  /-- CALL: R181: CALL label. -/
  | ndlCall (n : Fin 8) (to_ : BitVec 14)
  /-- RET: R181: RET. -/
  | ndlRet (n : Fin 8)
  /-- LOOP: R176, R181: LOOP LCn, #count or Dd, end. -/
  | ndlLoop (n : Fin 8) (k : Fin 2) (c : NCount) (end_ : BitVec 14)
  /-- REP: R176, R181: REP #count or Dd. -/
  | ndlRep (n : Fin 8) (c : NCount)
  /-- CLRF: R181: CLRF #mask, its bits as in `NDLn.FLAGS`. -/
  | ndlClrf (n : Fin 8) (mask : BitVec 8)
  /-- CLAIM: R183: CLAIM Pn, #slot. -/
  | ndlClaim (n : Fin 8) (p : Fin 8) (slot : Fin 16)
  /-- RELEASE: R183: RELEASE #slot. -/
  | ndlRelease (n : Fin 8) (slot : Fin 16)
  /-- XFER: R186: XFER Pd, Ps, Dn. -/
  | ndlXfer (n : Fin 8) (pd ps : Fin 8) (d : Fin 16)
  /-- WAITX: R181: WAITX. -/
  | ndlWaitx (n : Fin 8)
  /-- SIGNAL: R181: SIGNAL #code8. -/
  | ndlSignal (n : Fin 8) (code : Byte)
  /-- HALT: R187: HALT. -/
  | ndlHalt (n : Fin 8)
  /-- NOP: R181: NOP. -/
  | ndlNop (n : Fin 8)
  /-- ILLEGAL_INSTRUCTION: R181: engine n meets an instruction that is not defined. -/
  | illegalInstruction (n : Fin 8)
  /-- XFER_COMPLETE: R186: the oldest block move of engine n finishes. -/
  | xferComplete (n : Fin 8)
  /-- NEEDLE_TRIGGER: R187: a trigger from a source of `NDLn.TRIG.SRC`, with the slot of a CAPTURE_DONE. -/
  | needleTrigger (n : Fin 8) (source : BitVec 3) (slot : Fin 16)
  /-- NEEDLE_PERIOD_TIMER: R187: PERIOD_US has passed. -/
  | needlePeriodTimer (n : Fin 8)
  /-- KICK: R166, R187: a write of `NDLn.KICK`. -/
  | kick (src : Source) (n : Fin 8) (val : Word)
  /-- MAX_CYCLES_EXCEEDED: R188: the run exceeds `NDLn.MAX_CYCLES`. -/
  | maxCyclesExceeded (n : Fin 8)
  /-- NDL_LOAD: R191: mailbox command NDL_LOAD, with its argument words and, on channel 0, the bytes at the host address. -/
  | ndlLoad (ch : Chan) (tag : Byte) (args : List Word) (image : List Byte)
  /-- NDL_ASSIGN: R192: mailbox command NDL_ASSIGN. -/
  | ndlAssign (ch : Chan) (tag : Byte) (args : List Word)
  /-- NDL_STATUS: R193: mailbox command NDL_STATUS. -/
  | ndlStatus (ch : Chan) (tag : Byte)
  /-- DRAW_CLOSE: R213 to R221, R468, R469: 3 us before S0 of the stored grant with the lowest S0. -/
  | drawClose (p : Port)
  /-- ALLOC_INVALIDATE: R210, R225: a write of `LFR_x.ALLOC[slot]` with VALID 0. -/
  | allocInvalidate (src : Source) (p : Port) (slot : Fin 64) (val : Word)
  /-- TREE_PARAMS: R235, R241: the short message TREE_PARAMS of 64 bytes. -/
  | treeParams (p : Port) (msg : List Byte)
  /-- ASSIGN_ADDR: R235: the short message ASSIGN_ADDR. -/
  | assignAddr (p : Port) (msg : List Byte)
  /-- RANGING_RESULT: R235, R242: the short message RANGING_RESULT. -/
  | rangingResult (p : Port) (msg : List Byte)
  /-- PROVE_CHALLENGE: R244: the short message PROVE_CHALLENGE. -/
  | proveChallenge (p : Port) (msg : List Byte)
  /-- PROVE_RESULT: R235: the short message PROVE_RESULT. -/
  | proveResult (p : Port) (msg : List Byte)
  /-- PROFILE_ASSIGN: R246: the short message PROFILE_ASSIGN. -/
  | profileAssign (p : Port) (msg : List Byte)
  /-- PROFILE_RETIRE: R246: profiles assigned before whose 64 line frames are over are disabled. -/
  | profileRetire (p : Port)
  /-- ALLOC_ASSIGN: R248: the short message ALLOC_ASSIGN. -/
  | allocAssign (p : Port) (msg : List Byte)
  /-- KEY_USE: R250: the short message KEY_USE. -/
  | keyUse (p : Port) (msg : List Byte)
  /-- MUTE: R251: the short message MUTE. -/
  | msgMute (p : Port) (msg : List Byte)
  /-- UNMUTE: R251: the short message UNMUTE. -/
  | msgUnmute (p : Port) (msg : List Byte)
  /-- DEREGISTER: R235: the short message DEREGISTER. -/
  | deregister (p : Port) (msg : List Byte)
  /-- DOZE: R260: the short message DOZE. -/
  | msgDoze (p : Port) (msg : List Byte)
  /-- ACK: R231: the downstream short message ACK. -/
  | msgAck (p : Port) (msg : List Byte)
  /-- DS_PROFILE_DESC: R245: the tunnel message DS_PROFILE_DESC, its header of 4 bytes and its body. -/
  | dsProfileDesc (p : Port) (msg : List Byte)
  /-- US_PROFILE_DESC: R247: the tunnel message US_PROFILE_DESC. -/
  | usProfileDesc (p : Port) (msg : List Byte)
  /-- US_PROFILE_APPLY: R247: an upstream descriptor whose burst profile no stored grant names is applied. -/
  | usProfileApply (p : Port)
  /-- DISTORTION_REPORT: R232: the tunnel message DISTORTION_REPORT. -/
  | distortionReport (p : Port) (msg : List Byte)
  /-- KEY_OFFER: R249: the tunnel message KEY_OFFER. -/
  | keyOffer (p : Port) (msg : List Byte)
  /-- TUNNEL_MESSAGE: R230, R232: the oldest tunnel payload handed over is parsed. -/
  | tunnelMessage (p : Port)
  /-- UNSOLICITED_RESEND: R231: the 50 ms of the messages not answered are over. -/
  | unsolicitedResend (p : Port)
  /-- T_ANNOUNCE: R235, R237: T_ANNOUNCE expires. -/
  | tAnnounce (p : Port)
  /-- T_RANGE: R235, R237: T_RANGE expires. -/
  | tRange (p : Port)
  /-- T_PROVE: R235, R237: T_PROVE expires. -/
  | tProve (p : Port)
  /-- T_HOLD: R235, R237: T_HOLD expires. -/
  | tHold (p : Port)
  /-- REG_DEFECT_CLEAR: R235: LOS, LSS and LOF are all clear. -/
  | regDefectClear (p : Port)
  /-- LEAVE_SLOT_TIMEOUT: R239: 10 ms without a management slot for LEAVE. -/
  | leaveSlotTimeout (p : Port)
  /-- LINE_CONFIG: R261: mailbox command LINE_CONFIG, with its argument words. -/
  | lineConfig (ch : Chan) (tag : Byte) (args : List Word)
  /-- LINE_CAST_ON: R261: mailbox command LINE_CAST_ON. -/
  | lineCastOn (ch : Chan) (tag : Byte) (args : List Word)
  /-- LINE_STATUS: R262: mailbox command LINE_STATUS. -/
  | lineStatus (ch : Chan) (tag : Byte) (args : List Word)
  /-- LINE_MUTE: R251, R261: mailbox command LINE_MUTE. -/
  | lineMute (ch : Chan) (tag : Byte) (args : List Word)
  /-- DUALHOME_CONFIG: R252, R261: mailbox command DUALHOME_CONFIG. -/
  | dualhomeConfig (ch : Chan) (tag : Byte) (args : List Word)
  /-- APS_COMMAND: R255, R261: mailbox command APS_COMMAND. -/
  | apsCommand (ch : Chan) (tag : Byte) (args : List Word)
  /-- APS_EVALUATION: R255, R256, R259: the switching requests are ranked. -/
  | apsEvaluation
  /-- WTR_EXPIRY: R256: the WTR timer expires. -/
  | wtrExpiry
  /-- HOLDOFF_EXPIRY: R256: HOLDOFF ends. -/
  | holdoffExpiry
  /-- APS_SWITCH: R257, R259: the switch decided is carried out. -/
  | apsSwitch
  /-- LINE_DOZE_BACKLOG: R260: an allocation of a dozing port has a backlog. -/
  | lineDozeBacklog (p : Port)
  /-- ALIGNMENT_INSTANT: R267: the next alignment instant of the time counter is reached. -/
  | alignmentInstant
  /-- INC_COMMIT: R267: a write of `TIME.INC_HI`. -/
  | incCommit (src : Source) (hi : Word)
  /-- STEP_COMMIT: R270: a write of `TIME.STEP_SEC_HI`. -/
  | stepCommit (src : Source) (hi : Word)
  /-- JUMP_ARM: R272: a write of `TIME.CTRL` with JUMP_ARM 1 and JUMP_DISARM as given. -/
  | jumpArm (src : Source) (disarm : Bool)
  /-- JUMP_DISARM: R272: a write of `TIME.CTRL` with JUMP_DISARM 1 alone. -/
  | jumpDisarm (src : Source)
  /-- JUMP_ARM_TIMEOUT: R272: 10 s have passed since JUMP_ARMED was set. -/
  | jumpArmTimeout
  /-- NOW_FRAC_READ: R269: a read of `TIME.NOW_FRAC`. -/
  | nowFracRead (src : Source)
  /-- TENSION_ERR: R274: a write of `TIME.TENSION_ERR`. -/
  | tensionErr (src : Source) (err : Word)
  /-- TIME_REF: R276: a 48-byte time message of a port reaches Hook core 3. -/
  | timeRef (p : Port) (msg : List Byte)
  /-- TIME_REF_AGE_EXPIRY: R280: a port has used no TIME_REF for 2 s. -/
  | timeRefAgeExpiry (p : Port)
  /-- PREFER_REVERT_TIMER: R282: the preferred port has been in time for 60 s. -/
  | preferRevertTimer
  /-- LOCK_QUALIFY_TIMER: R281: the filtered offset has stayed within 5 ns for 60 s. -/
  | lockQualifyTimer
  /-- NO_SELECTION_TIMER: R281: no port has been selected for 2 s. -/
  | noSelectionTimer
  /-- HOLDOVER_EXPIRY: R281: HOLDOVER_S seconds have passed in HOLDOVER. -/
  | holdoverExpiry
  /-- TREF_LOST: R286: TREF stops. -/
  | trefLost
  /-- TREF_RESTORED: R286: TREF has run at the identified frequency for 1 s. -/
  | trefRestored
  /-- TIME_CONFIG: R300: mailbox command 0x0060, with its argument words. -/
  | timeConfig (ch : Chan) (tag : Byte) (args : List Word)
  /-- TIME_STATUS: R301: mailbox command 0x0061. -/
  | timeStatus (ch : Chan) (tag : Byte) (args : List Word)
  /-- PPS_OUT_ASSERT: R287: the counter passes a whole second plus `PPS_OUT[n].OFFSET`. -/
  | ppsOutAssert (n : Fin 2)
  /-- PPS_OUT_DEASSERT: R287: WIDTH_NS after the assertion of a PPS output. -/
  | ppsOutDeassert (n : Fin 2)
  /-- TOD_SENTENCE: R289: 10 ms after a PPS_OUT0 pulse. -/
  | todSentence
  /-- PPS_IN_EDGE: R290: an edge at a PPS input, `phase` steps of 62.5 ps into the `ck_time` cycle. -/
  | ppsInEdge (n : Fin 2) (rising : Bool) (phase : Fin 32)
  /-- TOD_RX_SENTENCE: R290: a sentence is received on TOD_RX. -/
  | todRxSentence (chars : List Byte)
  /-- EVT_CAPTURE: R291: an edge at an event pin, `phase` steps of 62.5 ps into the `ck_time` cycle. -/
  | evtCapture (pin : Fin 8) (rising : Bool) (phase : Fin 32)
  /-- EVT_FRAC_READ: R291: a read of `EVT[pin].FRAC`. -/
  | evtFracRead (src : Source) (pin : Fin 8)
  /-- EVT_TRIGGER_ARM: R292: a write of `EVT[pin].SEC_HI`. -/
  | evtTriggerArm (src : Source) (pin : Fin 8) (hi : Word)
  /-- EVT_TRIGGER_FIRE: R292: the counter reaches the trigger time of a pin. -/
  | evtTriggerFire (pin : Fin 8)
  /-- EVT_TRIGGER_END: R292: WIDTH_NS after a trigger fired. -/
  | evtTriggerEnd (pin : Fin 8)
  /-- PTM_NOW: R293: a write of `PTM_CTRL.NOW`. -/
  | ptmNow (src : Source)
  /-- PTM_PERIOD_TIMER: R293: PERIOD_MS milliseconds have passed with AUTO 1. -/
  | ptmPeriodTimer
  /-- PTM_RESPONSE: R293: a PTM ResponseD with its PTM Master Time and Propagation Delay, in ns. -/
  | ptmResponse (masterNs : Word64) (propNs : Word)
  /-- PTM_TIMEOUT: R293: 10 ms without a response. -/
  | ptmTimeout
  /-- TSQ_POP: R296: a read of `TSQ.Q[q].ENTRY0`. -/
  | tsqPop (src : Source) (q : Fin 6)
  /-- LAUNCH_TIME_REACHED: R297: the counter reaches the launch time of held frames. -/
  | launchTimeReached
  /-- GAUGE_FIT_START: R304, R316: a fit of a port is due. -/
  | gaugeFitStart (p : Port)
  /-- GAUGE_FIT_DONE: R305 to R314, R316: the fit in progress ends; `optics` has the five coefficients, the constant first, of
  the polynomial that the fit put for the optics response (R312). -/
  | gaugeFitDone (p : Port) (optics : List Rat)
  /-- GAUGE_EXPIRED: R315: the estimate in use is judged for its age, its RTD and its port. -/
  | gaugeExpired (p : Port)
  /-- CLASSIFY_FRAME: R319 to R328, R333 to R339: the oldest frame waiting at an ingress is classified. -/
  | classifyFrame (ing : Fin 8)
  /-- FT_INSERT: R329, R331, R332: a write of `CLS.FT_CMD` with OP INSERT. -/
  | ftInsert (src : Source) (val : Word)
  /-- FT_DELETE: R331: OP DELETE. -/
  | ftDelete (src : Source) (val : Word)
  /-- FT_MODIFY: R331: OP MODIFY. -/
  | ftModify (src : Source) (val : Word)
  /-- FT_QUERY: R331: OP QUERY. -/
  | ftQuery (src : Source) (val : Word)
  /-- FT_READ: R331: OP READ. -/
  | ftRead (src : Source) (val : Word)
  /-- FT_DONE: R331: the flow-table command in progress completes. -/
  | ftDone
  /-- FT_HIT_WRITEBACK: R330: a cached copy is written back. -/
  | ftHitWriteback (location : Fin 524288)
  /-- RULE_WRITE: R334: a write of `CLS.RULE_CMD` with OP WRITE. -/
  | ruleWrite (src : Source) (val : Word)
  /-- RULE_READ: R334: OP READ. -/
  | ruleRead (src : Source) (val : Word)
  /-- RULE_INVALIDATE: R334: OP INVALIDATE. -/
  | ruleInvalidate (src : Source) (val : Word)
  /-- RSS_DATA_ACCESS: R337: a read or a write of `CLS.RSS_DATA`. -/
  | rssDataAccess (src : Source) (write : Option Word)
  /-- HUSH_REQUEST: R341: a write of `CLS.HUSH` with REQ 1. -/
  | hushRequest (src : Source) (val : Word)
  /-- HUSHED: R341: no lookup is in progress any more. -/
  | hushed
  /-- HUSH_RELEASE: R341: a write of `CLS.HUSH` with REQ 0. -/
  | hushRelease (src : Source) (val : Word)
  /-- HUSH_EXPIRED: R342: the hush has lasted MAX_US. -/
  | hushExpired
  /-- ENQUEUE: R349, R357 to R363: the oldest classified frame is policed, offered to admission and enqueued or dropped. -/
  | enqueue
  /-- SCHEDULER_SELECT: R345 to R350, R355, R359, R370: an egress can take a frame; a stamp falls `sub` steps of 2^-16 ns into the `ck_time` cycle. -/
  | schedulerSelect (egress : Fin 134) (sub : Fin 131072)
  /-- STALL_DROP: R350: a frame stands at the head of a queue whose egress cannot take it. -/
  | stallDrop (queue : Fin 131072)
  /-- REFILL_TICK: R354, R356, R358, R339: every 1,024 ns. -/
  | refillTick
  /-- NODE_READ: R351, R353: a write of `SCHED.NODE_CMD` with OP READ. -/
  | nodeRead (src : Source) (val : Word)
  /-- NODE_WRITE: R353, R356: a write of `SCHED.NODE_CMD` with OP WRITE. -/
  | nodeWrite (src : Source) (val : Word)
  /-- POL_READ: R357: a write of `METER.POL_CMD` with OP READ. -/
  | polRead (src : Source) (val : Word)
  /-- POL_WRITE: R357: a write of `METER.POL_CMD` with OP WRITE. -/
  | polWrite (src : Source) (val : Word)
  /-- DEADLINE_DUE: R365: the counter reaches the due time of frames in a lane. -/
  | deadlineDue (egress : Fin 129)
  /-- PATTERN_COMMIT: R371, R372: a write of `PATTERN.CMD` with COMMIT. -/
  | patternCommit (src : Source) (val : Word)
  /-- PATTERN_ABORT: R371: a write of `PATTERN.CMD` with ABORT. -/
  | patternAbort (src : Source) (val : Word)
  /-- PATTERN_START: R371: the counter reaches the start instant of a pending pattern. -/
  | patternStart (egress : Fin 134)
  /-- PATTERN_ENTRY_ADVANCE: R369, R372: the interval of an entry, or the cycle, has elapsed. -/
  | patternEntryAdvance (egress : Fin 134)
  /-- PATTERN_ENT_DATA_WRITE: R368: a write of `PATTERN.ENT_DATA[1]`. -/
  | patternEntDataWrite (src : Source) (val : Word)
  /-- POOL_ENABLE: R376 to R378: a write of `SKEIN.POOL[p].CTRL` with EN 1. -/
  | poolEnable (src : Source) (pool : Fin 16) (val : Word)
  /-- POOL_INIT_DONE: R377: every buffer is free and every tag written. -/
  | poolInitDone (pool : Fin 16)
  /-- POOL_DISABLE: R378: a write of `SKEIN.POOL[p].CTRL` with EN 0. -/
  | poolDisable (src : Source) (pool : Fin 16) (val : Word)
  /-- POOL_DRAIN_END: R378: FREE of a draining pool equals COUNT. -/
  | poolDrainEnd (pool : Fin 16)
  /-- ALLOCATION: R383 to R386: a producer asks for one buffer for so many bytes. -/
  | allocation (producer : Fin 10) (bytes : Fin 16385)
  /-- FREE: R387 to R389: a free. -/
  | freeBuffer (caller : Fin 64) (handle : BitVec 40)
  /-- HANDOVER: R387 to R389: a handover to another owner. -/
  | handover (caller : Fin 64) (handle : BitVec 40) (to_ : Fin 64)
  /-- SPILL_TICK: R386: the spill tokens refill. -/
  | spillTick
  /-- ALLOC_LO_READ: R392, R393: a read of `SKEIN.ALLOC_LO`. -/
  | allocLoRead (src : Source)
  /-- FREE_HI_WRITE: R392, R393: a write of `SKEIN.FREE_HI`. -/
  | freeHiWrite (src : Source) (val : Word)
  /-- PATROL_SCRUB: R396, R397, R400, R404: the patrol reads the next rows; `words` are the words in error, by word offset from the row where it stands. -/
  | patrolScrub (words : List (Nat × WordFound)) (rows : Nat)
  /-- SRAM_PATROL: R395, R396, R400, R401: the on-chip patrol runs; each uncorrectable word with whether it is a SEC-DED double-bit error and its offset. -/
  | sramPatrol (corrected : Nat) (bad : List (SramArray × Bool × BitVec 24))
  /-- REMAP: R402, R403: a write of `DARN.CMD` with OP REMAP. -/
  | remap (src : Source) (val : Word)
  /-- DARN_QUERY: R402: a write of `DARN.CMD` with OP QUERY. -/
  | darnQuery (src : Source) (val : Word)
  /-- DARN_COPY_DONE: R403, R404: the last block of the copy is done. -/
  | darnCopyDone
  /-- BAR4_ACCESS: R396, R398, R399, R412: an access to a function's BAR4; a read of `bytes` bytes, or a write. -/
  | bar4Access (func : Fin 254) (offset : Nat) (bytes : Fin 65) (write : Option (List Byte))
  /-- FEAT_COMMIT: R413 to R415: a write of `DEV.FEAT_COMMIT`. -/
  | featCommit (src : Source) (val : Word)
  /-- FN_QCOUNT_WRITE: R416: a write of `HQ.FN_QCOUNT`. -/
  | fnQcountWrite (src : Source) (val : Word)
  /-- EP_READ: R417, R418: a write of `HQ.EP_CMD` with OP READ. -/
  | epRead (src : Source) (val : Word)
  /-- EP_WRITE: R417, R418, R440: a write of `HQ.EP_CMD` with OP WRITE. -/
  | epWrite (src : Source) (val : Word)
  /-- SQ_TAIL_DOORBELL: R419: a write of SQ_TAIL in the doorbell block of endpoint k of a function. -/
  | sqTailDoorbell (func : Fin 254) (k : Fin 131072) (val : Word)
  /-- RQ_TAIL_DOORBELL: R419: a write of RQ_TAIL. -/
  | rqTailDoorbell (func : Fin 254) (k : Fin 131072) (val : Word)
  /-- CQ_HEAD_DOORBELL: R419, R428, R430: a write of CQ_HEAD and ARM. -/
  | cqHeadDoorbell (func : Fin 254) (k : Fin 131072) (val : Word)
  /-- DESCRIPTOR_FETCH: R420, R421, R440: the send descriptors of the next frame, as host memory holds them. -/
  | descriptorFetch (ep : Fin 131072) (descs : List (List Byte))
  /-- FETCH_COMPLETE: R422, R429: a descriptor or data read of an endpoint completes. -/
  | fetchComplete (ep : Fin 131072) (how : FetchEnd)
  /-- MOD_TIMER_EXPIRY: R430: the moderation timer runs out. -/
  | modTimerExpiry (ep : Fin 131072)
  /-- LINK_L1_EXIT_DONE: R431: the link reaches L0. -/
  | linkL1ExitDone
  /-- D3HOT_ENTRY: R432: a function enters D3hot. -/
  | d3hotEntry (func : Fin 254)
  /-- D0_RETURN: R432: a function returns to D0. -/
  | d0Return (func : Fin 254)
  /-- BUS_MASTER_CLEAR: R434: Bus Master Enable of a function is cleared. -/
  | busMasterClear (func : Fin 254)
  /-- FLR: R438: an FLR of PF1 or a VF. -/
  | flr (func : Fin 254)
  /-- PF0_FLR: R439: an FLR of PF0. -/
  | pf0Flr
  /-- EVENT_RAISE: R442: a source with its event bit 1 and its mask bit 0 is raised. -/
  | eventRaise (slot : BitVec 12) (bit : Fin 32)
  /-- RECORD_WITHDRAW: R443: a write of `PAGE_EVENT`, or with `mask` of `PAGE_EVENT_MASK`, of a page. -/
  | recordWithdraw (src : Source) (slot : BitVec 12) (mask : Bool) (val : Word)
  /-- MARKER_SELECT: R451: the Marker selects a pending record. -/
  | markerSelect
  /-- MARKER_COMMIT: R452, R453: the oldest selected record is committed. -/
  | markerCommit
  /-- WAITING_RESELECT: R453: the oldest waiting record is selected again. -/
  | waitingReselect
  /-- EQ_DB: R447: a write of `MARK.EQ_DB`. -/
  | eqDb (src : Source) (val : Word)
  /-- EQ_PRIO: R445: a write of `MARK.EQ_PRIO`. -/
  | eqPrio (src : Source) (val : Word)
  /-- EQ_READ: R445: a write of `MARK.EQ_CMD` with OP READ. -/
  | eqRead (src : Source) (val : Word)
  /-- EQ_WRITE: R445: a write of `MARK.EQ_CMD` with OP WRITE. -/
  | eqWrite (src : Source) (val : Word)
  /-- GRP_READ: R450: a write of `MARK.GRP_CMD` with OP READ. -/
  | grpRead (src : Source) (val : Word)
  /-- GRP_WRITE: R450: a write of `MARK.GRP_CMD` with OP WRITE. -/
  | grpWrite (src : Source) (val : Word)
  /-- FN_EQCOUNT_WRITE: R446: a write of `MARK.FN_EQCOUNT`. -/
  | fnEqcountWrite (src : Source) (val : Word)
  /-- MARKER_HOLD: R455: a write of `MARK.CTRL`. -/
  | markerHold (src : Source) (val : Word)
  /-- LA_LOCK_ACQUIRE: R474: a write of `CIPH.LA_LOCK` with ACQUIRE. -/
  | laLockAcquire (src : Source) (val : Word)
  /-- LA_LOCK_RELEASE: R474: a write of `CIPH.LA_LOCK` with RELEASE and without ACQUIRE. -/
  | laLockRelease (src : Source) (val : Word)
  /-- LA_SUBMIT: R475: a write of `CIPH.LA_SUBMIT`. -/
  | laSubmit (src : Source) (val : Word)
  /-- LA_DONE: R476 to R479: the oldest job ends; `source` is what its host read returned, none when it failed. -/
  | laDone (source : Option (List Byte))
  /-- LA_PREEMPT: R478: inline work needs the core of the job in progress. -/
  | laPreempt
  /-- LA_RESULT_READ: R479: a read of `CIPH.LA_RESULT[0]`. -/
  | laResultRead (src : Source)
  /-- MASK_RESEED: R461: RESEED_US microseconds have passed. -/
  | maskReseed
  /-- MSEC_READ: R470: a write of `CIPH.MSEC_CMD` with OP READ. -/
  | msecRead (src : Source) (val : Word)
  /-- MSEC_WRITE: R473: a write of `CIPH.MSEC_CMD` with OP WRITE. -/
  | msecWrite (src : Source) (val : Word)
  /-- POWER_REQUEST: R484, R485, R486: mailbox command with its argument words. -/
  | powerRequest (ch : Chan) (tag : Byte) (args : List Word)
  /-- AUTO_DOZE_TIMER: R484: no frame has been enqueued for DOZE_IDLE_MS. -/
  | autoDozeTimer
  /-- BLOCK_AGREE: R487: the block that is being asked agrees and stops. -/
  | blockAgree
  /-- BLOCK_REFUSE: R487, R488: the block that is being asked refuses. -/
  | blockRefuse
  /-- PREPARE_TIMEOUT: R487: the block that is being asked has not answered in time. -/
  | prepareTimeout
  /-- STATE_REACHED: R490: every block has agreed. -/
  | stateReached
  /-- WAKE_WATCH: R456, R489: the source of a watch entry is raised. -/
  | wakeWatch (k : Fin 32)
  /-- WAKE_ALARM: R489: the time counter reaches the alarm. -/
  | wakeAlarm
  /-- WAKE_PIN: R489: WAKE_IN_N has been low for 1 us. -/
  | wakePin
  /-- WAKE_PERST: R489: a rising edge of PERST_N. -/
  | wakePerst
  /-- WAKE_DOORBELL: R489: a doorbell is stored for a function in RUNNING. -/
  | wakeDoorbell (func : Fin 254)
  /-- WAKE_FIRMWARE: R489: firmware needs a stopped block, or a line port leaves line doze. -/
  | wakeFirmware
  /-- WAKE_RESTART_COMPLETE: R492: the stopped blocks have restarted. -/
  | wakeRestartComplete
  /-- ALARM_COMMIT: R489, R498: a write of `HOLD.ALARM_SEC_HI`. -/
  | alarmCommit (src : Source) (hi : Word)
  /-- SUPPLY_SWITCH: R494: the holder's supply in use changes, to VHOLD_B or to VHOLD_A. -/
  | supplySwitch (toB : Bool)
  /-- VHOLD_A_QUALIFIED: R494: VHOLD_A has been above 3.10 V for 10 ms. -/
  | vholdAQualified
  /-- BACKUP_LOW: R494: VHOLD_B is measured. -/
  | backupLow (mv : Fin 65536)
  /-- HOLDER_READY: R266, R286, R528: the holder becomes ready, TREF identified by its code. -/
  | holderReady (tref : Fin 16)
  /-- MAIN_SUPPLY_FAULT: R529: a main rail has been below 95 % of its minimum for 2 us; the straps are sampled at the end of the reset. -/
  | mainSupplyFault (straps : Straps)
  /-- SITE_RX_FRAME: R502, R503, R505, R507, R508, R471: a frame with its FCS is received `sub` steps of 2^-16 ns into the `ck_time` cycle, with so many bytes free in the receive FIFO and so many codewords corrected and uncorrectable since the last. -/
  | siteRxFrame (n : Fin 4) (bytes : List Byte) (sub : Fin 131072) (fifoFree : Fin 131073) (fecCorr fecUncorr : Nat)
  /-- SITE_LINK_UP: R501: block lock and FEC alignment have held for 1 ms. -/
  | siteLinkUp (n : Fin 4)
  /-- SITE_LINK_DOWN: R501: block lock or FEC alignment is lost. -/
  | siteLinkDown (n : Fin 4)
  /-- LPI_ENTRY: R509: the egress has had no frame for IDLE_US. -/
  | lpiEntry (n : Fin 4)
  /-- LPI_WAKE: R509: WAKE_US after a frame was released in low-power idle. -/
  | lpiWake (n : Fin 4) (sub : Fin 131072)
  /-- PLY_CLOCK_DETECT: R512: the forwarded clock has been in range for 100 us. -/
  | plyClockDetect
  /-- PLY_TRAIN_COMPLETE: R510, R512: every lane is trained, with the precoding chosen per lane. -/
  | plyTrainComplete (precode : Fin 16)
  /-- PLY_TRAIN_TIMEOUT: R512: 50 ms without training completion. -/
  | plyTrainTimeout
  /-- PLY_LOCK: R512: codeword alignment and 64 decodable codewords. -/
  | plyLock
  /-- PLY_CAPABILITIES: R512: the twin's capabilities are received. -/
  | plyCapabilities (serial : BitVec 128) (twinId : Bool) (version : Word) (twinInForce : Bool)
  /-- PLY_LINK_LOSS: R512: the forwarded clock is absent for 200 ns, or 16 consecutive codewords are uncorrectable. -/
  | plyLinkLoss (uncorrectable : Bool)
  /-- PLY_FRAME_FLIT: R511, R517: FRAME flits of a frame are received, its last among them or not. -/
  | plyFrameFlit (bytes : List Byte) (last : Bool) (corr uncorr : Nat)
  /-- TIME_FLIT: R514, R515: a TIME flit, its times in 2^-16 ns, arrives `sub` steps of 2^-16 ns into the `ck_time` cycle. -/
  | timeFlit (t1 t2 t3 : BitVec 128) (sub : Fin 131072)
  /-- BEAT_SEND: R518: every 10 us. -/
  | beatSend
  /-- BEAT_RECEIVE: R515, R518: a BEAT flit. -/
  | beatReceive (regA regB : Fin 8) (working : Bool) (power : Fin 5) (role : Fin 5) (selected : Fin 4) (timeState : Fin 8)
  /-- HB_LOST: R518: an interval ends with no BEAT received for HB_MISS of them. -/
  | hbLost
  /-- TKO_TAKE: R519: a TKO flit TAKE. -/
  | tkoTake
  /-- TKO_YIELD: R519: a TKO flit YIELD. -/
  | tkoYield
  /-- TKO_GUARD: R518, R519: the guard elapses. -/
  | tkoGuard
  /-- TKO_ABORT: R519: 10 ms in TAKING. -/
  | tkoAbort
  /-- DUAL_SERVE: R519: TWIN_SERVE_IN has been high for GUARD_US. -/
  | dualServe
  /-- PLY_CONFIG: R521: mailbox command with its argument words, OP CONFIG. -/
  | plyConfig (ch : Chan) (tag : Byte) (args : List Word)
  /-- PLY_TAKE: R519, R521: PLY_CONFIG with OP TAKE. -/
  | plyTake (ch : Chan) (tag : Byte) (args : List Word)
  /-- PLY_YIELD: R519, R521: PLY_CONFIG with OP YIELD. -/
  | plyYield (ch : Chan) (tag : Byte) (args : List Word)
  /-- THERM_ALERT: R541: the hottest of the sensors is read, in 0.0625 degrees C. -/
  | thermAlert (tj : BitVec 16)
  /-- THERMAL_TRIP: R541: a sensor has read 135 degrees C or more for 10 us. -/
  | thermalTrip
  /-- MON_RAIL_SAMPLE: R541: the twelve supply senses, in mV. -/
  | monRailSample (mv : List (BitVec 16))
  /-- LINK_TRAINING_COMPLETE: R8: link training completes, at a speed in tenths of GT/s and a width. -/
  | linkTrainingComplete (speed width : Nat)
  /-- PERST_DEASSERTION: R64: PERST_N rises. -/
  | perstDeassertion
  /-- ASPM_L1_ENTRY: R431: the idle link enters L1. -/
  | aspmL1Entry
  /-- MAIN_RAILS_VALID: R492: after a wake from KEEP the main rails are valid; the straps are sampled at the end of the reset. -/
  | mainRailsValid (straps : Straps)
  /-- HOLDER_SUPPLIES_LOST: R494: both holder supplies are below 2.60 V. -/
  | holderSuppliesLost
  /-- MODULE_CHANGE: R521: SITEn_MODABS_N changes. -/
  | moduleChange (n : Fin 4) (present : Bool)
  /-- BOUNDARY_SCAN: R62: a boundary-scan instruction takes the pins from their functions; while one holds them, the TAP
  leaves it. -/
  | boundaryScan
  /-- HOOK_RESTART: R52: a Hook core restarted by its watchdog has rebuilt its state. -/
  | hookRestart (core : Fin 4)
  /-- LSS_CLEAR: R117: the modem has held symbol sync for 1 ms. -/
  | lssClear (p : Port)
deriving DecidableEq, Repr

end Sys2Proof
end

