-- ==== Sys2Proof/WellFormed.lean ====
section
/-!
DEFINITION. WellFormed.lean: which terms of `Instr` are commands of the LB880.

A row of the table names a command by its name and by what its operands carry: a write of `CLS.FT_CMD` is FT_INSERT
only when OP is INSERT, a short message is TREE_PARAMS only when its TYPE is that.  Operands that a type cannot bound
are checked here.  A term that fails has an effect all the same: what the LB880 does on a write, a message or a sample
of that content.
-/

namespace Sys2Proof

/-- A little OP field of a written word: `w` bits from bit `lo`. -/
def opField (v : BitVec 32) (lo w : Nat) : Nat := v.toNat / 2 ^ lo % 2 ^ w

/-- A big-endian field of a message. -/
def wireField (m : List (BitVec 8)) (off n : Nat) : Nat := ((m.drop off).take n).foldl (fun a b => a * 256 + b.toNat) 0

/-- A short message of a TYPE (R229): 64 bytes. -/
def shortOk (type : Nat) (m : List (BitVec 8)) : Bool := decide (m.length = 64) && decide (wireField m 0 1 = type)

/-- A tunnel message of a TYPE (R230): its header of 4 bytes and a body of the length the header gives. -/
def tunnelOk (type : Nat) (m : List (BitVec 8)) : Bool :=
  decide (4 ≤ m.length) && decide (wireField m 0 1 = type) && decide (wireField m 2 2 = m.length - 4)

/-- The mailbox command codes that R79 defines. -/
def mailboxCodes : List Nat :=
  [0x1, 0x2, 0x3, 0x10, 0x11, 0x12, 0x13, 0x14, 0x15] ++ [0x20, 0x21, 0x22, 0x30, 0x31, 0x32, 0x33, 0x38, 0x39] ++
  [0x3A, 0x3B, 0x3C, 0x40, 0x41, 0x50, 0x51, 0x52, 0x53] ++ [0x54, 0x55, 0x60, 0x61, 0x70, 0x71, 0x72, 0x80, 0x90]

/-- OP of the first argument word of PLY_CONFIG (R521). -/
def plyConfigOp (args : List (BitVec 32)) : Nat := opField (args.getD 0 0) 4 2

/-- Whether a term is a command of the LB880. -/
def Instr.wellFormed : Instr → Bool
  | .msecRead _ v => decide (opField v 0 2 = 1)
  | .msecWrite _ v => decide (opField v 0 2 = 2)
  | .laLockAcquire _ v => decide (opField v 0 1 = 1)
  | .laLockRelease _ v => decide (opField v 0 2 = 2)
  | .ftInsert _ v => decide (opField v 0 4 = 1)
  | .ftDelete _ v => decide (opField v 0 4 = 2)
  | .ftModify _ v => decide (opField v 0 4 = 3)
  | .ftQuery _ v => decide (opField v 0 4 = 4)
  | .ftRead _ v => decide (opField v 0 4 = 5)
  | .ruleWrite _ v => decide (opField v 16 2 = 1)
  | .ruleRead _ v => decide (opField v 16 2 = 2)
  | .ruleInvalidate _ v => decide (opField v 16 2 = 3)
  | .hushRequest _ v => decide (opField v 0 1 = 1)
  | .hushRelease _ v => decide (opField v 0 1 = 0)
  | .flr f => decide (f.val ≠ 0)
  | .gaugeFitDone _ optics => decide (optics.length = 5)
  | .epRead _ v => decide (opField v 0 2 = 1)
  | .epWrite _ v => decide (opField v 0 2 = 2)
  | .linkTrainingComplete speed width => [25, 50, 80, 160].contains speed && [1, 2, 4, 8, 16].contains width
  | .bar4Access f off bytes w =>
    let n := match w with
      | some bs => bs.length
      | none => bytes.val
    decide (off + n ≤ if f.val < 2 then 2 ^ 28 else 2 ^ 24) && decide (1 ≤ n) && decide (n ≤ 64)
  | .unknownCmd _ _ code => !mailboxCodes.contains code.toNat
  | .plyConfig _ _ args => decide (plyConfigOp args ≠ 1) && decide (plyConfigOp args ≠ 2)
  | .plyTake _ _ args => decide (plyConfigOp args = 1)
  | .plyYield _ _ args => decide (plyConfigOp args = 2)
  | .eqRead _ v => decide (opField v 0 2 = 1)
  | .eqWrite _ v => decide (opField v 0 2 = 2)
  | .grpRead _ v => decide (opField v 0 2 = 1)
  | .grpWrite _ v => decide (opField v 0 2 = 2)
  | .remap _ v => decide (opField v 30 2 = 1)
  | .darnQuery _ v => decide (opField v 30 2 = 2)
  | .txmonArm _ _ v => decide (opField v 0 1 = 1)
  | .txmonCancel _ _ v => decide (opField v 2 1 = 1)
  | .monRailSample mv => decide (mv.length = 12)
  | .nodeRead _ v => decide (opField v 0 2 = 1)
  | .nodeWrite _ v => decide (opField v 0 2 = 2)
  | .polRead _ v => decide (opField v 0 2 = 1)
  | .polWrite _ v => decide (opField v 0 2 = 2)
  | .patternCommit _ v => decide (opField v 0 2 = 1)
  | .patternAbort _ v => decide (opField v 0 2 = 2)
  | .poolEnable _ _ v => decide (opField v 31 1 = 1)
  | .poolDisable _ _ v => decide (opField v 31 1 = 0)
  | .timeRef _ m => decide (m.length = 48)
  | .allocInvalidate _ _ _ v => decide (opField v 31 1 = 0)
  | .treeParams _ m => shortOk 1 m
  | .assignAddr _ m => shortOk 2 m
  | .rangingResult _ m => shortOk 3 m
  | .proveChallenge _ m => shortOk 4 m
  | .proveResult _ m => shortOk 5 m
  | .profileAssign _ m => shortOk 6 m
  | .allocAssign _ m => shortOk 7 m
  | .keyUse _ m => shortOk 8 m
  | .msgMute _ m => shortOk 9 m
  | .msgUnmute _ m => shortOk 10 m
  | .deregister _ m => shortOk 11 m
  | .msgDoze _ m => shortOk 12 m
  | .msgAck _ m => shortOk 13 m
  | .dsProfileDesc _ m => tunnelOk 0x40 m
  | .usProfileDesc _ m => tunnelOk 0x41 m
  | .distortionReport _ m => tunnelOk 0x42 m
  | .keyOffer _ m => tunnelOk 0x43 m
  | _ => true

end Sys2Proof
end

