-- ==== Sys2Proof/Decode.lean ====
section
/-!
DEFINITION. Decode.lean: the command that a word of the table's bits spells.

The LB880 is a block.  Its commands are register accesses, mailbox requests, events and pins; `spec/opcode_table.json`
gives no row of it any bits, so no word spells a command.
-/

namespace Sys2Proof

/-- The command that a word spells: no row of the table has bits, so none. -/
def decodeTableWord (_nbits _w : Nat) : Option Instr := none

end Sys2Proof
end

