-- ==== Sys2Proof/Machine/Names.lean ====
section
/-!
DEFINITION. Machine/Names.lean: page bases, function numbers and source numbers.
-/

namespace Sys2Proof.Machine

/-! ### Page bases -/

namespace Pg
def DEV : Nat := 0x00000
def SEC : Nat := 0x01000
def PWR : Nat := 0x03000
def HOLD : Nat := 0x04000
def MON : Nat := 0x05000
def SNAP : Nat := 0x06000
/-- `HOOK` page of a mailbox channel. -/
def HOOK : Chan → Nat
  | .ch0 => 0x08000
  | .ch1 => 0x09000
def MARK : Nat := 0x10000
def TIME : Nat := 0x20000
def TSQ : Nat := 0x22000
def GAUGE : Port → Nat
  | .portA => 0x24000
  | .portB => 0x25000
def LINE : Port → Nat
  | .portA => 0x40000
  | .portB => 0x50000
def LFR : Port → Nat
  | .portA => 0x44000
  | .portB => 0x54000
def NDL (n : Fin 8) : Nat := 0x60000 + 0x1000 * n.val
def CLS : Nat := 0x80000
def SCHED : Nat := 0x82000
def METER : Nat := 0x84000
def PATTERN : Nat := 0x85000
def DEADLINE : Nat := 0x86000
def SKEIN : Nat := 0x90000
def MEM : Nat := 0x94000
def DARN : Nat := 0x96000
def PCIE : Nat := 0xA0000
def HQ : Nat := 0xA2000
def CIPH : Nat := 0xB0000
def SITE (n : Fin 4) : Nat := 0xC0000 + 0x1000 * n.val
def PLY : Nat := 0xC8000
end Pg

end Sys2Proof.Machine

namespace Sys2Proof

open Machine

/-! ### Functions and their pages (R33, R36) -/

/-- The number of a function in `State.fns`. -/
def Fn.num : Fn → Nat
  | .line .portA => 0
  | .line .portB => 1
  | .ndl n => 2 + n.val
  | .site n => 10 + n.val
  | .ply => 14
  | .pf1 => 15
  | .vf n => 16 + n.val

/-- The first page slots of the blocks a function governs, with how many pages each has: its control page first. -/
def Fn.governs : Fn → List (Nat × Nat)
  | .line p => [(Pg.LFR p, 3), (Pg.LINE p, 4), (Pg.GAUGE p, 1)]
  | .ndl n => [(Pg.NDL n, 1)]
  | .site n => [(Pg.SITE n, 1)]
  | .ply => [(Pg.PLY, 1)]
  | .pf1 => []
  | .vf _ => []

/-- Bases of the pages a function governs. -/
def Fn.pages (f : Fn) : List Nat := (f.governs.map (fun g => (List.range g.2).map (fun i => g.1 + 0x1000 * i))).flatten

/-! ### Sources -/

/-- A source's number in the keys of latches and staging registers (R31). -/
def Source.num : Source → Nat
  | .pf0 => 0
  | .pf1 => 1
  | .vf n => 2 + n.val
  | .hook n => 254 + n.val
  | .jtag => 258
  | .mgmt => 259

/-- The SOURCE code of `PAGE_ERR_INFO`. -/
def Source.code : Source → Nat
  | .pf0 => 0
  | .pf1 => 1
  | .vf _ => 2
  | .hook _ => 3
  | .jtag => 4
  | .mgmt => 5

/-- Whether the source is a Hook core: firmware. -/
def Source.isHook : Source → Bool
  | .hook _ => true
  | _ => false

/-- The PCIe function number of a source, where it is one: 0 PF0, 1 PF1, 2 + n VF n. -/
def Source.func : Source → Option Nat
  | .pf0 => some 0
  | .pf1 => some 1
  | .vf n => some (2 + n.val)
  | _ => none

/-- The function number in `State.fns` terms of a PCIe function number above 0. -/
def Fn.ofFunc (n : Nat) : Option Fn :=
  if n = 1 then some .pf1
  else if h : 2 ≤ n ∧ n < 254 then some (.vf ⟨n - 2, by omega⟩)
  else none

/-- Where an access of a source at its own BAR0 offset lands; none where the source has no page there (R411). -/
def Source.target (src : Source) (addr : Nat) : Option Nat :=
  match src with
  | .vf _ =>
    if addr < 0x1000 then some (Pg.DEV + addr)
    else if addr < 0x3000 then some (Pg.HQ + (addr - 0x1000))
    else if addr < 0x4000 then some (Pg.TIME + (addr - 0x3000))
    else if addr < 0x5000 then some (Pg.SKEIN + (addr - 0x4000))
    else if 0x8000 ≤ addr ∧ addr < 0x10000 then some (Pg.MARK + (addr - 0x8000))
    else none
  | _ => some addr

/-- The BAR0 offset at which a source reaches a register of the directory (R411); a VF has no page for the rest. -/
def Source.bar (src : Source) (a : Nat) : Nat :=
  match src with
  | .vf _ =>
    if a < 0x1000 then a
    else if Pg.HQ ≤ a ∧ a < Pg.HQ + 0x2000 then 0x1000 + (a - Pg.HQ)
    else if Pg.TIME ≤ a ∧ a < Pg.TIME + 0x1000 then 0x3000 + (a - Pg.TIME)
    else if Pg.SKEIN ≤ a ∧ a < Pg.SKEIN + 0x1000 then 0x4000 + (a - Pg.SKEIN)
    else if Pg.MARK ≤ a ∧ a < Pg.MARK + 0x8000 then 0x8000 + (a - Pg.MARK)
    else 0x100000 + a
  | _ => a

/-! ### Ports, banks and channels -/

/-- Both ports. -/
def Port.both : List Port := [.portA, .portB]

/-- Port A is 0, port B is 1. -/
def Port.num : Port → Nat
  | .portA => 0
  | .portB => 1

/-- The port of a number: 0 is A, anything else B. -/
def Port.ofNum (n : Nat) : Port := if n = 0 then .portA else .portB

/-- The other port. -/
def Port.other : Port → Port
  | .portA => .portB
  | .portB => .portA

/-- Bank A is 0, bank B is 1. -/
def Bank.num : Bank → Nat
  | .bankA => 0
  | .bankB => 1

/-- The other bank. -/
def Bank.other : Bank → Bank
  | .bankA => .bankB
  | .bankB => .bankA

end Sys2Proof
end

