-- ==== Sys2Proof/Machine/RegTable.lean ====
section
/-!
DEFINITION. Machine/RegTable.lean: the register pages of the LB880 (R48) and every register the chapters give them.

One row for each register of the chapters' register tables: its offset in the block, how many times it repeats and
at what stride, a mask for each access code of R28, the OFF-only mask of R40, its reset value and which sources may
write it.  The constants after the rows name each field by page, register and field, as the chapters do; a page's
index within its block is part of the offset.
-/

namespace Sys2Proof.Machine

/-- Who may write a register: any source; PF0; a Hook core (firmware); either; the mailbox channel's owner (R78);
the writers of `INC` and `STEP` (R273); the writers of Needle control registers (R166). -/
inductive WClass where
  | any | pf0 | fw | pf0fw | mbx | inc | step | ndl
deriving DecidableEq, Repr

/-- One register of a chapter's table.  The masks say which bits have which access code (R28). -/
structure RegRow where
  /-- Offset from the base of the block instance. -/
  off : Nat
  /-- How many times the register repeats. -/
  n : Nat
  /-- Distance between repeats. -/
  stride : Nat
  rw : Nat
  ro : Nat
  w1c : Nat
  w1s : Nat
  rc : Nat
  /-- Bits that may be written only while the governing function is in OFF (R40). -/
  offOnly : Nat
  /-- Reset value. -/
  reset : Nat
  wclass : WClass
  /-- The register is the `_LO` half of a 64-bit pair (R29). -/
  pairLo : Bool
  /-- The register is a counter of the row snapshot (R42). -/
  ctr : Bool
deriving DecidableEq, Repr

/-- A field of a register: its register's offset in the block, its lowest bit and its width. -/
structure Fld where
  off : Nat
  lo : Nat
  w : Nat
deriving DecidableEq, Repr

/-- Registers of `DEV`. -/
def rowsDEV : List RegRow := [
  ⟨0x100, 1, 4, 0, 0xFF1FC7, 0, 0, 0, 0, 0, .any, false, false⟩, -- BOOT_STAT (R66)
  ⟨0x104, 1, 4, 0, 0, 0, 0, 0, 0, 0, .pf0, false, false⟩, -- RESET_CTRL (R49)
  ⟨0x108, 1, 4, 0, 0, 0x3F, 0, 0, 0, 1, .any, false, false⟩, -- RESET_CAUSE (R49)
  ⟨0x140, 4, 4, 0, 0xFFFFFFFF, 0, 0, 0, 0, 0, .any, false, false⟩, -- FEAT_OFFER (R413)
  ⟨0x150, 4, 4, 0xFFFFFFFF, 0, 0, 0, 0, 0, 0, .pf0, false, false⟩, -- FEAT_ACCEPT (R414)
  ⟨0x160, 1, 4, 0, 0, 0, 0, 0, 0, 0, .pf0, false, false⟩, -- FEAT_COMMIT (R414)
  ⟨0x164, 1, 4, 0, 0xF1, 0, 0, 0, 0, 0, .any, false, false⟩, -- FEAT_STAT (R414)
  ⟨0x170, 1, 4, 0, 0xFFFFFFFF, 0, 0, 0, 0, 1, .any, false, false⟩, -- FEAT_ACTIVE (R415)
  ⟨0x174, 3, 4, 0, 0xFFFFFFFF, 0, 0, 0, 0, 0, .any, false, false⟩] -- FEAT_ACTIVE_HI (R415)

/-- Registers of `SEC`. -/
def rowsSEC : List RegRow := [
  ⟨0x40, 1, 4, 0, 0xFFF1, 0, 0, 0, 0, 0, .any, false, false⟩, -- PROTECT (R58)
  ⟨0x44, 1, 4, 0, 0xF, 0, 0, 0xFFFF0000, 0, 0, .any, false, false⟩, -- RNG_STAT (R88)
  ⟨0x80, 4, 4, 0, 0xFF, 0, 0, 0, 0, 0, .any, false, false⟩, -- ROLLBACK (R73)
  ⟨0x1040, 128, 4, 0, 0xFFFFFFFF, 0, 0, 0, 0, 0, .any, false, false⟩] -- MEAS (R76)

/-- Registers of `PWR`. -/
def rowsPWR : List RegRow := [
  ⟨0x40, 1, 4, 0, 0x177, 0, 0, 0, 0, 0, .any, false, false⟩, -- STATE (R485)
  ⟨0x44, 1, 4, 0, 0xFFFFFF07, 0, 0, 0, 0, 0, .any, false, false⟩, -- LAST_ATTEMPT (R485)
  ⟨0x48, 1, 4, 0x8000FFFF, 0, 0, 0, 0, 0, 0x64, .pf0fw, false, false⟩] -- POLICY (R498)

/-- Registers of `HOLD`, part 0. -/
def rowsHOLD_0 : List RegRow := [
  ⟨0x40, 1, 4, 0, 0x1F, 0, 0, 0, 0, 0x10, .any, false, false⟩, -- SUPPLY (R494)
  ⟨0x44, 1, 4, 0xF, 0, 0, 0, 0, 0, 0xE, .pf0fw, false, false⟩, -- WAKE_EN (R498)
  ⟨0x48, 1, 4, 0, 0xFE, 0, 0, 0, 0, 0, .any, false, false⟩, -- WAKE_LATCH (R490)
  ⟨0x50, 1, 4, 0x3FFFFFFF, 0, 0, 0, 0, 0, 0, .pf0fw, false, false⟩, -- ALARM_NS (R498)
  ⟨0x54, 1, 4, 0xFFFFFFFF, 0, 0, 0, 0, 0, 0, .pf0fw, true, false⟩, -- ALARM_SEC_LO (R498)
  ⟨0x58, 1, 4, 0xFFFF, 0, 0, 0, 0, 0, 0, .pf0fw, false, false⟩, -- ALARM_SEC_HI (R498)
  ⟨0x60, 1, 4, 0, 0xF, 0, 0, 0, 0, 0, .any, false, false⟩, -- LEDGER_NEXT (R493)
  ⟨0x80, 16, 0x10, 0, 0xFFFFFFFF, 0, 0, 0, 0, 0, .any, false, false⟩, -- LEDGER_SEC (R493)
  ⟨0x84, 16, 0x10, 0, 0x3FFFFFFF, 0, 0, 0, 0, 0, .any, false, false⟩, -- LEDGER_NS (R493)
  ⟨0x88, 16, 0x10, 0, 0xFFFFFFFF, 0, 0, 0, 0, 0, .any, false, false⟩, -- LEDGER_INFO (R493)
  ⟨0x8C, 16, 0x10, 0, 0xFFFFFFFF, 0, 0, 0, 0, 0, .any, false, false⟩, -- LEDGER_STAY_MS (R493)
  ⟨0x180, 1, 4, 0, 0, 0, 0, 0xFFFFFFFF, 0, 0, .any, true, true⟩, -- RESID0_LO (R499)
  ⟨0x184, 1, 4, 0, 0, 0, 0, 0xFFFFFFFF, 0, 0, .any, false, true⟩, -- RESID0_HI (R499)
  ⟨0x188, 1, 4, 0, 0, 0, 0, 0xFFFFFFFF, 0, 0, .any, true, true⟩, -- RESID1_LO (R499)
  ⟨0x18C, 1, 4, 0, 0, 0, 0, 0xFFFFFFFF, 0, 0, .any, false, true⟩, -- RESID1_HI (R499)
  ⟨0x190, 1, 4, 0, 0, 0, 0, 0xFFFFFFFF, 0, 0, .any, true, true⟩, -- RESID2_LO (R499)
  ⟨0x194, 1, 4, 0, 0, 0, 0, 0xFFFFFFFF, 0, 0, .any, false, true⟩, -- RESID2_HI (R499)
  ⟨0x198, 1, 4, 0, 0, 0, 0, 0xFFFFFFFF, 0, 0, .any, true, true⟩, -- RESID3_LO (R499)
  ⟨0x19C, 1, 4, 0, 0, 0, 0, 0xFFFFFFFF, 0, 0, .any, false, true⟩, -- RESID3_HI (R499)
  ⟨0x1A0, 1, 4, 0, 0, 0, 0, 0xFFFFFFFF, 0, 0, .any, true, true⟩, -- RESID4_LO (R499)
  ⟨0x1A4, 1, 4, 0, 0, 0, 0, 0xFFFFFFFF, 0, 0, .any, false, true⟩, -- RESID4_HI (R499)
  ⟨0x1B0, 5, 4, 0, 0, 0, 0, 0xFFFFFFFF, 0, 0, .any, false, true⟩, -- ENTRIES (R499)
  ⟨0x1C4, 1, 4, 0, 0, 0, 0, 0xFFFFFFFF, 0, 0, .any, false, true⟩, -- ATTEMPTS_FAILED (R499)
  ⟨0x1C8, 1, 4, 0, 0, 0, 0, 0xFFFFFFFF, 0, 0, .any, false, true⟩] -- IMMEDIATE_WAKES (R499)

/-- Registers of `HOLD`, part 1. -/
def rowsHOLD_1 : List RegRow := [
  ⟨0x1CC, 1, 4, 0, 0, 0, 0, 0xFFFFFFFF, 0, 0, .any, false, true⟩, -- SUPPLY_SWITCHES (R499)
  ⟨0x1D0, 2, 4, 0, 0, 0, 0, 0xFFFFFFFF, 0, 0, .any, false, true⟩] -- REST_DROP (R499)

/-- Registers of `HOLD`. -/
def rowsHOLD : List RegRow := rowsHOLD_0 ++ rowsHOLD_1

/-- Registers of `MON`. -/
def rowsMON : List RegRow := [
  ⟨0x40, 1, 4, 0, 0xFFFF, 0, 0, 0xFFFF0000, 0, 0x80000000, .pf0fw, false, false⟩, -- TEMP (R541)
  ⟨0x44, 1, 4, 0xFF00, 0x80000000, 0, 0, 0, 0, 0x7300, .pf0fw, false, false⟩, -- THERM (R541)
  ⟨0x80, 12, 4, 0, 0x8000FFFF, 0, 0, 0, 0, 0, .pf0fw, false, false⟩] -- RAIL (R541)

/-- Registers of `SNAP`. -/
def rowsSNAP : List RegRow := [
  ⟨0x40, 1, 4, 0x10, 0, 0, 0, 0, 0, 0, .any, false, false⟩, -- CTRL (R47)
  ⟨0x44, 1, 4, 0, 1, 0xE, 0, 0, 0, 0, .any, false, false⟩, -- STAT (R45)
  ⟨0x48, 1, 4, 0, 0xFFFFFFFF, 0, 0, 0, 0, 0, .any, false, false⟩, -- GEN (R42)
  ⟨0x4C, 1, 4, 0xFFFFFFFF, 0, 0, 0, 0, 0, 0, .any, false, false⟩, -- PERIOD (R45)
  ⟨0x50, 1, 4, 0xFFFFFFFF, 0, 0, 0, 0, 0, 0, .any, true, false⟩, -- AT_SEC_LO (R551)
  ⟨0x54, 1, 4, 0xFFFF, 0, 0, 0, 0, 0, 0, .any, false, false⟩, -- AT_SEC_HI (R551)
  ⟨0x58, 1, 4, 0x3FFFFFFF, 0, 0, 0, 0, 0, 0, .any, false, false⟩, -- AT_NS (R551)
  ⟨0x60, 1, 4, 0, 0xFFFFFFFF, 0, 0, 0, 0, 0, .any, true, false⟩, -- TAKEN_SEC_LO (R45)
  ⟨0x64, 1, 4, 0, 0xFFFF, 0, 0, 0, 0, 0, .any, false, false⟩, -- TAKEN_SEC_HI (R45)
  ⟨0x68, 1, 4, 0, 0x3FFFFFFF, 0, 0, 0, 0, 0, .any, false, false⟩] -- TAKEN_NS (R45)

/-- Registers of `HOOK`. -/
def rowsHOOK : List RegRow := [
  ⟨0x40, 1, 4, 0, 0, 0, 0, 0, 0, 0, .mbx, false, false⟩, -- MBX_CTRL (R78)
  ⟨0x44, 1, 4, 0, 9, 6, 0, 0, 0, 0, .mbx, false, false⟩, -- MBX_STAT (R78)
  ⟨0x80, 32, 4, 0xFFFFFFFF, 0, 0, 0, 0, 0, 0, .mbx, false, false⟩, -- MBX_REQ (R78)
  ⟨0x100, 32, 4, 0, 0xFFFFFFFF, 0, 0, 0, 0, 0, .mbx, false, false⟩, -- MBX_RSP (R78)
  ⟨0x1040, 1, 4, 0, 0, 0, 0, 0, 0, 0, .mbx, false, false⟩, -- MBX_CTRL (R78)
  ⟨0x1044, 1, 4, 0, 9, 6, 0, 0, 0, 0, .mbx, false, false⟩, -- MBX_STAT (R78)
  ⟨0x1080, 32, 4, 0xFFFFFFFF, 0, 0, 0, 0, 0, 0, .mbx, false, false⟩, -- MBX_REQ (R78)
  ⟨0x1100, 32, 4, 0, 0xFFFFFFFF, 0, 0, 0, 0, 0, .mbx, false, false⟩] -- MBX_RSP (R78)

/-- Registers of `MARK`, part 0. -/
def rowsMARK_0 : List RegRow := [
  ⟨0x40, 1, 4, 1, 0, 0, 0, 0, 0, 0, .pf0fw, false, false⟩, -- CTRL (R455)
  ⟨0x44, 1, 4, 0, 0xFFF3, 0, 0, 0, 0, 0, .any, false, false⟩, -- STAT (R453)
  ⟨0x48, 1, 4, 0, 0xFF1F0FFF, 0, 0, 0, 0, 0, .any, false, false⟩, -- WAIT (R453)
  ⟨0x50, 1, 4, 0xFFF, 0, 0, 0, 0, 0, 0, .any, false, false⟩, -- EQ_SEL (R445)
  ⟨0x54, 1, 4, 0, 0xF00, 0, 0, 0, 0, 0, .any, false, false⟩, -- EQ_CMD (R445)
  ⟨0x58, 1, 4, 0, 0, 0, 0, 0, 0, 0, .any, false, false⟩, -- EQ_DB (R447)
  ⟨0x5C, 1, 4, 0, 0, 0, 0, 0, 0, 0, .any, false, false⟩, -- EQ_PRIO (R445)
  ⟨0x60, 8, 4, 0xFFFFFFFF, 0, 0, 0, 0, 0, 0, .any, false, false⟩, -- EQ_DATA (R445)
  ⟨0x1040, 1, 4, 0xFF, 0, 0, 0, 0, 0, 0, .pf0fw, false, false⟩, -- FN_SEL (R446)
  ⟨0x1044, 1, 4, 0xFFF, 0, 0, 0, 0, 0, 0, .pf0fw, false, false⟩, -- FN_EQBASE (R446)
  ⟨0x1048, 1, 4, 0x1FFF, 0x80000000, 0, 0, 0, 0, 0, .pf0fw, false, false⟩, -- FN_EQCOUNT (R446)
  ⟨0x1050, 1, 4, 0x1F0FFF, 0, 0, 0, 0, 0, 0, .pf0fw, false, false⟩, -- SRC_SEL (R450)
  ⟨0x1054, 1, 4, 0x800000FF, 0, 0, 0, 0, 0, 0, .pf0fw, false, false⟩, -- SRC_ROUTE (R450)
  ⟨0x1058, 1, 4, 0xFF, 0, 0, 0, 0, 0, 0, .pf0fw, false, false⟩, -- GRP_SEL (R450)
  ⟨0x105C, 1, 4, 0, 0xF00, 0, 0, 0, 0, 0, .pf0fw, false, false⟩, -- GRP_CMD (R450)
  ⟨0x1060, 1, 4, 0x80001FFF, 0, 0, 0, 0, 0, 0x80001000, .pf0fw, false, false⟩, -- GRP_DATA (R450)
  ⟨0x1064, 7, 4, 0x80001FFF, 0, 0, 0, 0, 0, 0, .pf0fw, false, false⟩, -- GRP_DATA_HI (R450)
  ⟨0x1080, 4, 4, 0x800000FF, 0, 0, 0, 0, 0, 0, .fw, false, false⟩, -- HOOK_TGT (R448)
  ⟨0x1100, 32, 4, 0x801F0FFF, 0, 0, 0, 0, 0, 0, .pf0fw, false, false⟩, -- WATCH (R456)
  ⟨0x2040, 1, 4, 0, 0, 0, 0, 0xFFFFFFFF, 0, 0, .any, true, true⟩, -- RECORDS_LO (R458)
  ⟨0x2044, 1, 4, 0, 0, 0, 0, 0xFFFFFFFF, 0, 0, .any, false, true⟩, -- RECORDS_HI (R458)
  ⟨0x2048, 1, 4, 0, 0, 0, 0, 0xFFFFFFFF, 0, 0, .any, false, true⟩, -- IRQ_SENT (R458)
  ⟨0x204C, 1, 4, 0, 0, 0, 0, 0xFFFFFFFF, 0, 0, .any, false, true⟩, -- NO_TARGET (R458)
  ⟨0x2050, 1, 4, 0, 0, 0, 0, 0xFFFFFFFF, 0, 0, .any, false, true⟩] -- WITHDRAWN (R458)

/-- Registers of `MARK`, part 1. -/
def rowsMARK_1 : List RegRow := [
  ⟨0x2054, 1, 4, 0, 0, 0, 0, 0xFFFFFFFF, 0, 0, .any, false, true⟩, -- MASK_LATE (R458)
  ⟨0x2058, 1, 4, 0, 0, 0, 0, 0xFFFFFFFF, 0, 0, .any, false, true⟩, -- REPLAYED (R458)
  ⟨0x205C, 1, 4, 0, 0, 0, 0, 0xFFFFFFFF, 0, 0, .any, false, true⟩, -- DMA_ERR (R458)
  ⟨0x2060, 1, 4, 0, 0, 0, 0, 0xFFFFFFFF, 0, 0, .any, false, true⟩, -- DISCARDED (R458)
  ⟨0x2064, 1, 4, 0, 0, 0, 0, 0xFFFFFFFF, 0, 0, .any, false, true⟩] -- DB_ERR (R458)

/-- Registers of `MARK`. -/
def rowsMARK : List RegRow := rowsMARK_0 ++ rowsMARK_1

/-- Registers of `TIME`, part 0. -/
def rowsTIME_0 : List RegRow := [
  ⟨0x40, 1, 4, 0, 0, 0, 2, 0, 0, 0, .any, false, false⟩, -- CTRL (R272)
  ⟨0x44, 1, 4, 0, 0xFF00070F, 0, 0, 0, 0, 0x100, .any, false, false⟩, -- STAT (R281)
  ⟨0x48, 1, 4, 0xFFFFFFFF, 0, 0, 0, 0, 0, 0, .inc, true, false⟩, -- INC_LO (R273)
  ⟨0x4C, 1, 4, 0xFFFF, 0, 0, 0, 0, 0, 0x200, .inc, false, false⟩, -- INC_HI (R273)
  ⟨0x50, 1, 4, 0, 0xFFFFFFFF, 0, 0, 0, 0, 0, .any, false, false⟩, -- NOW_FRAC (R269)
  ⟨0x54, 1, 4, 0, 0x3FFFFFFF, 0, 0, 0, 0, 0, .any, false, false⟩, -- NOW_NS (R269)
  ⟨0x58, 1, 4, 0, 0xFFFFFFFF, 0, 0, 0, 0, 0, .any, false, false⟩, -- NOW_SEC_LO (R269)
  ⟨0x5C, 1, 4, 0, 0xFFFF, 0, 0, 0, 0, 0, .any, false, false⟩, -- NOW_SEC_HI (R269)
  ⟨0x60, 1, 4, 0xFFFFFFFF, 0, 0, 0, 0, 0, 0, .step, false, false⟩, -- STEP_FRAC (R270)
  ⟨0x64, 1, 4, 0x3FFFFFFF, 0, 0, 0, 0, 0, 0, .step, false, false⟩, -- STEP_NS (R270)
  ⟨0x68, 1, 4, 0xFFFFFFFF, 0, 0, 0, 0, 0, 0, .step, true, false⟩, -- STEP_SEC_LO (R270)
  ⟨0x6C, 1, 4, 0x8000FFFF, 0, 0, 0, 0, 0, 0, .step, false, false⟩, -- STEP_SEC_HI (R270)
  ⟨0x70, 1, 4, 0xFFFFFFFF, 0, 0, 0, 0, 0, 0x64, .pf0, false, false⟩, -- JUMP_LIMIT (R271)
  ⟨0x80, 2, 0x20, 0xFFFFFFFF, 0, 0, 0, 0, 0, 0, .pf0fw, false, false⟩, -- PORT_RX_DELAY (R302)
  ⟨0x84, 2, 0x20, 0xFFFFFFFF, 0, 0, 0, 0, 0, 0, .pf0fw, false, false⟩, -- PORT_TX_DELAY (R302)
  ⟨0x88, 2, 0x20, 0xFFFFFFFF, 0, 0, 0, 0, 0, 0, .pf0fw, false, false⟩, -- PORT_ASYM_CFG (R302)
  ⟨0x8C, 2, 0x20, 3, 0, 0, 0, 0, 0, 0, .pf0fw, false, false⟩, -- PORT_CTRL (R302)
  ⟨0x90, 2, 0x20, 0, 0xFFFFFFFF, 0, 0, 0, 0, 0, .any, true, false⟩, -- PORT_OFFSET_LO (R302)
  ⟨0x94, 2, 0x20, 0, 0xFFFFFFFF, 0, 0, 0, 0, 0, .any, false, false⟩, -- PORT_OFFSET_HI (R302)
  ⟨0x98, 2, 0x20, 0, 0x707, 0, 0, 0, 0, 0, .any, false, false⟩, -- PORT_STAT (R302)
  ⟨0xC0, 1, 4, 0xFFFFFFFF, 0, 0, 0, 0, 0, 0x640014, .pf0fw, false, false⟩, -- VOTE (R302)
  ⟨0xC4, 1, 4, 0xFFFFFFF0, 0, 0, 0, 0, 0, 0x3E8260, .fw, false, false⟩, -- TENSION_CFG (R302)
  ⟨0xC8, 1, 4, 0, 0, 0, 0, 0, 0, 0, .fw, false, false⟩, -- TENSION_ERR (R302)
  ⟨0xCC, 1, 4, 0xFFFFFFFF, 0, 0, 0, 0, 0, 0x3E8, .any, false, false⟩] -- LAUNCH_CFG (R297)

/-- Registers of `TIME`, part 1. -/
def rowsTIME_1 : List RegRow := [
  ⟨0x1040, 2, 0x10, 3, 0, 0, 0, 0, 0, 0, .pf0fw, false, false⟩, -- PPS_OUT_CTRL (R302)
  ⟨0x1044, 2, 0x10, 0x1FFFFFFF, 0, 0, 0, 0, 0, 0x5F5E100, .pf0fw, false, false⟩, -- PPS_OUT_WIDTH (R302)
  ⟨0x1048, 2, 0x10, 0xFFFFFFFF, 0, 0, 0, 0, 0, 0, .pf0fw, false, false⟩, -- PPS_OUT_OFFSET (R302)
  ⟨0x1060, 2, 0x10, 7, 0, 0, 0, 0, 0, 0, .pf0fw, false, false⟩, -- PPS_IN_CTRL (R290)
  ⟨0x1064, 2, 0x10, 0xFFFFFFFF, 0, 0, 0, 0, 0, 0, .pf0fw, false, false⟩, -- PPS_IN_DELAY (R290)
  ⟨0x1068, 2, 0x10, 0, 0xFFFFFFFF, 0, 0, 0, 0, 0, .any, false, false⟩, -- PPS_IN_DIFF (R290)
  ⟨0x106C, 2, 0x10, 0, 0xFFFFFFFF, 0, 0, 0, 0, 0, .any, false, false⟩, -- PPS_IN_SEC_LO (R290)
  ⟨0x104C, 2, 0x10, 0, 0, 0, 0, 0, 0, 0, .pf0fw, false, false⟩, -- PPS_OUT_RSV (R302)
  ⟨0x1080, 1, 4, 3, 0, 0, 0, 0, 0, 0, .pf0fw, false, false⟩, -- CLK10_CTRL (R288)
  ⟨0x1084, 1, 4, 7, 0, 0, 0, 0, 0, 0, .pf0fw, false, false⟩, -- TOD_CTRL (R289)
  ⟨0x1100, 8, 0x20, 7, 0x1F00, 0x18, 0, 0, 0, 0, .pf0fw, false, false⟩, -- EVT_CTRL (R292)
  ⟨0x1104, 8, 0x20, 0xFFFFFFFF, 0, 0, 0, 0, 0, 0, .pf0fw, false, false⟩, -- EVT_FRAC (R292)
  ⟨0x1108, 8, 0x20, 0x3FFFFFFF, 0, 0, 0, 0, 0, 0, .pf0fw, false, false⟩, -- EVT_NS (R292)
  ⟨0x110C, 8, 0x20, 0xFFFFFFFF, 0, 0, 0, 0, 0, 0, .pf0fw, true, false⟩, -- EVT_SEC_LO (R292)
  ⟨0x1110, 8, 0x20, 0xFFFF, 0, 0, 0, 0, 0, 0, .pf0fw, false, false⟩, -- EVT_SEC_HI (R292)
  ⟨0x1114, 8, 0x20, 0xFFFFFFFF, 0, 0, 0, 0, 0, 0, .pf0fw, false, false⟩, -- EVT_PERIOD_NS (R292)
  ⟨0x1118, 8, 0x20, 0xFFFFFFFF, 0, 0, 0, 0, 0, 0x64, .pf0fw, false, false⟩, -- EVT_WIDTH_NS (R292)
  ⟨0x1200, 1, 4, 0xFFFF0001, 0, 0, 0, 0, 0, 0x3E80000, .pf0fw, false, false⟩, -- PTM_CTRL (R293)
  ⟨0x1204, 1, 4, 0, 0xFFFFFFFF, 0, 0, 0, 0, 0, .any, true, false⟩, -- PTM_OFFSET_LO (R293)
  ⟨0x1208, 1, 4, 0, 0xFFFFFFFF, 0, 0, 0, 0, 0, .any, false, false⟩, -- PTM_OFFSET_HI (R293)
  ⟨0x120C, 1, 4, 0, 0xFFFFFFFF, 0, 0, 0, 0, 0, .any, false, false⟩, -- PTM_AT_NS (R293)
  ⟨0x1210, 1, 4, 0, 0xFFFFFFFF, 0, 0, 0, 0, 0, .any, true, false⟩, -- PTM_AT_SEC_LO (R293)
  ⟨0x1214, 1, 4, 0, 0xFFFF, 0, 0, 0, 0, 0, .any, false, false⟩, -- PTM_AT_SEC_HI (R293)
  ⟨0x1600, 1, 4, 0, 0, 0, 0, 0xFFFFFFFF, 0, 0, .any, false, true⟩] -- TMSG_USED (R303)

/-- Registers of `TIME`, part 2. -/
def rowsTIME_2 : List RegRow := [
  ⟨0x1604, 1, 4, 0, 0, 0, 0, 0xFFFFFFFF, 0, 0, .any, false, true⟩, -- TMSG_DISCARD (R303)
  ⟨0x1608, 1, 4, 0, 0, 0, 0, 0xFFFFFFFF, 0, 0, .any, false, true⟩, -- TMSG_ERR (R303)
  ⟨0x160C, 1, 4, 0, 0, 0, 0, 0xFFFFFFFF, 0, 0, .any, false, true⟩, -- STEPS (R303)
  ⟨0x1610, 1, 4, 0, 0, 0, 0, 0xFFFFFFFF, 0, 0, .any, false, true⟩, -- JUMP_REFUSED (R303)
  ⟨0x1614, 1, 4, 0, 0, 0, 0, 0xFFFFFFFF, 0, 0, .any, false, true⟩, -- DISAGREE (R303)
  ⟨0x1618, 1, 4, 0, 0, 0, 0, 0xFFFFFFFF, 0, 0, .any, false, true⟩, -- TOD_RX_ERR (R303)
  ⟨0x161C, 1, 4, 0, 0, 0, 0, 0xFFFFFFFF, 0, 0, .any, false, true⟩, -- EVT_DROPS (R303)
  ⟨0x1620, 1, 4, 0, 0, 0, 0, 0xFFFFFFFF, 0, 0, .any, false, true⟩, -- LAUNCH_EXPIRED (R303)
  ⟨0x1624, 1, 4, 0, 0, 0, 0, 0xFFFFFFFF, 0, 0, .any, false, true⟩] -- PTM_FAILS (R303)

/-- Registers of `TIME`. -/
def rowsTIME : List RegRow := rowsTIME_0 ++ rowsTIME_1 ++ rowsTIME_2

/-- Registers of `TSQ`. -/
def rowsTSQ : List RegRow := [
  ⟨0x40, 6, 0x20, 0, 0x8000FFFF, 0, 0, 0, 0, 0, .any, false, false⟩, -- Q_ENTRY0 (R296)
  ⟨0x44, 6, 0x20, 0, 0xFFFFFFFF, 0, 0, 0, 0, 0, .any, false, false⟩, -- Q_ENTRY1 (R296)
  ⟨0x48, 6, 0x20, 0, 0x3FFFFFFF, 0, 0, 0, 0, 0, .any, false, false⟩, -- Q_ENTRY2 (R296)
  ⟨0x4C, 6, 0x20, 0, 0xFFFFFFFF, 0, 0, 0, 0, 0, .any, false, false⟩, -- Q_ENTRY3 (R296)
  ⟨0x50, 6, 0x20, 0, 0xFFFF, 0, 0, 0, 0, 0, .any, false, false⟩, -- Q_ENTRY4 (R296)
  ⟨0x54, 6, 0x20, 0, 0x7F, 0x100, 0, 0, 0, 0, .any, false, false⟩, -- Q_STAT (R296)
  ⟨0x200, 6, 4, 0, 0, 0, 0, 0xFFFFFFFF, 0, 0, .any, false, true⟩] -- TSQ_DROPS (R303)

/-- Registers of `GAUGE`. -/
def rowsGAUGE : List RegRow := [
  ⟨0x40, 1, 4, 0xFF0F, 0, 0, 0, 0, 0, 0xA0F, .pf0fw, false, false⟩, -- CTRL (R317)
  ⟨0x44, 1, 4, 0xFFFFFFFF, 0, 0, 0, 0, 0, 0x350C3264, .pf0fw, false, false⟩, -- MODEL (R317)
  ⟨0x48, 1, 4, 0xFFFFFFFF, 0, 0, 0, 0, 0, 0xB6E423F0, .pf0fw, false, false⟩, -- FIBRE (R317)
  ⟨0x4C, 1, 4, 0xFFFF, 0, 0, 0, 0, 0, 0x280A, .pf0fw, false, false⟩, -- TOL (R317)
  ⟨0x50, 1, 4, 0xFFFFFFFF, 0, 0, 0, 0, 0, 0x140F00CD, .pf0fw, false, false⟩, -- ACCEPT (R317)
  ⟨0x54, 1, 4, 0x8000FFFF, 0, 0, 0, 0, 0, 0, .pf0fw, false, false⟩, -- CHIRP_CFG (R317)
  ⟨0x58, 1, 4, 0xFFFFFFFF, 0, 0, 0, 0, 0, 0x33B832C8, .pf0fw, false, false⟩, -- L0_RANGE (R317)
  ⟨0x5C, 1, 4, 0xFFFF, 0, 0, 0, 0, 0, 0x12C, .pf0fw, false, false⟩, -- STALE (R317)
  ⟨0x80, 1, 4, 0, 0xFFFF3F7F, 0, 0, 0, 0, 0, .any, false, false⟩, -- STAT (R313)
  ⟨0x84, 1, 4, 0, 0xFFFFFFFF, 0, 0, 0, 0, 0, .any, false, false⟩, -- ASYM (R313)
  ⟨0x88, 1, 4, 0, 0xFFFFFFFF, 0, 0, 0, 0, 0, .any, false, false⟩, -- CONF (R313)
  ⟨0x8C, 1, 4, 0, 0xFFFFFFFF, 0, 0, 0, 0, 0, .any, false, false⟩, -- LAST_ASYM (R313)
  ⟨0x90, 1, 4, 0, 0xFFFFFFFF, 0, 0, 0, 0, 0, .any, false, false⟩, -- DL (R313)
  ⟨0x94, 1, 4, 0, 0xFFFFFFFF, 0, 0, 0, 0, 0, .any, false, false⟩, -- LENGTH (R313)
  ⟨0x98, 1, 4, 0, 0xFFFFFFFF, 0, 0, 0, 0, 0, .any, false, false⟩, -- LAMBDA0 (R313)
  ⟨0x9C, 1, 4, 0, 0xFFFF, 0, 0, 0, 0, 0, .any, false, false⟩, -- ALPHA (R307)
  ⟨0xA0, 4, 4, 0, 0xFFFFFFFF, 0, 0, 0, 0, 0, .any, false, false⟩, -- NULL (R306)
  ⟨0x100, 1, 4, 0, 0, 0, 0, 0xFFFFFFFF, 0, 0, .any, false, true⟩, -- FITS (R318)
  ⟨0x104, 1, 4, 0, 0, 0, 0, 0xFFFFFFFF, 0, 0, .any, false, true⟩, -- ACCEPTED (R318)
  ⟨0x108, 1, 4, 0, 0, 0, 0, 0xFFFFFFFF, 0, 0, .any, false, true⟩, -- REJECTED (R318)
  ⟨0x10C, 1, 4, 0, 0, 0, 0, 0xFFFFFFFF, 0, 0, .any, false, true⟩, -- HELD (R318)
  ⟨0x110, 1, 4, 0, 0, 0, 0, 0xFFFFFFFF, 0, 0, .any, false, true⟩] -- EXPIRED (R318)

/-- Registers of `LINE`, part 0. -/
def rowsLINE_0 : List RegRow := [
  ⟨0x40, 1, 4, 0xFF1F9F, 0, 0, 0, 0, 0, 0x430C80, .any, false, false⟩, -- RX_CTRL (R126)
  ⟨0x44, 1, 4, 0, 0x1F0007, 0, 0, 0, 0, 0, .any, false, false⟩, -- RX_STAT (R128)
  ⟨0x48, 1, 4, 0, 0xFFFF, 0, 0, 0, 0, 0, .any, false, false⟩, -- RX_FREQ (R128)
  ⟨0x4C, 1, 4, 0, 0xFF, 0, 0, 0, 0, 0xFF, .any, false, false⟩, -- RX_POWER (R127)
  ⟨0x50, 1, 4, 0x800F00FF, 0, 0, 0, 0, 0, 0x4D, .any, false, false⟩, -- EQ_CAP (R150)
  ⟨0x60, 1, 4, 0x1F07FC, 0, 0, 0, 0, 0, 0x10000, .any, false, false⟩, -- LOAD_SEL (R141)
  ⟨0x64, 1, 4, 0xFFFFFFFF, 0, 0, 0, 0, 0, 0, .fw, false, false⟩, -- LOAD_DATA (R141)
  ⟨0x1040, 1, 4, 0xF, 0x1F00, 0, 0, 0, 0, 0x308, .any, false, false⟩, -- TX_CTRL (R154)
  ⟨0x1044, 1, 4, 0xFFFFFFF, 0, 0, 0, 0, 0, 0x400002, .any, false, false⟩, -- TX_ENV (R152)
  ⟨0x1048, 1, 4, 0, 0xFFFFFFFF, 0, 0, 0, 0, 0, .any, false, false⟩, -- TX_LAT (R153)
  ⟨0x104C, 1, 4, 0xF, 0, 0, 0, 0, 0, 0, .any, false, false⟩, -- DPD_SEL (R148)
  ⟨0x1100, 1, 4, 0xFFFFFFFF, 0, 0, 0, 0, 0, 0x2000, .fw, false, false⟩, -- DPD_COEF00 (R148)
  ⟨0x1104, 14, 4, 0xFFFFFFFF, 0, 0, 0, 0, 0, 0, .fw, false, false⟩, -- DPD_COEFN00 (R148)
  ⟨0x1140, 1, 4, 0xFFFFFFFF, 0, 0, 0, 0, 0, 0x2000, .fw, false, false⟩, -- DPD_COEF01 (R148)
  ⟨0x1144, 14, 4, 0xFFFFFFFF, 0, 0, 0, 0, 0, 0, .fw, false, false⟩, -- DPD_COEFN01 (R148)
  ⟨0x1180, 1, 4, 0xFFFFFFFF, 0, 0, 0, 0, 0, 0x2000, .fw, false, false⟩, -- DPD_COEF02 (R148)
  ⟨0x1184, 14, 4, 0xFFFFFFFF, 0, 0, 0, 0, 0, 0, .fw, false, false⟩, -- DPD_COEFN02 (R148)
  ⟨0x11C0, 1, 4, 0xFFFFFFFF, 0, 0, 0, 0, 0, 0x2000, .fw, false, false⟩, -- DPD_COEF03 (R148)
  ⟨0x11C4, 14, 4, 0xFFFFFFFF, 0, 0, 0, 0, 0, 0, .fw, false, false⟩, -- DPD_COEFN03 (R148)
  ⟨0x1200, 1, 4, 0xFFFFFFFF, 0, 0, 0, 0, 0, 0x2000, .fw, false, false⟩, -- DPD_COEF10 (R148)
  ⟨0x1204, 14, 4, 0xFFFFFFFF, 0, 0, 0, 0, 0, 0, .fw, false, false⟩, -- DPD_COEFN10 (R148)
  ⟨0x1240, 1, 4, 0xFFFFFFFF, 0, 0, 0, 0, 0, 0x2000, .fw, false, false⟩, -- DPD_COEF11 (R148)
  ⟨0x1244, 14, 4, 0xFFFFFFFF, 0, 0, 0, 0, 0, 0, .fw, false, false⟩, -- DPD_COEFN11 (R148)
  ⟨0x1280, 1, 4, 0xFFFFFFFF, 0, 0, 0, 0, 0, 0x2000, .fw, false, false⟩] -- DPD_COEF12 (R148)

/-- Registers of `LINE`, part 1. -/
def rowsLINE_1 : List RegRow := [
  ⟨0x1284, 14, 4, 0xFFFFFFFF, 0, 0, 0, 0, 0, 0, .fw, false, false⟩, -- DPD_COEFN12 (R148)
  ⟨0x12C0, 1, 4, 0xFFFFFFFF, 0, 0, 0, 0, 0, 0x2000, .fw, false, false⟩, -- DPD_COEF13 (R148)
  ⟨0x12C4, 14, 4, 0xFFFFFFFF, 0, 0, 0, 0, 0, 0, .fw, false, false⟩, -- DPD_COEFN13 (R148)
  ⟨0x1400, 1, 4, 0xFFFF, 0, 0, 0, 0, 0, 0x4000, .any, false, false⟩, -- FIR_TAP (R147)
  ⟨0x1404, 63, 4, 0xFFFF, 0, 0, 0, 0, 0, 0, .any, false, false⟩, -- FIR_TAPN (R147)
  ⟨0x2040, 1, 4, 0xFF0FFF, 0, 0, 0, 0, 0, 0x100000, .any, false, false⟩, -- OPT_CTRL (R160)
  ⟨0x2044, 1, 4, 0, 0xFFFFFF3, 0, 0, 0, 0, 1, .any, false, false⟩, -- OPT_STAT (R162)
  ⟨0x2048, 1, 4, 0xFFFF00F8, 2, 0, 0, 0, 0, 0, .any, false, false⟩, -- TXMON_CAP (R151)
  ⟨0x3040, 1, 4, 0, 0, 0, 0, 0xFFFFFFFF, 0, 0, .any, true, true⟩, -- CW_DECODED_LO (R164)
  ⟨0x3044, 1, 4, 0, 0, 0, 0, 0xFFFFFFFF, 0, 0, .any, false, true⟩, -- CW_DECODED_HI (R164)
  ⟨0x3048, 1, 4, 0, 0, 0, 0, 0xFFFFFFFF, 0, 0, .any, true, true⟩, -- ITER_TOTAL_LO (R164)
  ⟨0x304C, 1, 4, 0, 0, 0, 0, 0xFFFFFFFF, 0, 0, .any, false, true⟩, -- ITER_TOTAL_HI (R164)
  ⟨0x3050, 1, 4, 0, 0, 0, 0, 0xFFFFFFFF, 0, 0, .any, true, true⟩, -- BITS_CORRECTED_LO (R164)
  ⟨0x3054, 1, 4, 0, 0, 0, 0, 0xFFFFFFFF, 0, 0, .any, false, true⟩, -- BITS_CORRECTED_HI (R164)
  ⟨0x3058, 1, 4, 0, 0, 0, 0, 0xFFFFFFFF, 0, 0, .any, true, true⟩, -- CODED_BITS_LO (R164)
  ⟨0x305C, 1, 4, 0, 0, 0, 0, 0xFFFFFFFF, 0, 0, .any, false, true⟩, -- CODED_BITS_HI (R164)
  ⟨0x3060, 1, 4, 0, 0, 0, 0, 0xFFFFFFFF, 0, 0, .any, false, true⟩, -- CW_UNCORR (R164)
  ⟨0x3064, 1, 4, 0, 0, 0, 0, 0xFFFFFFFF, 0, 0, .any, false, true⟩, -- CW_CUT (R164)
  ⟨0x3068, 1, 4, 0, 0, 0, 0, 0xFFFFFFFF, 0, 0, .any, false, true⟩, -- ADC_CLIP (R164)
  ⟨0x306C, 1, 4, 0, 0, 0, 0, 0xFFFFFFFF, 0, 0, .any, false, true⟩, -- DAC_CLIP (R164)
  ⟨0x3070, 1, 4, 0, 0, 0, 0, 0xFFFFFFFF, 0, 0, .any, false, true⟩, -- CDR_LOSSES (R164)
  ⟨0x3074, 1, 4, 0, 0, 0, 0, 0xFFFFFFFF, 0, 0, .any, false, true⟩, -- BEN_STUCK (R164)
  ⟨0x3078, 1, 4, 0, 0, 0, 0, 0xFFFFFFFF, 0, 0, .any, false, true⟩] -- OPT_FAULTS (R164)

/-- Registers of `LINE`. -/
def rowsLINE : List RegRow := rowsLINE_0 ++ rowsLINE_1

/-- Registers of `LFR`, part 0. -/
def rowsLFR_0 : List RegRow := [
  ⟨0x40, 1, 4, 0xFF0009, 0, 0, 0, 0, 1, 0x10008, .any, false, false⟩, -- DS_CTRL (R124)
  ⟨0x44, 1, 4, 0, 0xFFFFFB3F, 0, 0, 0, 0, 4, .any, false, false⟩, -- DS_STAT (R118)
  ⟨0x48, 1, 4, 0, 0, 0x3F, 0, 0, 0, 0, .any, false, false⟩, -- DS_DEFECT_LATCH (R118)
  ⟨0x50, 1, 4, 0, 0xFFFFFFFF, 0, 0, 0, 0, 0, .any, true, false⟩, -- FRAME_COUNT_LO (R91)
  ⟨0x54, 1, 4, 0, 0x7FFFF, 0, 0, 0, 0, 0, .any, false, false⟩, -- FRAME_COUNT_HI (R91)
  ⟨0x58, 1, 4, 0, 0xFFFF, 0, 0, 0, 0, 0, .any, false, false⟩, -- TREE (R93)
  ⟨0x5C, 1, 4, 0, 0x1FFFF, 0, 0, 0, 0, 0, .any, false, false⟩, -- SR_RX (R253)
  ⟨0x60, 1, 4, 0, 0xFFFFFFFF, 0, 0, 0, 0, 0, .fw, false, false⟩, -- PROF_GEN0 (R102)
  ⟨0x64, 7, 4, 0x2000FF00, 0x5FFF00FF, 0, 0, 0, 0, 0, .fw, false, false⟩, -- PROF_GEN (R102)
  ⟨0x80, 1, 4, 0xFFFF, 0, 0, 0, 0, 0, 0x850, .any, false, false⟩, -- LOS_CFG (R117)
  ⟨0x84, 1, 4, 0xFFFF, 0, 0, 0, 0, 0, 0x147B, .any, false, false⟩, -- SD_CFG (R117)
  ⟨0x88, 1, 4, 0xFFFFFFFF, 0, 0, 0, 0, 0, 0x4193127, .any, false, false⟩, -- SF_CFG (R117)
  ⟨0x8C, 1, 4, 0x3FFF, 0, 0, 0, 0, 0, 0x3FFF, .any, false, false⟩, -- MAX_LEN (R106)
  ⟨0x90, 1, 4, 0, 0x1FFFF, 0, 0, 0, 0, 0, .any, false, false⟩, -- RXBUF_FILL (R113)
  ⟨0x94, 1, 4, 0, 0, 0, 0, 0x1FFFF, 0, 0, .any, false, false⟩, -- RXBUF_PEAK (R113)
  ⟨0xC0, 8, 4, 0x80000FFF, 0, 0, 0, 0, 0, 0, .fw, false, false⟩, -- ADDR (R107)
  ⟨0x100, 1, 4, 0x70F9, 0, 0, 0, 0, 0, 0x79, .any, false, false⟩, -- US_CTRL (R225)
  ⟨0x104, 1, 4, 0x7FFFFFF, 0, 0, 0, 0, 0, 0, .fw, false, false⟩, -- US_EQD (R200)
  ⟨0x108, 1, 4, 0, 0x7FF, 0, 0, 0, 0, 0, .any, false, false⟩, -- US_STAT (R219)
  ⟨0x110, 4, 4, 0x80000000, 0x1FFF, 0, 0, 0, 0, 0, .fw, false, false⟩, -- US_BPROF (R20)
  ⟨0x140, 64, 4, 0x80003FFF, 0, 0, 0, 0, 0, 0, .fw, false, false⟩, -- ALLOC (R203)
  ⟨0x1050, 8, 0x40, 0, 0, 0, 0, 0xFFFFFFFF, 0, 0, .any, false, true⟩, -- PSTAT_FOREIGN (R125)
  ⟨0x1054, 8, 0x40, 0, 0, 0, 0, 0xFFFFFFFF, 0, 0, .any, false, true⟩, -- PSTAT_FCS_ERR (R125)
  ⟨0x1058, 8, 0x40, 0, 0, 0, 0, 0xFFFFFFFF, 0, 0, .any, false, true⟩] -- PSTAT_ERASED (R125)

/-- Registers of `LFR`, part 1. -/
def rowsLFR_1 : List RegRow := [
  ⟨0x105C, 8, 0x40, 0, 0, 0, 0, 0xFFFFFFFF, 0, 0, .any, false, true⟩, -- PSTAT_FRAG_ERR (R125)
  ⟨0x1060, 8, 0x40, 0, 0, 0, 0, 0xFFFFFFFF, 0, 0, .any, false, true⟩, -- PSTAT_LEN_ERR (R125)
  ⟨0x1064, 8, 0x40, 0, 0, 0, 0, 0xFFFFFFFF, 0, 0, .any, false, true⟩, -- PSTAT_FALSE_LOCK (R125)
  ⟨0x1068, 8, 0x40, 0, 0, 0, 0, 0xFFFFFFFF, 0, 0, .any, false, true⟩, -- PSTAT_HUNTS (R125)
  ⟨0x106C, 8, 0x40, 0, 0, 0, 0, 0xFFFFFFFF, 0, 0, .any, false, true⟩, -- PSTAT_ANCHOR_MISS (R125)
  ⟨0x1070, 8, 0x40, 0, 0, 0, 0, 0xFFFFFFFF, 0, 0, .any, false, true⟩, -- PSTAT_KEY_INVALID (R125)
  ⟨0x1074, 8, 0x40, 0, 0, 0, 0, 0xFFFFFFFF, 0, 0, .any, false, true⟩, -- PSTAT_SEG_MISMATCH (R125)
  ⟨0x1078, 8, 0x40, 0, 0, 0, 0, 0xFFFFFFFF, 0, 0, .any, false, true⟩, -- PSTAT_GEN_MISSING (R125)
  ⟨0x107C, 8, 0x40, 0, 0, 0, 0, 0, 0, 0, .any, false, false⟩, -- PSTAT_RSV (R125)
  ⟨0x1040, 8, 0x40, 0, 0, 0, 0, 0xFFFFFFFF, 0, 0, .any, true, true⟩, -- PSTAT_FRAMES_LO (R125)
  ⟨0x1044, 8, 0x40, 0, 0, 0, 0, 0xFFFFFFFF, 0, 0, .any, false, true⟩, -- PSTAT_FRAMES_HI (R125)
  ⟨0x1048, 8, 0x40, 0, 0, 0, 0, 0xFFFFFFFF, 0, 0, .any, true, true⟩, -- PSTAT_BYTES_LO (R125)
  ⟨0x104C, 8, 0x40, 0, 0, 0, 0, 0xFFFFFFFF, 0, 0, .any, false, true⟩, -- PSTAT_BYTES_HI (R125)
  ⟨0x1240, 1, 4, 0, 0, 0, 0, 0xFFFFFFFF, 0, 0, .any, true, true⟩, -- LINE_FRAMES_LO (R125)
  ⟨0x1244, 1, 4, 0, 0, 0, 0, 0xFFFFFFFF, 0, 0, .any, false, true⟩, -- LINE_FRAMES_HI (R125)
  ⟨0x1248, 1, 4, 0, 0, 0, 0, 0xFFFFFFFF, 0, 0, .any, false, true⟩, -- HDR_LOST (R125)
  ⟨0x124C, 1, 4, 0, 0, 0, 0, 0xFFFFFFFF, 0, 0, .any, false, true⟩, -- HDR_INCONSISTENT (R125)
  ⟨0x1250, 1, 4, 0, 0, 0, 0, 0xFFFFFFFF, 0, 0, .any, false, true⟩, -- RXOVF_FRAMES (R125)
  ⟨0x1254, 1, 4, 0, 0, 0, 0, 0xFFFFFFFF, 0, 0, .any, true, true⟩, -- RXOVF_BYTES_LO (R125)
  ⟨0x1258, 1, 4, 0, 0, 0, 0, 0xFFFFFFFF, 0, 0, .any, false, true⟩, -- RXOVF_BYTES_HI (R125)
  ⟨0x125C, 1, 4, 0, 0, 0, 0, 0xFFFFFFFF, 0, 0, .any, false, true⟩, -- COUNT_JUMP (R125)
  ⟨0x1260, 1, 4, 0, 0, 0, 0, 0xFFFFFFFF, 0, 0, .any, false, true⟩, -- BROADCAST (R125)
  ⟨0x1264, 1, 4, 0, 0, 0, 0, 0xFFFFFFFF, 0, 0, .any, false, true⟩, -- GROUP (R125)
  ⟨0x1268, 1, 4, 0, 0, 0, 0, 0xFFFFFFFF, 0, 0, .any, false, true⟩] -- MGMT_TUNNEL (R125)

/-- Registers of `LFR`, part 2. -/
def rowsLFR_2 : List RegRow := [
  ⟨0x126C, 1, 4, 0, 0, 0, 0, 0xFFFFFFFF, 0, 0, .any, false, true⟩, -- CTRL_ERASED (R125)
  ⟨0x1270, 1, 4, 0, 0, 0, 0, 0xFFFFFFFF, 0, 0, .any, false, true⟩, -- LOF_ENTRIES (R125)
  ⟨0x1300, 1, 4, 0, 0, 0, 0, 0xFFFFFFFF, 0, 0, .any, true, true⟩, -- BURSTS_LO (R226)
  ⟨0x1304, 1, 4, 0, 0, 0, 0, 0xFFFFFFFF, 0, 0, .any, false, true⟩, -- BURSTS_HI (R226)
  ⟨0x1308, 1, 4, 0, 0, 0, 0, 0xFFFFFFFF, 0, 0, .any, true, true⟩, -- PAYLOAD_BYTES_LO (R226)
  ⟨0x130C, 1, 4, 0, 0, 0, 0, 0xFFFFFFFF, 0, 0, .any, false, true⟩, -- PAYLOAD_BYTES_HI (R226)
  ⟨0x1310, 1, 4, 0, 0, 0, 0, 0xFFFFFFFF, 0, 0, .any, true, true⟩, -- FRAMES_LO (R226)
  ⟨0x1314, 1, 4, 0, 0, 0, 0, 0xFFFFFFFF, 0, 0, .any, false, true⟩, -- FRAMES_HI (R226)
  ⟨0x1318, 1, 4, 0, 0, 0, 0, 0xFFFFFFFF, 0, 0, .any, false, true⟩, -- REPORTS (R226)
  ⟨0x131C, 1, 4, 0, 0, 0, 0, 0xFFFFFFFF, 0, 0, .any, false, true⟩, -- MGMT_SENT (R226)
  ⟨0x1320, 1, 4, 0, 0, 0, 0, 0xFFFFFFFF, 0, 0, .any, false, true⟩, -- MGMT_EMPTY (R226)
  ⟨0x1324, 1, 4, 0, 0, 0, 0, 0xFFFFFFFF, 0, 0, .any, false, true⟩, -- FRAGMENTS (R226)
  ⟨0x1328, 1, 4, 0, 0, 0, 0, 0xFFFFFFFF, 0, 0, .any, false, true⟩, -- GRANT_MALFORMED (R226)
  ⟨0x132C, 1, 4, 0, 0, 0, 0, 0xFFFFFFFF, 0, 0, .any, false, true⟩, -- GRANT_NOT_PERMITTED (R226)
  ⟨0x1330, 1, 4, 0, 0, 0, 0, 0xFFFFFFFF, 0, 0, .any, false, true⟩, -- GRANT_SHORT (R226)
  ⟨0x1334, 1, 4, 0, 0, 0, 0, 0xFFFFFFFF, 0, 0, .any, false, true⟩, -- GRANT_LATE (R226)
  ⟨0x1338, 1, 4, 0, 0, 0, 0, 0xFFFFFFFF, 0, 0, .any, false, true⟩, -- GRANT_OVF (R226)
  ⟨0x133C, 1, 4, 0, 0, 0, 0, 0xFFFFFFFF, 0, 0, .any, false, true⟩, -- GRANT_TRUNC (R226)
  ⟨0x1340, 1, 4, 0, 0, 0, 0, 0xFFFFFFFF, 0, 0, .any, false, true⟩, -- GRANT_COLLIDE (R226)
  ⟨0x1344, 1, 4, 0, 0, 0, 0, 0xFFFFFFFF, 0, 0, .any, false, true⟩, -- GMAP_ERR (R226)
  ⟨0x1348, 1, 4, 0, 0, 0, 0, 0xFFFFFFFF, 0, 0, .any, false, true⟩, -- BURST_INHIBITED (R226)
  ⟨0x134C, 1, 4, 0, 0, 0, 0, 0xFFFFFFFF, 0, 0, .any, false, true⟩, -- BURST_CUT (R226)
  ⟨0x1350, 1, 4, 0, 0, 0, 0, 0xFFFFFFFF, 0, 0, .any, false, true⟩, -- TOO_LONG (R226)
  ⟨0x1354, 1, 4, 0, 0, 0, 0, 0xFFFFFFFF, 0, 0, .any, false, true⟩] -- RDI_BURSTS (R226)

/-- Registers of `LFR`, part 3. -/
def rowsLFR_3 : List RegRow := [
  ⟨0x1380, 1, 4, 0, 0, 0, 0, 0xFFFFFFFF, 0, 0, .any, false, true⟩, -- ANNOUNCES (R264)
  ⟨0x1384, 1, 4, 0, 0, 0, 0, 0xFFFFFFFF, 0, 0, .any, false, true⟩, -- REG_ABORT (R264)
  ⟨0x1388, 1, 4, 0, 0, 0, 0, 0xFFFFFFFF, 0, 0, .any, false, true⟩, -- PROVE_FAIL (R264)
  ⟨0x138C, 1, 4, 0, 0, 0, 0, 0xFFFFFFFF, 0, 0, .any, false, true⟩, -- HOLD_ENTRIES (R264)
  ⟨0x1390, 1, 4, 0, 0, 0, 0, 0xFFFFFFFF, 0, 0, .any, false, true⟩, -- HOLD_EXPIRED (R264)
  ⟨0x1394, 1, 4, 0, 0, 0, 0, 0xFFFFFFFF, 0, 0, .any, false, true⟩, -- MGMT_ERR (R264)
  ⟨0x1398, 1, 4, 0, 0, 0, 0, 0xFFFFFFFF, 0, 0, .any, false, true⟩, -- MGMT_NOACK (R264)
  ⟨0x139C, 1, 4, 0, 0, 0, 0, 0xFFFFFFFF, 0, 0, .any, false, true⟩, -- APS_SWITCHES (R264)
  ⟨0x13A0, 1, 4, 0, 0, 0, 0, 0xFFFFFFFF, 0, 0, .any, false, true⟩, -- KEY_EXCHANGES (R264)
  ⟨0x2180, 1, 4, 0, 0xFFF0FFF, 0, 0, 0, 0, 0x7070000, .fw, false, false⟩] -- REG_STAT (R263)

/-- Registers of `LFR`. -/
def rowsLFR : List RegRow := rowsLFR_0 ++ rowsLFR_1 ++ rowsLFR_2 ++ rowsLFR_3

/-- Registers of `NDL`. -/
def rowsNDL : List RegRow := [
  ⟨0x40, 1, 4, 1, 0xC0, 0, 0, 0, 1, 0, .fw, false, false⟩, -- CFG (R175)
  ⟨0x44, 1, 4, 0xFFFFFFFF, 0, 0, 0, 0, 0, 0, .fw, false, false⟩, -- TRIG (R187)
  ⟨0x48, 1, 4, 0, 0, 0, 0, 0, 0, 0, .ndl, false, false⟩, -- KICK (R166)
  ⟨0x4C, 1, 4, 0, 0xFF0007, 0, 0, 0, 0, 0, .any, false, false⟩, -- RUNSTAT (R187)
  ⟨0x50, 1, 4, 0, 0, 0x6F, 0, 0, 0, 0, .ndl, false, false⟩, -- FLAGS (R195)
  ⟨0x54, 1, 4, 0, 0xFFFFFFFF, 0, 0, 0, 0, 0, .any, false, false⟩, -- KERNEL (R191)
  ⟨0x58, 1, 4, 0xFF000000, 0, 0, 0, 0, 0xFF000000, 0, .fw, true, false⟩, -- EXT_BASE_LO (R194)
  ⟨0x5C, 1, 4, 0xFF, 0, 0, 0, 0, 0xFF, 0, .fw, false, false⟩, -- EXT_BASE_HI (R194)
  ⟨0x60, 1, 4, 0xFFFFFFFF, 0, 0, 0, 0, 0, 0x1000000, .fw, false, false⟩, -- MAX_CYCLES (R188)
  ⟨0x80, 16, 4, 0xFFFFFFFF, 0, 0, 0, 0, 0, 0, .ndl, false, false⟩, -- MBOX (R196)
  ⟨0x100, 1, 4, 0, 0, 0, 0, 0xFFFFFFFF, 0, 0, .any, true, true⟩, -- RUNS_LO (R197)
  ⟨0x104, 1, 4, 0, 0, 0, 0, 0xFFFFFFFF, 0, 0, .any, false, true⟩, -- RUNS_HI (R197)
  ⟨0x108, 1, 4, 0, 0, 0, 0, 0xFFFFFFFF, 0, 0, .any, true, true⟩, -- BUSY_CYCLES_LO (R197)
  ⟨0x10C, 1, 4, 0, 0, 0, 0, 0xFFFFFFFF, 0, 0, .any, false, true⟩, -- BUSY_CYCLES_HI (R197)
  ⟨0x110, 1, 4, 0, 0, 0, 0, 0xFFFFFFFF, 0, 0, .any, true, true⟩, -- XFER_PAIRS_LO (R197)
  ⟨0x114, 1, 4, 0, 0, 0, 0, 0xFFFFFFFF, 0, 0, .any, false, true⟩, -- XFER_PAIRS_HI (R197)
  ⟨0x118, 1, 4, 0, 0, 0, 0, 0xFFFFFFFF, 0, 0, .any, false, true⟩, -- TRIG_OVERRUN (R197)
  ⟨0x11C, 1, 4, 0, 0, 0, 0, 0xFFFFFFFF, 0, 0, .any, false, true⟩] -- PIN_BLOCK (R197)

/-- Registers of `CLS`, part 0. -/
def rowsCLS_0 : List RegRow := [
  ⟨0x40, 1, 4, 0x8001FFFF, 0, 0, 0, 0, 0, 0, .pf0fw, false, false⟩, -- EXC_CFG (R339)
  ⟨0x44, 1, 4, 0xFFFFFFFF, 0, 0, 0, 0, 0, 0x10004000, .pf0fw, false, false⟩, -- EXC_RATE (R339)
  ⟨0x48, 1, 4, 0x7F01, 0, 0, 0, 0, 0, 0x1400, .pf0fw, false, false⟩, -- HUSH (R341)
  ⟨0x4C, 1, 4, 0, 0xFFFF0001, 2, 0, 0, 0, 0, .pf0fw, false, false⟩, -- HUSH_STAT (R342)
  ⟨0x50, 1, 4, 0xFE000000, 0, 0, 0, 0, 0, 0, .pf0fw, true, false⟩, -- FT_BASE_LO (R329)
  ⟨0x54, 1, 4, 0xFF, 0, 0, 0, 0, 0, 0, .pf0fw, false, false⟩, -- FT_BASE_HI (R329)
  ⟨0x58, 1, 4, 0xF7FFFF0, 0, 0, 0, 0, 0, 0x6000000, .pf0fw, false, false⟩, -- FT_CMD (R331)
  ⟨0x5C, 1, 4, 0, 0x7FFFF7F1, 0, 0, 0, 0, 0, .any, false, false⟩, -- FT_STAT (R331)
  ⟨0x60, 1, 4, 0xFFFFFFFF, 0, 0, 0, 0, 0, 0xFFFFFFFF, .pf0fw, false, false⟩, -- FT_SEED0 (R329)
  ⟨0x64, 1, 4, 0xFFFFFFFF, 0, 0, 0, 0, 0, 0xFFFFFFFE, .pf0fw, false, false⟩, -- FT_SEED1 (R329)
  ⟨0x68, 1, 4, 0xFFFFFFFF, 0, 0, 0, 0, 0, 0xFFFFFFFD, .pf0fw, false, false⟩, -- FT_SEED2 (R329)
  ⟨0x6C, 1, 4, 0xFFFFFFFF, 0, 0, 0, 0, 0, 0xFFFFFFFC, .pf0fw, false, false⟩, -- FT_SEED3 (R329)
  ⟨0x70, 1, 4, 0, 0xFFFFF, 0, 0, 0, 0, 0, .any, false, false⟩, -- FT_COUNT (R332)
  ⟨0x80, 8, 4, 0x11FFFFF, 0, 0, 0, 0, 0, 2, .pf0fw, false, false⟩, -- ING (R325)
  ⟨0xA0, 1, 4, 0x1FF01FF, 0, 0, 0, 0, 0, 0, .pf0fw, false, false⟩, -- RSS_SEL (R337)
  ⟨0xA4, 1, 4, 0xFFFFFFFF, 0, 0, 0, 0, 0, 0, .pf0fw, false, false⟩, -- RSS_DATA (R337)
  ⟨0xB0, 1, 4, 0, 0, 0, 0, 0, 0, 0, .pf0fw, false, false⟩, -- RULE_CMD (R334)
  ⟨0xB4, 1, 4, 0, 1, 0, 0, 0, 0, 0, .any, false, false⟩, -- RULE_STAT (R334)
  ⟨0x100, 16, 4, 0xFFFFFFFF, 0, 0, 0, 0, 0, 0, .pf0fw, false, false⟩, -- FT_ENTRY (R331)
  ⟨0x200, 44, 4, 0xFFFFFFFF, 0, 0, 0, 0, 0, 0, .pf0fw, false, false⟩, -- RULE_STAGE (R334)
  ⟨0x1040, 8, 8, 0, 0, 0, 0, 0xFFFFFFFF, 0, 0, .any, true, true⟩, -- FRAMES_LO (R344)
  ⟨0x1044, 8, 8, 0, 0, 0, 0, 0xFFFFFFFF, 0, 0, .any, false, true⟩, -- FRAMES_HI (R344)
  ⟨0x1080, 1, 4, 0, 0, 0, 0, 0xFFFFFFFF, 0, 0, .any, true, true⟩, -- FT_HITS_LO (R344)
  ⟨0x1084, 1, 4, 0, 0, 0, 0, 0xFFFFFFFF, 0, 0, .any, false, true⟩] -- FT_HITS_HI (R344)

/-- Registers of `CLS`, part 1. -/
def rowsCLS_1 : List RegRow := [
  ⟨0x1088, 1, 4, 0, 0, 0, 0, 0xFFFFFFFF, 0, 0, .any, true, true⟩, -- CACHE_MISSES_LO (R344)
  ⟨0x108C, 1, 4, 0, 0, 0, 0, 0xFFFFFFFF, 0, 0, .any, false, true⟩, -- CACHE_MISSES_HI (R344)
  ⟨0x1090, 1, 4, 0, 0, 0, 0, 0xFFFFFFFF, 0, 0, .any, true, true⟩, -- RULE_HITS_LO (R344)
  ⟨0x1094, 1, 4, 0, 0, 0, 0, 0xFFFFFFFF, 0, 0, .any, false, true⟩, -- RULE_HITS_HI (R344)
  ⟨0x1098, 1, 4, 0, 0, 0, 0, 0xFFFFFFFF, 0, 0, .any, true, true⟩, -- DEFAULTS_LO (R344)
  ⟨0x109C, 1, 4, 0, 0, 0, 0, 0xFFFFFFFF, 0, 0, .any, false, true⟩, -- DEFAULTS_HI (R344)
  ⟨0x10A0, 1, 4, 0, 0, 0, 0, 0xFFFFFFFF, 0, 0, .any, false, true⟩, -- PARSE_DEEP (R344)
  ⟨0x10A4, 1, 4, 0, 0, 0, 0, 0xFFFFFFFF, 0, 0, .any, false, true⟩, -- LEN_CONFLICT (R344)
  ⟨0x10A8, 1, 4, 0, 0, 0, 0, 0xFFFFFFFF, 0, 0, .any, false, true⟩, -- EXC_ACTION (R344)
  ⟨0x10AC, 1, 4, 0, 0, 0, 0, 0xFFFFFFFF, 0, 0, .any, false, true⟩, -- RSS_INVALID (R344)
  ⟨0x10B0, 1, 4, 0, 0, 0, 0, 0xFFFFFFFF, 0, 0, .any, false, true⟩, -- EXC_SENT (R344)
  ⟨0x10B4, 1, 4, 0, 0, 0, 0, 0xFFFFFFFF, 0, 0, .any, false, true⟩, -- EXC_DROP (R344)
  ⟨0x10B8, 1, 4, 0, 0, 0, 0, 0xFFFFFFFF, 0, 0, .any, false, true⟩, -- ACTION_DROP (R344)
  ⟨0x10BC, 1, 4, 0, 0, 0, 0, 0xFFFFFFFF, 0, 0, .any, false, true⟩, -- ACTION_ERR (R344)
  ⟨0x10C0, 1, 4, 0, 0, 0, 0, 0xFFFFFFFF, 0, 0, .any, false, true⟩, -- CLS_OVF (R344)
  ⟨0x10C4, 1, 4, 0, 0, 0, 0, 0xFFFFFFFF, 0, 0, .any, false, true⟩, -- HUSH_DROP (R344)
  ⟨0x10C8, 1, 4, 0, 0, 0, 0, 0xFFFFFFFF, 0, 0, .any, false, true⟩, -- HUSHES (R344)
  ⟨0x10CC, 1, 4, 0, 0, 0, 0, 0xFFFFFFFF, 0, 0, .any, false, true⟩, -- HUSH_EXPIRED (R344)
  ⟨0x10D0, 1, 4, 0, 0, 0, 0, 0xFFFFFFFF, 0, 0, .any, false, true⟩] -- FT_FULL (R344)

/-- Registers of `CLS`. -/
def rowsCLS : List RegRow := rowsCLS_0 ++ rowsCLS_1

/-- Registers of `SCHED`. -/
def rowsSCHED : List RegRow := [
  ⟨0x40, 1, 4, 0x7FFFF, 0, 0, 0, 0, 0, 0, .pf0fw, false, false⟩, -- NODE_SEL (R351)
  ⟨0x44, 1, 4, 0x10, 0xF00, 0, 0, 0, 0, 0, .pf0fw, false, false⟩, -- NODE_CMD (R353)
  ⟨0x60, 8, 4, 0xFFFFFFFF, 0, 0, 0, 0, 0, 0, .pf0fw, false, false⟩, -- NODE_DATA (R353)
  ⟨0x1040, 1, 4, 0, 0, 0, 0, 0xFFFFFFFF, 0, 0, .any, true, true⟩, -- ENQ_FRAMES_LO (R374)
  ⟨0x1044, 1, 4, 0, 0, 0, 0, 0xFFFFFFFF, 0, 0, .any, false, true⟩, -- ENQ_FRAMES_HI (R374)
  ⟨0x1048, 1, 4, 0, 0, 0, 0, 0xFFFFFFFF, 0, 0, .any, true, true⟩, -- ENQ_BYTES_LO (R374)
  ⟨0x104C, 1, 4, 0, 0, 0, 0, 0xFFFFFFFF, 0, 0, .any, false, true⟩, -- ENQ_BYTES_HI (R374)
  ⟨0x1050, 1, 4, 0, 0, 0, 0, 0xFFFFFFFF, 0, 0, .any, false, true⟩, -- TAIL_DROP (R374)
  ⟨0x1054, 1, 4, 0, 0, 0, 0, 0xFFFFFFFF, 0, 0, .any, false, true⟩, -- YELLOW_DROP (R374)
  ⟨0x1058, 1, 4, 0, 0, 0, 0, 0xFFFFFFFF, 0, 0, .any, false, true⟩] -- STALL_DROP (R374)

/-- Registers of `METER`. -/
def rowsMETER : List RegRow := [
  ⟨0x40, 1, 4, 0x7FFFF, 0, 0, 0, 0, 0, 0, .pf0fw, false, false⟩, -- POL_SEL (R357)
  ⟨0x44, 1, 4, 0x10, 0xF00, 0, 0, 0, 0, 0, .pf0fw, false, false⟩, -- POL_CMD (R353)
  ⟨0x60, 8, 4, 0xFFFFFFFF, 0, 0, 0, 0, 0, 0, .pf0fw, false, false⟩, -- POL_DATA (R353)
  ⟨0x100, 1, 4, 0, 0, 0, 0, 0xFFFFFFFF, 0, 0, .any, false, true⟩, -- GREEN (R374)
  ⟨0x104, 1, 4, 0, 0, 0, 0, 0xFFFFFFFF, 0, 0, .any, false, true⟩, -- YELLOW (R374)
  ⟨0x108, 1, 4, 0, 0, 0, 0, 0xFFFFFFFF, 0, 0, .any, false, true⟩, -- RED (R374)
  ⟨0x10C, 1, 4, 0, 0, 0, 0, 0xFFFFFFFF, 0, 0, .any, false, true⟩] -- RED_DROP (R374)

/-- Registers of `PATTERN`. -/
def rowsPATTERN : List RegRow := [
  ⟨0x40, 1, 4, 0xFF, 0, 0, 0, 0, 0, 0, .pf0fw, false, false⟩, -- SEL (R371)
  ⟨0x44, 1, 4, 0x3FFFFFFF, 0, 0, 0, 0, 0, 0, .pf0fw, false, false⟩, -- BASE_NS (R371)
  ⟨0x48, 1, 4, 0xFFFFFFFF, 0, 0, 0, 0, 0, 0, .pf0fw, true, false⟩, -- BASE_SEC_LO (R371)
  ⟨0x4C, 1, 4, 0xFFFF, 0, 0, 0, 0, 0, 0, .pf0fw, false, false⟩, -- BASE_SEC_HI (R371)
  ⟨0x50, 1, 4, 0x3FFFFFFF, 0, 0, 0, 0, 0, 0, .pf0fw, false, false⟩, -- CYCLE_NS (R371)
  ⟨0x54, 1, 4, 0x7FF, 0, 0, 0, 0, 0, 0, .pf0fw, false, false⟩, -- LENGTH (R371)
  ⟨0x58, 1, 4, 0, 0, 0, 0, 0, 0, 0, .pf0fw, false, false⟩, -- CMD (R371)
  ⟨0x5C, 1, 4, 0, 0xFFFFFF0F, 0, 0, 0, 0, 0, .any, false, false⟩, -- STAT (R372)
  ⟨0x60, 1, 4, 0x3FF, 0, 0, 0, 0, 0, 0, .pf0fw, false, false⟩, -- ENT_INDEX (R368)
  ⟨0x68, 2, 4, 0xFFFFFFFF, 0, 0, 0, 0, 0, 0, .pf0fw, false, false⟩, -- ENT_DATA (R368)
  ⟨0x100, 1, 4, 0, 0, 0, 0, 0xFFFFFFFF, 0, 0, .any, false, true⟩, -- LATE_STARTS (R374)
  ⟨0x104, 1, 4, 0, 0, 0, 0, 0xFFFFFFFF, 0, 0, .any, false, true⟩] -- PATTERN_ERRORS (R374)

/-- Registers of `DEADLINE`. -/
def rowsDEADLINE : List RegRow := [
  ⟨0x40, 1, 4, 0xFF, 0, 0, 0, 0, 0, 0x20, .pf0fw, false, false⟩, -- CFG (R361)
  ⟨0x44, 1, 4, 0xFFFFFFFF, 0, 0, 0, 0, 0, 0, .pf0fw, false, false⟩, -- HOST_RATE (R361)
  ⟨0x48, 1, 4, 0xFFFF, 0, 0, 0, 0, 0, 0xA, .pf0fw, false, false⟩, -- HOST_GAP_US (R361)
  ⟨0x80, 8, 8, 0xC0FFFFFF, 0, 0, 0, 0, 0, 0x14, .pf0fw, false, false⟩, -- CLASS (R367)
  ⟨0x84, 8, 8, 0x1FFFF, 0, 0, 0, 0, 0, 0x3E8, .pf0fw, false, false⟩, -- CLASS_BOUND (R367)
  ⟨0xC0, 1, 4, 0x7FF, 0, 0, 0, 0, 0, 0, .pf0fw, false, false⟩, -- BL_SEL (R361)
  ⟨0xC4, 2, 4, 0, 0xFFFFFFFF, 0, 0, 0, 0, 0, .any, false, false⟩, -- BL_READ (R361)
  ⟨0xE0, 8, 4, 0, 0xFFFFFFFF, 0, 0, 0, 0, 0, .any, false, false⟩, -- CLASS_BL (R361)
  ⟨0x100, 8, 0x10, 0, 0, 0, 0, 0xFFFFFFFF, 0, 0, .any, false, true⟩, -- ADMITTED (R374)
  ⟨0x104, 8, 0x10, 0, 0, 0, 0, 0xFFFFFFFF, 0, 0, .any, false, true⟩, -- NOT_ADMITTED (R374)
  ⟨0x108, 8, 0x10, 0, 0, 0, 0, 0xFFFFFFFF, 0, 0, .any, false, true⟩, -- LATE (R374)
  ⟨0x10C, 8, 0x10, 0, 0, 0, 0, 0xFFFFFFFF, 0, 0, .any, false, true⟩, -- LATE_DROP (R374)
  ⟨0x180, 1, 4, 0, 0, 0, 0, 0xFFFFFFFF, 0, 0, .any, false, true⟩] -- DL_IGNORED (R374)

/-- Registers of `SKEIN`, part 0. -/
def rowsSKEIN_0 : List RegRow := [
  ⟨0x40, 16, 0x20, 0xC70003FF, 0, 0, 0, 0, 0, 0, .pf0fw, false, false⟩, -- POOL_CTRL (R378)
  ⟨0x44, 16, 0x20, 0x1FFFFFF, 0, 0, 0, 0, 0, 0, .pf0fw, false, false⟩, -- POOL_COUNT (R378)
  ⟨0x48, 16, 0x20, 0xFFFFF000, 0, 0, 0, 0, 0, 0, .pf0fw, true, false⟩, -- POOL_BASE_LO (R378)
  ⟨0x4C, 16, 0x20, 0xFF, 0, 0, 0, 0, 0, 0, .pf0fw, false, false⟩, -- POOL_BASE_HI (R378)
  ⟨0x50, 16, 0x20, 0, 0x1FFFFFF, 0, 0, 0, 0, 0, .pf0fw, false, false⟩, -- POOL_FREE (R378)
  ⟨0x54, 16, 0x20, 0, 0, 0, 0, 0x1FFFFFF, 0, 0, .pf0fw, false, false⟩, -- POOL_MIN_FREE (R378)
  ⟨0x58, 16, 0x20, 0, 0, 0, 0, 0, 0, 0, .pf0fw, false, false⟩, -- POOL_RSV0 (R378)
  ⟨0x5C, 16, 0x20, 0, 0, 0, 0, 0, 0, 0, .pf0fw, false, false⟩, -- POOL_RSV1 (R378)
  ⟨0x240, 5, 4, 0xFFFFFFFF, 0, 0, 0, 0, 0, 0, .pf0fw, false, false⟩, -- PROD (R386)
  ⟨0x260, 8, 4, 0xFFFFFFFF, 0, 0, 0, 0, 0, 0xFFFFFFFF, .pf0fw, false, false⟩, -- HOST_OWNER (R392)
  ⟨0x280, 1, 4, 0xF, 0, 0, 0, 0, 0, 0, .any, false, false⟩, -- ALLOC_SEL (R393)
  ⟨0x284, 1, 4, 0, 0xFFFFFFFF, 0, 0, 0, 0, 0, .any, false, false⟩, -- ALLOC_LO (R393)
  ⟨0x288, 1, 4, 0, 0xF000000F, 0, 0, 0, 0, 0, .any, false, false⟩, -- ALLOC_HI (R393)
  ⟨0x28C, 1, 4, 0xFFFFFFFF, 0, 0, 0, 0, 0, 0, .any, true, false⟩, -- FREE_LO (R393)
  ⟨0x290, 1, 4, 0xF, 0, 0, 0, 0, 0, 0, .any, false, false⟩, -- FREE_HI (R393)
  ⟨0x294, 1, 4, 0, 0xF, 0, 0, 0, 0, 0, .any, false, false⟩, -- FREE_RSP (R393)
  ⟨0x2A0, 1, 4, 0, 0xF13F3F0F, 0, 0, 0, 0, 0, .any, false, false⟩, -- VIOL_INFO (R388)
  ⟨0x2A4, 1, 4, 0, 0xFFFFFFFF, 0, 0, 0, 0, 0, .any, false, false⟩, -- VIOL_INDEX (R388)
  ⟨0x300, 1, 4, 0, 0, 0, 0, 0xFFFFFFFF, 0, 0, .any, false, true⟩, -- FREE_OF_FREE (R407)
  ⟨0x304, 1, 4, 0, 0, 0, 0, 0xFFFFFFFF, 0, 0, .any, false, true⟩, -- FREE_NOT_OWNER (R407)
  ⟨0x308, 1, 4, 0, 0, 0, 0, 0xFFFFFFFF, 0, 0, .any, false, true⟩, -- STALE_HANDLE (R407)
  ⟨0x30C, 1, 4, 0, 0, 0, 0, 0xFFFFFFFF, 0, 0, .any, false, true⟩, -- BAD_HANDLE (R407)
  ⟨0x310, 1, 4, 0, 0, 0, 0, 0xFFFFFFFF, 0, 0, .any, true, true⟩, -- SPILL_BYTES_LO (R407)
  ⟨0x314, 1, 4, 0, 0, 0, 0, 0xFFFFFFFF, 0, 0, .any, false, true⟩] -- SPILL_BYTES_HI (R407)

/-- Registers of `SKEIN`, part 1. -/
def rowsSKEIN_1 : List RegRow := [
  ⟨0x318, 1, 4, 0, 0, 0, 0, 0xFFFFFFFF, 0, 0, .any, false, true⟩, -- SPILL_REFUSED (R407)
  ⟨0x340, 16, 4, 0, 0, 0, 0, 0xFFFFFFFF, 0, 0, .any, false, true⟩] -- EMPTY (R407)

/-- Registers of `SKEIN`. -/
def rowsSKEIN : List RegRow := rowsSKEIN_0 ++ rowsSKEIN_1

/-- Registers of `MEM`. -/
def rowsMEM : List RegRow := [
  ⟨0x40, 1, 4, 1, 0, 0, 0, 0, 0, 1, .pf0fw, false, false⟩, -- ECC_CTRL (R396)
  ⟨0x44, 1, 4, 0x8000FFFF, 0, 0, 0, 0, 0, 0x80000018, .pf0fw, false, false⟩, -- SCRUB (R400)
  ⟨0x48, 1, 4, 0xFFFF, 0, 0, 0, 0, 0, 0x3E8, .pf0fw, false, false⟩, -- SRAM_SCRUB (R400)
  ⟨0x4C, 1, 4, 0, 0x1FFFFFF, 0, 0, 0, 0, 0, .any, false, false⟩, -- SCRUB_POS (R400)
  ⟨0x50, 1, 4, 0, 0xFFFFFFFF, 0, 0, 0, 0, 0, .any, true, false⟩, -- ERR_ADDR_LO (R396)
  ⟨0x54, 1, 4, 0, 0xFF, 0, 0, 0, 0, 0, .any, false, false⟩, -- ERR_ADDR_HI (R396)
  ⟨0x58, 1, 4, 0, 0xFF0F0000, 0, 0, 0, 0, 0, .any, false, false⟩, -- ERR_INFO (R396)
  ⟨0x60, 1, 4, 0, 0xFFFFFFFF, 0, 0, 0, 0, 0, .any, false, false⟩, -- SRAM_ERR (R401)
  ⟨0x1040, 16, 4, 0, 0, 0, 0, 0xFFFFFFFF, 0, 0, .any, false, true⟩, -- CE (R407)
  ⟨0x1080, 16, 4, 0, 0, 0, 0, 0xFFFFFFFF, 0, 0, .any, false, true⟩, -- UE (R407)
  ⟨0x10C0, 1, 4, 0, 0, 0, 0, 0xFFFFFFFF, 0, 0, .any, false, true⟩, -- POISON_READ (R407)
  ⟨0x10C4, 1, 4, 0, 0, 0, 0, 0xFFFFFFFF, 0, 0, .any, false, true⟩, -- PARTIAL_POISON (R407)
  ⟨0x10C8, 1, 4, 0, 0, 0, 0, 0xFFFFFFFF, 0, 0, .any, false, true⟩, -- POISON_FRAMES (R407)
  ⟨0x10CC, 1, 4, 0, 0, 0, 0, 0xFFFFFFFF, 0, 0, .any, false, true⟩, -- SCRUB_PASSES (R407)
  ⟨0x10D0, 1, 4, 0, 0, 0, 0, 0xFFFFFFFF, 0, 0, .any, false, true⟩, -- SRAM_CE (R407)
  ⟨0x10D4, 1, 4, 0, 0, 0, 0, 0xFFFFFFFF, 0, 0, .any, false, true⟩] -- SRAM_UE (R407)

/-- Registers of `DARN`. -/
def rowsDARN : List RegRow := [
  ⟨0x40, 1, 4, 0x8000FFFF, 0, 0, 0, 0, 0, 0x80000008, .pf0fw, false, false⟩, -- CTRL (R404)
  ⟨0x44, 1, 4, 0, 0, 0, 0, 0, 0, 0, .pf0fw, false, false⟩, -- CMD (R402)
  ⟨0x48, 1, 4, 0, 0x8F001FFF, 0, 0, 0, 0, 0, .any, false, false⟩, -- STAT (R402)
  ⟨0x4C, 1, 4, 0, 0xFFF0000, 0, 0, 0, 0, 0, .any, false, false⟩, -- LAST (R402)
  ⟨0x50, 1, 4, 0, 0x1FFFFFF, 0, 0, 0, 0, 0, .any, false, false⟩, -- DARN_ROW (R402)
  ⟨0x100, 1, 4, 0, 0, 0, 0, 0xFFFFFFFF, 0, 0, .any, false, true⟩, -- DARNED (R407)
  ⟨0x104, 1, 4, 0, 0, 0, 0, 0xFFFFFFFF, 0, 0, .any, false, true⟩, -- AUTO_DARNED (R407)
  ⟨0x108, 1, 4, 0, 0, 0, 0, 0xFFFFFFFF, 0, 0, .any, false, true⟩] -- DARN_FULL (R407)

/-- Registers of `HQ`, part 0. -/
def rowsHQ_0 : List RegRow := [
  ⟨0x40, 1, 4, 0xFF, 0, 0, 0, 0, 0, 0, .any, false, false⟩, -- FN_SEL (R433)
  ⟨0x44, 1, 4, 0, 0, 0, 0, 0, 0, 0, .any, false, false⟩, -- FN_CTRL (R433)
  ⟨0x48, 1, 4, 0, 0xFF0F, 0, 0, 0, 0, 0, .any, false, false⟩, -- FN_STAT (R433)
  ⟨0x4C, 1, 4, 0x1FFFF, 0, 0, 0, 0, 0, 0, .pf0, false, false⟩, -- FN_QBASE (R416)
  ⟨0x50, 1, 4, 0x3FFFF, 0x80000000, 0, 0, 0, 0, 0, .pf0, false, false⟩, -- FN_QCOUNT (R416)
  ⟨0x54, 1, 4, 0xFF000000, 0, 0, 0, 0, 0, 0, .pf0, true, false⟩, -- FN_WIN_LO (R412)
  ⟨0x58, 1, 4, 0xFF, 0, 0, 0, 0, 0, 0, .pf0, false, false⟩, -- FN_WIN_HI (R412)
  ⟨0x60, 1, 4, 0x1FFFF, 0, 0, 0, 0, 0, 0, .any, false, false⟩, -- EP_SEL (R418)
  ⟨0x64, 1, 4, 0, 0xF00, 0, 0, 0, 0, 0, .any, false, false⟩, -- EP_CMD (R418)
  ⟨0x80, 16, 4, 0xFFFFFFFF, 0, 0, 0, 0, 0, 0, .any, false, false⟩, -- EP_DATA (R417)
  ⟨0x1040, 1, 4, 0, 0, 0, 0, 0xFFFFFFFF, 0, 0, .any, true, true⟩, -- TX_FRAMES_LO (R441)
  ⟨0x1044, 1, 4, 0, 0, 0, 0, 0xFFFFFFFF, 0, 0, .any, false, true⟩, -- TX_FRAMES_HI (R441)
  ⟨0x1048, 1, 4, 0, 0, 0, 0, 0xFFFFFFFF, 0, 0, .any, true, true⟩, -- TX_BYTES_LO (R441)
  ⟨0x104C, 1, 4, 0, 0, 0, 0, 0xFFFFFFFF, 0, 0, .any, false, true⟩, -- TX_BYTES_HI (R441)
  ⟨0x1050, 1, 4, 0, 0, 0, 0, 0xFFFFFFFF, 0, 0, .any, true, true⟩, -- RX_FRAMES_LO (R441)
  ⟨0x1054, 1, 4, 0, 0, 0, 0, 0xFFFFFFFF, 0, 0, .any, false, true⟩, -- RX_FRAMES_HI (R441)
  ⟨0x1058, 1, 4, 0, 0, 0, 0, 0xFFFFFFFF, 0, 0, .any, true, true⟩, -- RX_BYTES_LO (R441)
  ⟨0x105C, 1, 4, 0, 0, 0, 0, 0xFFFFFFFF, 0, 0, .any, false, true⟩, -- RX_BYTES_HI (R441)
  ⟨0x1060, 1, 4, 0, 0, 0, 0, 0xFFFFFFFF, 0, 0, .any, false, true⟩, -- BAD_DESC (R441)
  ⟨0x1064, 1, 4, 0, 0, 0, 0, 0xFFFFFFFF, 0, 0, .any, false, true⟩, -- DMA_ERR (R441)
  ⟨0x1068, 1, 4, 0, 0, 0, 0, 0xFFFFFFFF, 0, 0, .any, false, true⟩, -- DB_ERR (R441)
  ⟨0x106C, 1, 4, 0, 0, 0, 0, 0xFFFFFFFF, 0, 0, .any, false, true⟩, -- DB_DROP (R441)
  ⟨0x1070, 1, 4, 0, 0, 0, 0, 0xFFFFFFFF, 0, 0, .any, false, true⟩, -- CQ_WAITS (R441)
  ⟨0x1074, 1, 4, 0, 0, 0, 0, 0xFFFFFFFF, 0, 0, .any, false, true⟩] -- RX_TOO_LONG (R441)

/-- Registers of `HQ`, part 1. -/
def rowsHQ_1 : List RegRow := [
  ⟨0x1078, 1, 4, 0, 0, 0, 0, 0xFFFFFFFF, 0, 0, .any, false, true⟩, -- IRQ_SENT (R441)
  ⟨0x107C, 1, 4, 0, 0, 0, 0, 0xFFFFFFFF, 0, 0, .any, false, true⟩, -- IRQ_HELD (R441)
  ⟨0x1080, 1, 4, 0, 0, 0, 0, 0xFFFFFFFF, 0, 0, .any, false, true⟩] -- PME_SENT (R441)

/-- Registers of `HQ`. -/
def rowsHQ : List RegRow := rowsHQ_0 ++ rowsHQ_1

/-- Registers of `CIPH`, part 0. -/
def rowsCIPH_0 : List RegRow := [
  ⟨0x40, 1, 4, 0, 0x3CF, 0, 0, 0, 0, 0, .any, false, false⟩, -- LINE_KEYS (R469)
  ⟨0x44, 1, 4, 3, 0, 0, 0, 0, 0, 0, .fw, false, false⟩, -- LINE_POLICY (R466)
  ⟨0x48, 1, 4, 0xFFFF, 0, 0, 0, 0, 0, 0x3E8, .pf0fw, false, false⟩, -- MASK_CFG (R461)
  ⟨0x50, 1, 4, 0, 0x8000FF00, 0, 0, 0, 0, 0, .any, false, false⟩, -- LA_LOCK (R474)
  ⟨0x54, 1, 4, 0, 0x1F1F, 0, 0, 0, 0, 0, .any, false, false⟩, -- LA_STAT (R474)
  ⟨0x58, 1, 4, 0, 0, 0, 0, 0, 0, 0, .any, false, false⟩, -- LA_SUBMIT (R475)
  ⟨0x80, 24, 4, 0xFFFFFFFF, 0, 0, 0, 0, 0, 0, .any, false, false⟩, -- LA_JOB (R475)
  ⟨0x100, 8, 4, 0, 0xFFFFFFFF, 0, 0, 0, 0, 0, .any, false, false⟩, -- LA_RESULT (R479)
  ⟨0x1040, 4, 4, 0x80000033, 0, 0, 0, 0, 0, 0x20, .pf0fw, false, false⟩, -- MSEC_PORT (R470)
  ⟨0x1060, 1, 4, 0x3F3, 0, 0, 0, 0, 0, 0, .pf0fw, false, false⟩, -- MSEC_SEL (R470)
  ⟨0x1064, 1, 4, 0, 0xF00, 0, 0, 0, 0, 0, .pf0fw, false, false⟩, -- MSEC_CMD (R473)
  ⟨0x1080, 20, 4, 0xFFFFFFFF, 0, 0, 0, 0, 0, 0, .pf0fw, false, false⟩, -- MSEC_DATA (R473)
  ⟨0x2040, 2, 0x20, 0, 0, 0, 0, 0xFFFFFFFF, 0, 0, .any, false, true⟩, -- DECRYPTED (R480)
  ⟨0x2044, 2, 0x20, 0, 0, 0, 0, 0xFFFFFFFF, 0, 0, .any, false, true⟩, -- TAG_FAIL (R480)
  ⟨0x2048, 2, 0x20, 0, 0, 0, 0, 0xFFFFFFFF, 0, 0, .any, false, true⟩, -- REPLAY (R480)
  ⟨0x204C, 2, 0x20, 0, 0, 0, 0, 0xFFFFFFFF, 0, 0, .any, false, true⟩, -- NO_KEY (R480)
  ⟨0x2050, 2, 0x20, 0, 0, 0, 0, 0xFFFFFFFF, 0, 0, .any, false, true⟩, -- KEY_NOT_UNICAST (R480)
  ⟨0x2054, 2, 0x20, 0, 0, 0, 0, 0xFFFFFFFF, 0, 0, .any, false, true⟩, -- CLEAR_DROP (R480)
  ⟨0x2058, 2, 0x20, 0, 0, 0, 0, 0xFFFFFFFF, 0, 0, .any, false, true⟩, -- ENCRYPTED (R480)
  ⟨0x205C, 2, 0x20, 0, 0, 0, 0, 0xFFFFFFFF, 0, 0, .any, false, true⟩, -- PN_EXHAUSTED (R480)
  ⟨0x2100, 4, 0x10, 0, 0, 0, 0, 0xFFFFFFFF, 0, 0, .any, false, true⟩, -- MSEC_IN_OK (R480)
  ⟨0x2104, 4, 0x10, 0, 0, 0, 0, 0xFFFFFFFF, 0, 0, .any, false, true⟩, -- MSEC_IN_BAD (R480)
  ⟨0x2108, 4, 0x10, 0, 0, 0, 0, 0xFFFFFFFF, 0, 0, .any, false, true⟩, -- MSEC_OUT (R480)
  ⟨0x210C, 4, 0x10, 0, 0, 0, 0, 0xFFFFFFFF, 0, 0, .any, false, true⟩] -- MSEC_PN_EXHAUSTED (R480)

/-- Registers of `CIPH`, part 1. -/
def rowsCIPH_1 : List RegRow := [
  ⟨0x2140, 1, 4, 0, 0, 0, 0, 0xFFFFFFFF, 0, 0, .any, false, true⟩, -- LA_JOBS (R480)
  ⟨0x2144, 1, 4, 0, 0, 0, 0, 0xFFFFFFFF, 0, 0, .any, false, true⟩, -- LA_FAILED (R480)
  ⟨0x2148, 1, 4, 0, 0, 0, 0, 0xFFFFFFFF, 0, 0, .any, false, true⟩, -- LA_PREEMPT (R480)
  ⟨0x214C, 1, 4, 0, 0, 0, 0, 0xFFFFFFFF, 0, 0, .any, false, true⟩] -- KEY_REFUSED (R480)

/-- Registers of `CIPH`. -/
def rowsCIPH : List RegRow := rowsCIPH_0 ++ rowsCIPH_1

/-- Registers of `SITE`, part 0. -/
def rowsSITE_0 : List RegRow := [
  ⟨0x40, 1, 4, 0x7D, 0, 0, 0, 0, 0x7D, 0, .pf0fw, false, false⟩, -- CTRL (R500)
  ⟨0x44, 1, 4, 0, 0x3B, 0, 0, 0, 0, 0, .any, false, false⟩, -- STAT (R501)
  ⟨0x48, 1, 4, 0x73FFF, 0, 0, 0, 0, 0, 0x405F2, .pf0fw, false, false⟩, -- MAC (R503)
  ⟨0x4C, 1, 4, 0x1FFFF0F, 0, 0, 0, 0, 0, 0, .pf0fw, false, false⟩, -- PTP_CTRL (R506)
  ⟨0x50, 1, 4, 0x8000FFFF, 0, 0, 0, 0, 0, 0x532, .pf0fw, false, false⟩, -- LPI (R509)
  ⟨0x54, 1, 4, 0xFFFFFFFF, 0, 0, 0, 0, 0, 0, .pf0fw, false, false⟩, -- TX_DELAY (R505)
  ⟨0x58, 1, 4, 0xFFFFFFFF, 0, 0, 0, 0, 0, 0, .pf0fw, false, false⟩, -- RX_DELAY (R505)
  ⟨0x5C, 1, 4, 0xFFFFFFFF, 0, 0, 0, 0, 0, 0, .pf0fw, false, false⟩, -- ASYM (R505)
  ⟨0x80, 16, 8, 0xFFFFFFFF, 0, 0, 0, 0, 0, 0, .pf0fw, true, false⟩, -- ADDR_LO (R503)
  ⟨0x84, 16, 8, 0x8000FFFF, 0, 0, 0, 0, 0, 0, .pf0fw, false, false⟩, -- ADDR_HI (R503)
  ⟨0x200, 1, 4, 0, 0, 0, 0, 0xFFFFFFFF, 0, 0, .any, true, true⟩, -- RX_FRAMES_LO (R523)
  ⟨0x204, 1, 4, 0, 0, 0, 0, 0xFFFFFFFF, 0, 0, .any, false, true⟩, -- RX_FRAMES_HI (R523)
  ⟨0x208, 1, 4, 0, 0, 0, 0, 0xFFFFFFFF, 0, 0, .any, true, true⟩, -- RX_BYTES_LO (R523)
  ⟨0x20C, 1, 4, 0, 0, 0, 0, 0xFFFFFFFF, 0, 0, .any, false, true⟩, -- RX_BYTES_HI (R523)
  ⟨0x210, 1, 4, 0, 0, 0, 0, 0xFFFFFFFF, 0, 0, .any, true, true⟩, -- TX_FRAMES_LO (R523)
  ⟨0x214, 1, 4, 0, 0, 0, 0, 0xFFFFFFFF, 0, 0, .any, false, true⟩, -- TX_FRAMES_HI (R523)
  ⟨0x218, 1, 4, 0, 0, 0, 0, 0xFFFFFFFF, 0, 0, .any, true, true⟩, -- TX_BYTES_LO (R523)
  ⟨0x21C, 1, 4, 0, 0, 0, 0, 0xFFFFFFFF, 0, 0, .any, false, true⟩, -- TX_BYTES_HI (R523)
  ⟨0x220, 1, 4, 0, 0, 0, 0, 0xFFFFFFFF, 0, 0, .any, false, true⟩, -- RX_FCS_ERR (R523)
  ⟨0x224, 1, 4, 0, 0, 0, 0, 0xFFFFFFFF, 0, 0, .any, false, true⟩, -- RX_RUNT (R523)
  ⟨0x228, 1, 4, 0, 0, 0, 0, 0xFFFFFFFF, 0, 0, .any, false, true⟩, -- RX_OVERSIZE (R523)
  ⟨0x22C, 1, 4, 0, 0, 0, 0, 0xFFFFFFFF, 0, 0, .any, false, true⟩, -- RX_MACCTL (R523)
  ⟨0x230, 1, 4, 0, 0, 0, 0, 0xFFFFFFFF, 0, 0, .any, false, true⟩, -- RX_FILTERED (R523)
  ⟨0x234, 1, 4, 0, 0, 0, 0, 0xFFFFFFFF, 0, 0, .any, false, true⟩] -- RX_OVF (R523)

/-- Registers of `SITE`, part 1. -/
def rowsSITE_1 : List RegRow := [
  ⟨0x238, 1, 4, 0, 0, 0, 0, 0xFFFFFFFF, 0, 0, .any, false, true⟩, -- TX_OVERSIZE (R523)
  ⟨0x23C, 1, 4, 0, 0, 0, 0, 0xFFFFFFFF, 0, 0, .any, false, true⟩, -- FEC_CORR (R523)
  ⟨0x240, 1, 4, 0, 0, 0, 0, 0xFFFFFFFF, 0, 0, .any, false, true⟩, -- FEC_UNCORR (R523)
  ⟨0x244, 1, 4, 0, 0, 0, 0, 0xFFFFFFFF, 0, 0, .any, false, true⟩, -- LPI_ENTRIES (R523)
  ⟨0x248, 1, 4, 0, 0, 0, 0, 0xFFFFFFFF, 0, 0, .any, false, true⟩] -- LOOP_ERR (R523)

/-- Registers of `SITE`. -/
def rowsSITE : List RegRow := rowsSITE_0 ++ rowsSITE_1

/-- Registers of `PLY`. -/
def rowsPLY : List RegRow := [
  ⟨0x40, 1, 4, 0x1F7, 0, 0, 0, 0, 0x1F7, 0x100, .pf0fw, false, false⟩, -- CTRL (R513)
  ⟨0x44, 1, 4, 0, 0xF17, 0, 0, 0, 0, 0, .any, false, false⟩, -- LINK (R512)
  ⟨0x48, 1, 4, 0xFFFFFFFF, 0, 0, 0, 0, 0, 0, .pf0fw, false, false⟩, -- TRACE (R514)
  ⟨0x4C, 1, 4, 0xC0FFFFFF, 0, 0, 0, 0, 0, 0x30064, .fw, false, false⟩, -- TKO_CTRL (R522)
  ⟨0x50, 1, 4, 0xFFF, 0, 0, 0, 0, 0, 0xF, .fw, false, false⟩, -- TKO_GATE (R522)
  ⟨0x54, 1, 4, 0, 0x77, 0, 0, 0, 0, 0, .any, false, false⟩, -- TKO_STAT (R519)
  ⟨0x80, 16, 4, 0x800000FF, 0, 0, 0, 0, 0, 0, .fw, false, false⟩, -- TKO_EGRESS (R520)
  ⟨0xC0, 1, 4, 0, 0xFFFFFFFF, 0, 0, 0, 0, 0, .any, true, false⟩, -- TWIN_OFFSET_LO (R514)
  ⟨0xC4, 1, 4, 0, 0xFFFFFFFF, 0, 0, 0, 0, 0x80000000, .any, false, false⟩, -- TWIN_OFFSET_HI (R514)
  ⟨0x200, 1, 4, 0, 0, 0, 0, 0xFFFFFFFF, 0, 0, .any, true, true⟩, -- TX_FLITS_LO (R523)
  ⟨0x204, 1, 4, 0, 0, 0, 0, 0xFFFFFFFF, 0, 0, .any, false, true⟩, -- TX_FLITS_HI (R523)
  ⟨0x208, 1, 4, 0, 0, 0, 0, 0xFFFFFFFF, 0, 0, .any, true, true⟩, -- RX_FLITS_LO (R523)
  ⟨0x20C, 1, 4, 0, 0, 0, 0, 0xFFFFFFFF, 0, 0, .any, false, true⟩, -- RX_FLITS_HI (R523)
  ⟨0x210, 1, 4, 0, 0, 0, 0, 0xFFFFFFFF, 0, 0, .any, false, true⟩, -- CW_CORR (R523)
  ⟨0x214, 1, 4, 0, 0, 0, 0, 0xFFFFFFFF, 0, 0, .any, false, true⟩, -- CW_UNCORR (R523)
  ⟨0x218, 1, 4, 0, 0, 0, 0, 0xFFFFFFFF, 0, 0, .any, false, true⟩, -- TRAIN_FAIL (R523)
  ⟨0x21C, 1, 4, 0, 0, 0, 0, 0xFFFFFFFF, 0, 0, .any, false, true⟩, -- LINK_DOWN (R523)
  ⟨0x220, 1, 4, 0, 0, 0, 0, 0xFFFFFFFF, 0, 0, .any, false, true⟩, -- RX_CUT (R523)
  ⟨0x224, 1, 4, 0, 0, 0, 0, 0xFFFFFFFF, 0, 0, .any, false, true⟩, -- LOOP_ERR (R523)
  ⟨0x228, 1, 4, 0, 0, 0, 0, 0xFFFFFFFF, 0, 0, .any, false, true⟩, -- HB_LOST (R523)
  ⟨0x22C, 1, 4, 0, 0, 0, 0, 0xFFFFFFFF, 0, 0, .any, false, true⟩, -- TAKEOVERS (R523)
  ⟨0x230, 1, 4, 0, 0, 0, 0, 0xFFFFFFFF, 0, 0, .any, false, true⟩, -- TKO_PLY_LOST (R523)
  ⟨0x234, 1, 4, 0, 0, 0, 0, 0xFFFFFFFF, 0, 0, .any, false, true⟩, -- TKO_ABORT (R523)
  ⟨0x238, 1, 4, 0, 0, 0, 0, 0xFFFFFFFF, 0, 0, .any, false, true⟩] -- DUAL_SERVE (R523)

namespace DEV
def BOOT_STAT : Fld := ⟨0x100, 0, 32⟩
def BOOT_STAT_FAIL_CODE : Fld := ⟨0x100, 16, 8⟩
def BOOT_STAT_STRAP_DENIED : Fld := ⟨0x100, 12, 1⟩
def BOOT_STAT_TWIN_ID : Fld := ⟨0x100, 11, 1⟩
def BOOT_STAT_BOOT_SRC : Fld := ⟨0x100, 9, 2⟩
def BOOT_STAT_BANK : Fld := ⟨0x100, 8, 1⟩
def BOOT_STAT_TRIAL : Fld := ⟨0x100, 7, 1⟩
def BOOT_STAT_FALLBACK : Fld := ⟨0x100, 6, 1⟩
def BOOT_STAT_STAGE : Fld := ⟨0x100, 0, 3⟩
def RESET_CTRL : Fld := ⟨0x104, 0, 32⟩
def RESET_CTRL_KEY : Fld := ⟨0x104, 16, 16⟩
def RESET_CTRL_DEVICE : Fld := ⟨0x104, 0, 1⟩
def RESET_CAUSE : Fld := ⟨0x108, 0, 32⟩
def RESET_CAUSE_PCIE : Fld := ⟨0x108, 5, 1⟩
def RESET_CAUSE_WATCHDOG : Fld := ⟨0x108, 4, 1⟩
def RESET_CAUSE_SOFTWARE : Fld := ⟨0x108, 3, 1⟩
def RESET_CAUSE_SUPPLY : Fld := ⟨0x108, 2, 1⟩
def RESET_CAUSE_PIN : Fld := ⟨0x108, 1, 1⟩
def RESET_CAUSE_COLD : Fld := ⟨0x108, 0, 1⟩
def FEAT_OFFER (i : Nat) : Fld := ⟨0x140 + 4 * i, 0, 32⟩
def FEAT_ACCEPT (i : Nat) : Fld := ⟨0x150 + 4 * i, 0, 32⟩
def FEAT_COMMIT : Fld := ⟨0x160, 0, 1⟩
def FEAT_STAT : Fld := ⟨0x164, 0, 32⟩
def FEAT_STAT_ERR : Fld := ⟨0x164, 4, 4⟩
def FEAT_STAT_COMMITTED : Fld := ⟨0x164, 0, 1⟩
def FEAT_ACTIVE : Fld := ⟨0x170, 0, 32⟩
def FEAT_ACTIVE_HI (i : Nat) : Fld := ⟨0x174 + 4 * i, 0, 32⟩
end DEV

namespace SEC0
def PROTECT : Fld := ⟨0x40, 0, 32⟩
def PROTECT_BOOT_SRC_ALLOW : Fld := ⟨0x40, 12, 4⟩
def PROTECT_DEBUG : Fld := ⟨0x40, 10, 2⟩
def PROTECT_OWNER_KEYS_LOCKED : Fld := ⟨0x40, 9, 1⟩
def PROTECT_OOB_FULL : Fld := ⟨0x40, 8, 1⟩
def PROTECT_USER_KERNELS : Fld := ⟨0x40, 7, 1⟩
def PROTECT_DEBUG_ACTIVE : Fld := ⟨0x40, 6, 1⟩
def PROTECT_PERSONALITY : Fld := ⟨0x40, 4, 2⟩
def PROTECT_SECURE_BOOT : Fld := ⟨0x40, 0, 1⟩
def RNG_STAT : Fld := ⟨0x44, 0, 32⟩
def RNG_STAT_FAIL_COUNT : Fld := ⟨0x44, 16, 16⟩
def RNG_STAT_MASK_STALE : Fld := ⟨0x44, 3, 1⟩
def RNG_STAT_DRBG_ERROR : Fld := ⟨0x44, 2, 1⟩
def RNG_STAT_SOURCE_FAILED : Fld := ⟨0x44, 1, 1⟩
def RNG_STAT_READY : Fld := ⟨0x44, 0, 1⟩
def ROLLBACK (i : Nat) : Fld := ⟨0x80 + 4 * i, 0, 8⟩
end SEC0

namespace SEC1
def MEAS (i : Nat) : Fld := ⟨0x1040 + 4 * i, 0, 32⟩
end SEC1

namespace PWR
def STATE : Fld := ⟨0x40, 0, 32⟩
def STATE_BUSY : Fld := ⟨0x40, 8, 1⟩
def STATE_TARGET : Fld := ⟨0x40, 4, 3⟩
def STATE_CURRENT : Fld := ⟨0x40, 0, 3⟩
def LAST_ATTEMPT : Fld := ⟨0x44, 0, 32⟩
def LAST_ATTEMPT_RESULT : Fld := ⟨0x44, 28, 4⟩
def LAST_ATTEMPT_REFUSER : Fld := ⟨0x44, 16, 12⟩
def LAST_ATTEMPT_REASON : Fld := ⟨0x44, 8, 8⟩
def LAST_ATTEMPT_TARGET : Fld := ⟨0x44, 0, 3⟩
def POLICY : Fld := ⟨0x48, 0, 32⟩
def POLICY_AUTO_DOZE : Fld := ⟨0x48, 31, 1⟩
def POLICY_DOZE_IDLE_MS : Fld := ⟨0x48, 0, 16⟩
end PWR

namespace HOLD
def SUPPLY : Fld := ⟨0x40, 0, 32⟩
def SUPPLY_MAIN_EN : Fld := ⟨0x40, 4, 1⟩
def SUPPLY_B_LOW : Fld := ⟨0x40, 3, 1⟩
def SUPPLY_B_OK : Fld := ⟨0x40, 2, 1⟩
def SUPPLY_A_OK : Fld := ⟨0x40, 1, 1⟩
def SUPPLY_ON_B : Fld := ⟨0x40, 0, 1⟩
def WAKE_EN : Fld := ⟨0x44, 0, 32⟩
def WAKE_EN_DOORBELL : Fld := ⟨0x44, 3, 1⟩
def WAKE_EN_PERST : Fld := ⟨0x44, 2, 1⟩
def WAKE_EN_PIN : Fld := ⟨0x44, 1, 1⟩
def WAKE_EN_ALARM : Fld := ⟨0x44, 0, 1⟩
def WAKE_LATCH : Fld := ⟨0x48, 1, 7⟩
def ALARM_NS : Fld := ⟨0x50, 0, 30⟩
def ALARM_SEC_LO : Fld := ⟨0x54, 0, 32⟩
def ALARM_SEC_HI : Fld := ⟨0x58, 0, 16⟩
def LEDGER_NEXT : Fld := ⟨0x60, 0, 4⟩
def LEDGER_SEC (i : Nat) : Fld := ⟨0x80 + 0x10 * i, 0, 32⟩
def LEDGER_NS (i : Nat) : Fld := ⟨0x84 + 0x10 * i, 0, 30⟩
def LEDGER_INFO (i : Nat) : Fld := ⟨0x88 + 0x10 * i, 0, 32⟩
def LEDGER_STAY_MS (i : Nat) : Fld := ⟨0x8C + 0x10 * i, 0, 32⟩
def RESID0_LO : Fld := ⟨0x180, 0, 32⟩
def RESID0_HI : Fld := ⟨0x184, 0, 32⟩
def RESID1_LO : Fld := ⟨0x188, 0, 32⟩
def RESID1_HI : Fld := ⟨0x18C, 0, 32⟩
def RESID2_LO : Fld := ⟨0x190, 0, 32⟩
def RESID2_HI : Fld := ⟨0x194, 0, 32⟩
def RESID3_LO : Fld := ⟨0x198, 0, 32⟩
def RESID3_HI : Fld := ⟨0x19C, 0, 32⟩
def RESID4_LO : Fld := ⟨0x1A0, 0, 32⟩
def RESID4_HI : Fld := ⟨0x1A4, 0, 32⟩
def ENTRIES (i : Nat) : Fld := ⟨0x1B0 + 4 * i, 0, 32⟩
def ATTEMPTS_FAILED : Fld := ⟨0x1C4, 0, 32⟩
def IMMEDIATE_WAKES : Fld := ⟨0x1C8, 0, 32⟩
def SUPPLY_SWITCHES : Fld := ⟨0x1CC, 0, 32⟩
def REST_DROP (i : Nat) : Fld := ⟨0x1D0 + 4 * i, 0, 32⟩
end HOLD

namespace MON
def TEMP : Fld := ⟨0x40, 0, 32⟩
def TEMP_PEAK : Fld := ⟨0x40, 16, 16⟩
def TEMP_TJ : Fld := ⟨0x40, 0, 16⟩
def THERM : Fld := ⟨0x44, 0, 32⟩
def THERM_TRIPPED : Fld := ⟨0x44, 31, 1⟩
def THERM_ALERT_C : Fld := ⟨0x44, 8, 8⟩
def RAIL (i : Nat) : Fld := ⟨0x80 + 4 * i, 0, 32⟩
def RAIL_LOW (i : Nat) : Fld := ⟨0x80 + 4 * i, 31, 1⟩
def RAIL_MV (i : Nat) : Fld := ⟨0x80 + 4 * i, 0, 16⟩
end MON

namespace SNAP
def CTRL : Fld := ⟨0x40, 0, 32⟩
def CTRL_MODE : Fld := ⟨0x40, 4, 1⟩
def CTRL_CANCEL : Fld := ⟨0x40, 2, 1⟩
def CTRL_NOW : Fld := ⟨0x40, 1, 1⟩
def CTRL_ARM : Fld := ⟨0x40, 0, 1⟩
def STAT : Fld := ⟨0x44, 0, 32⟩
def STAT_PARTIAL : Fld := ⟨0x44, 3, 1⟩
def STAT_STEPPED : Fld := ⟨0x44, 2, 1⟩
def STAT_LATE : Fld := ⟨0x44, 1, 1⟩
def STAT_PENDING : Fld := ⟨0x44, 0, 1⟩
def GEN : Fld := ⟨0x48, 0, 32⟩
def PERIOD : Fld := ⟨0x4C, 0, 32⟩
def AT_SEC_LO : Fld := ⟨0x50, 0, 32⟩
def AT_SEC_HI : Fld := ⟨0x54, 0, 16⟩
def AT_NS : Fld := ⟨0x58, 0, 30⟩
def TAKEN_SEC_LO : Fld := ⟨0x60, 0, 32⟩
def TAKEN_SEC_HI : Fld := ⟨0x64, 0, 16⟩
def TAKEN_NS : Fld := ⟨0x68, 0, 30⟩
end SNAP

namespace HOOK
def MBX_CTRL : Fld := ⟨0x40, 0, 1⟩
def MBX_STAT : Fld := ⟨0x44, 0, 32⟩
def MBX_STAT_PAUSED : Fld := ⟨0x44, 3, 1⟩
def MBX_STAT_OVERRUN : Fld := ⟨0x44, 2, 1⟩
def MBX_STAT_DONE : Fld := ⟨0x44, 1, 1⟩
def MBX_STAT_BUSY : Fld := ⟨0x44, 0, 1⟩
def MBX_REQ (i : Nat) : Fld := ⟨0x80 + 4 * i, 0, 32⟩
def MBX_RSP (i : Nat) : Fld := ⟨0x100 + 4 * i, 0, 32⟩
end HOOK

namespace MARK0
def CTRL : Fld := ⟨0x40, 0, 1⟩
def STAT : Fld := ⟨0x44, 0, 32⟩
def STAT_WAITING : Fld := ⟨0x44, 4, 12⟩
def STAT_NO_TARGET : Fld := ⟨0x44, 1, 1⟩
def STAT_HELD : Fld := ⟨0x44, 0, 1⟩
def WAIT : Fld := ⟨0x48, 0, 32⟩
def WAIT_GROUP : Fld := ⟨0x48, 24, 8⟩
def WAIT_BIT : Fld := ⟨0x48, 16, 5⟩
def WAIT_PAGE : Fld := ⟨0x48, 0, 12⟩
def EQ_SEL : Fld := ⟨0x50, 0, 12⟩
def EQ_CMD : Fld := ⟨0x54, 0, 32⟩
def EQ_CMD_RESULT : Fld := ⟨0x54, 8, 4⟩
def EQ_CMD_OP : Fld := ⟨0x54, 0, 2⟩
def EQ_DB : Fld := ⟨0x58, 0, 32⟩
def EQ_DB_ARM : Fld := ⟨0x58, 31, 1⟩
def EQ_DB_QUEUE : Fld := ⟨0x58, 16, 12⟩
def EQ_DB_HEAD : Fld := ⟨0x58, 0, 16⟩
def EQ_PRIO : Fld := ⟨0x5C, 0, 32⟩
def EQ_PRIO_QUEUE : Fld := ⟨0x5C, 16, 12⟩
def EQ_PRIO_PRIO : Fld := ⟨0x5C, 0, 8⟩
def EQ_DATA (i : Nat) : Fld := ⟨0x60 + 4 * i, 0, 32⟩
end MARK0

namespace MARK1
def FN_SEL : Fld := ⟨0x1040, 0, 8⟩
def FN_EQBASE : Fld := ⟨0x1044, 0, 12⟩
def FN_EQCOUNT : Fld := ⟨0x1048, 0, 32⟩
def FN_EQCOUNT_ERR : Fld := ⟨0x1048, 31, 1⟩
def FN_EQCOUNT_COUNT : Fld := ⟨0x1048, 0, 13⟩
def SRC_SEL : Fld := ⟨0x1050, 0, 32⟩
def SRC_SEL_BIT : Fld := ⟨0x1050, 16, 5⟩
def SRC_SEL_PAGE : Fld := ⟨0x1050, 0, 12⟩
def SRC_ROUTE : Fld := ⟨0x1054, 0, 32⟩
def SRC_ROUTE_FW_LOCK : Fld := ⟨0x1054, 31, 1⟩
def SRC_ROUTE_GROUP : Fld := ⟨0x1054, 0, 8⟩
def GRP_SEL : Fld := ⟨0x1058, 0, 8⟩
def GRP_CMD : Fld := ⟨0x105C, 0, 32⟩
def GRP_CMD_RESULT : Fld := ⟨0x105C, 8, 4⟩
def GRP_CMD_OP : Fld := ⟨0x105C, 0, 2⟩
def GRP_DATA : Fld := ⟨0x1060, 0, 32⟩
def GRP_DATA_VALID : Fld := ⟨0x1060, 31, 1⟩
def GRP_DATA_TARGET : Fld := ⟨0x1060, 0, 13⟩
def GRP_DATA_HI (i : Nat) : Fld := ⟨0x1064 + 4 * i, 0, 32⟩
def GRP_DATA_HI_VALID (i : Nat) : Fld := ⟨0x1064 + 4 * i, 31, 1⟩
def GRP_DATA_HI_TARGET (i : Nat) : Fld := ⟨0x1064 + 4 * i, 0, 13⟩
def HOOK_TGT (i : Nat) : Fld := ⟨0x1080 + 4 * i, 0, 32⟩
def HOOK_TGT_PARK (i : Nat) : Fld := ⟨0x1080 + 4 * i, 31, 1⟩
def HOOK_TGT_PRIO (i : Nat) : Fld := ⟨0x1080 + 4 * i, 0, 8⟩
def WATCH (i : Nat) : Fld := ⟨0x1100 + 4 * i, 0, 32⟩
def WATCH_EN (i : Nat) : Fld := ⟨0x1100 + 4 * i, 31, 1⟩
def WATCH_BIT (i : Nat) : Fld := ⟨0x1100 + 4 * i, 16, 5⟩
def WATCH_PAGE (i : Nat) : Fld := ⟨0x1100 + 4 * i, 0, 12⟩
end MARK1

namespace MARK2
def RECORDS_LO : Fld := ⟨0x2040, 0, 32⟩
def RECORDS_HI : Fld := ⟨0x2044, 0, 32⟩
def IRQ_SENT : Fld := ⟨0x2048, 0, 32⟩
def NO_TARGET : Fld := ⟨0x204C, 0, 32⟩
def WITHDRAWN : Fld := ⟨0x2050, 0, 32⟩
def MASK_LATE : Fld := ⟨0x2054, 0, 32⟩
def REPLAYED : Fld := ⟨0x2058, 0, 32⟩
def DMA_ERR : Fld := ⟨0x205C, 0, 32⟩
def DISCARDED : Fld := ⟨0x2060, 0, 32⟩
def DB_ERR : Fld := ⟨0x2064, 0, 32⟩
end MARK2

namespace TIME0
def CTRL : Fld := ⟨0x40, 0, 32⟩
def CTRL_JUMP_DISARM : Fld := ⟨0x40, 2, 1⟩
def CTRL_JUMP_ARM : Fld := ⟨0x40, 1, 1⟩
def STAT : Fld := ⟨0x44, 0, 32⟩
def STAT_TREF_CODE : Fld := ⟨0x44, 28, 4⟩
def STAT_TREF_LOST : Fld := ⟨0x44, 27, 1⟩
def STAT_VALID : Fld := ⟨0x44, 26, 1⟩
def STAT_STEP_PEND : Fld := ⟨0x44, 25, 1⟩
def STAT_JUMP_ARMED : Fld := ⟨0x44, 24, 1⟩
def STAT_MODE : Fld := ⟨0x44, 8, 3⟩
def STAT_SELECTED : Fld := ⟨0x44, 2, 2⟩
def STAT_STATE : Fld := ⟨0x44, 0, 2⟩
def INC_LO : Fld := ⟨0x48, 0, 32⟩
def INC_HI : Fld := ⟨0x4C, 0, 32⟩
def INC_HI_NS : Fld := ⟨0x4C, 8, 8⟩
def INC_HI_FRAC : Fld := ⟨0x4C, 0, 8⟩
def NOW_FRAC : Fld := ⟨0x50, 0, 32⟩
def NOW_NS : Fld := ⟨0x54, 0, 30⟩
def NOW_SEC_LO : Fld := ⟨0x58, 0, 32⟩
def NOW_SEC_HI : Fld := ⟨0x5C, 0, 16⟩
def STEP_FRAC : Fld := ⟨0x60, 0, 32⟩
def STEP_NS : Fld := ⟨0x64, 0, 30⟩
def STEP_SEC_LO : Fld := ⟨0x68, 0, 32⟩
def STEP_SEC_HI : Fld := ⟨0x6C, 0, 32⟩
def STEP_SEC_HI_NEG : Fld := ⟨0x6C, 31, 1⟩
def STEP_SEC_HI_SEC : Fld := ⟨0x6C, 0, 16⟩
def JUMP_LIMIT : Fld := ⟨0x70, 0, 32⟩
def PORT_RX_DELAY (i : Nat) : Fld := ⟨0x80 + 0x20 * i, 0, 32⟩
def PORT_TX_DELAY (i : Nat) : Fld := ⟨0x84 + 0x20 * i, 0, 32⟩
def PORT_ASYM_CFG (i : Nat) : Fld := ⟨0x88 + 0x20 * i, 0, 32⟩
def PORT_CTRL (i : Nat) : Fld := ⟨0x8C + 0x20 * i, 0, 32⟩
def PORT_CTRL_FORCE_CFG (i : Nat) : Fld := ⟨0x8C + 0x20 * i, 1, 1⟩
def PORT_CTRL_ASYM_VALID (i : Nat) : Fld := ⟨0x8C + 0x20 * i, 0, 1⟩
def PORT_OFFSET_LO (i : Nat) : Fld := ⟨0x90 + 0x20 * i, 0, 32⟩
def PORT_OFFSET_HI (i : Nat) : Fld := ⟨0x94 + 0x20 * i, 0, 32⟩
def PORT_STAT (i : Nat) : Fld := ⟨0x98 + 0x20 * i, 0, 32⟩
def PORT_STAT_QUALITY (i : Nat) : Fld := ⟨0x98 + 0x20 * i, 8, 3⟩
def PORT_STAT_ASYM_SRC (i : Nat) : Fld := ⟨0x98 + 0x20 * i, 1, 2⟩
def PORT_STAT_IN_TIME (i : Nat) : Fld := ⟨0x98 + 0x20 * i, 0, 1⟩
def VOTE : Fld := ⟨0xC0, 0, 32⟩
def VOTE_PPSIN_NS : Fld := ⟨0xC0, 16, 16⟩
def VOTE_VOTE_NS : Fld := ⟨0xC0, 0, 16⟩
def TENSION_CFG : Fld := ⟨0xC4, 0, 32⟩
def TENSION_CFG_FBASE : Fld := ⟨0xC4, 24, 8⟩
def TENSION_CFG_MAX_PPB : Fld := ⟨0xC4, 12, 12⟩
def TENSION_CFG_KP_SHIFT : Fld := ⟨0xC4, 8, 4⟩
def TENSION_CFG_KI_SHIFT : Fld := ⟨0xC4, 4, 4⟩
def TENSION_ERR : Fld := ⟨0xC8, 0, 32⟩
def LAUNCH_CFG : Fld := ⟨0xCC, 0, 32⟩
end TIME0

namespace TIME1
def PPS_OUT_CTRL (i : Nat) : Fld := ⟨0x1040 + 0x10 * i, 0, 32⟩
def PPS_OUT_CTRL_GATE (i : Nat) : Fld := ⟨0x1040 + 0x10 * i, 1, 1⟩
def PPS_OUT_CTRL_EN (i : Nat) : Fld := ⟨0x1040 + 0x10 * i, 0, 1⟩
def PPS_OUT_WIDTH (i : Nat) : Fld := ⟨0x1044 + 0x10 * i, 0, 29⟩
def PPS_OUT_OFFSET (i : Nat) : Fld := ⟨0x1048 + 0x10 * i, 0, 32⟩
def PPS_IN_CTRL (i : Nat) : Fld := ⟨0x1060 + 0x10 * i, 0, 32⟩
def PPS_IN_CTRL_CHECK (i : Nat) : Fld := ⟨0x1060 + 0x10 * i, 2, 1⟩
def PPS_IN_CTRL_EDGE (i : Nat) : Fld := ⟨0x1060 + 0x10 * i, 1, 1⟩
def PPS_IN_CTRL_EN (i : Nat) : Fld := ⟨0x1060 + 0x10 * i, 0, 1⟩
def PPS_IN_DELAY (i : Nat) : Fld := ⟨0x1064 + 0x10 * i, 0, 32⟩
def PPS_IN_DIFF (i : Nat) : Fld := ⟨0x1068 + 0x10 * i, 0, 32⟩
def PPS_IN_SEC_LO (i : Nat) : Fld := ⟨0x106C + 0x10 * i, 0, 32⟩
def PPS_OUT_RSV (i : Nat) : Fld := ⟨0x104C + 0x10 * i, 0, 32⟩
def CLK10_CTRL : Fld := ⟨0x1080, 0, 32⟩
def CLK10_CTRL_GATE : Fld := ⟨0x1080, 1, 1⟩
def CLK10_CTRL_EN : Fld := ⟨0x1080, 0, 1⟩
def TOD_CTRL : Fld := ⟨0x1084, 0, 32⟩
def TOD_CTRL_TX_GATE : Fld := ⟨0x1084, 2, 1⟩
def TOD_CTRL_RX_EN : Fld := ⟨0x1084, 1, 1⟩
def TOD_CTRL_TX_EN : Fld := ⟨0x1084, 0, 1⟩
def EVT_CTRL (i : Nat) : Fld := ⟨0x1100 + 0x20 * i, 0, 32⟩
def EVT_CTRL_FILL (i : Nat) : Fld := ⟨0x1100 + 0x20 * i, 8, 5⟩
def EVT_CTRL_LATE (i : Nat) : Fld := ⟨0x1100 + 0x20 * i, 4, 1⟩
def EVT_CTRL_OVF (i : Nat) : Fld := ⟨0x1100 + 0x20 * i, 3, 1⟩
def EVT_CTRL_EDGE (i : Nat) : Fld := ⟨0x1100 + 0x20 * i, 2, 1⟩
def EVT_CTRL_MODE (i : Nat) : Fld := ⟨0x1100 + 0x20 * i, 0, 2⟩
def EVT_FRAC (i : Nat) : Fld := ⟨0x1104 + 0x20 * i, 0, 32⟩
def EVT_NS (i : Nat) : Fld := ⟨0x1108 + 0x20 * i, 0, 30⟩
def EVT_SEC_LO (i : Nat) : Fld := ⟨0x110C + 0x20 * i, 0, 32⟩
def EVT_SEC_HI (i : Nat) : Fld := ⟨0x1110 + 0x20 * i, 0, 16⟩
def EVT_PERIOD_NS (i : Nat) : Fld := ⟨0x1114 + 0x20 * i, 0, 32⟩
def EVT_WIDTH_NS (i : Nat) : Fld := ⟨0x1118 + 0x20 * i, 0, 32⟩
def PTM_CTRL : Fld := ⟨0x1200, 0, 32⟩
def PTM_CTRL_PERIOD_MS : Fld := ⟨0x1200, 16, 16⟩
def PTM_CTRL_NOW : Fld := ⟨0x1200, 1, 1⟩
def PTM_CTRL_AUTO : Fld := ⟨0x1200, 0, 1⟩
def PTM_OFFSET_LO : Fld := ⟨0x1204, 0, 32⟩
def PTM_OFFSET_HI : Fld := ⟨0x1208, 0, 32⟩
def PTM_AT_NS : Fld := ⟨0x120C, 0, 32⟩
def PTM_AT_SEC_LO : Fld := ⟨0x1210, 0, 32⟩
def PTM_AT_SEC_HI : Fld := ⟨0x1214, 0, 16⟩
def TMSG_USED : Fld := ⟨0x1600, 0, 32⟩
def TMSG_DISCARD : Fld := ⟨0x1604, 0, 32⟩
def TMSG_ERR : Fld := ⟨0x1608, 0, 32⟩
def STEPS : Fld := ⟨0x160C, 0, 32⟩
def JUMP_REFUSED : Fld := ⟨0x1610, 0, 32⟩
def DISAGREE : Fld := ⟨0x1614, 0, 32⟩
def TOD_RX_ERR : Fld := ⟨0x1618, 0, 32⟩
def EVT_DROPS : Fld := ⟨0x161C, 0, 32⟩
def LAUNCH_EXPIRED : Fld := ⟨0x1620, 0, 32⟩
def PTM_FAILS : Fld := ⟨0x1624, 0, 32⟩
end TIME1

namespace TSQ
def Q_ENTRY0 (i : Nat) : Fld := ⟨0x40 + 0x20 * i, 0, 32⟩
def Q_ENTRY0_VALID (i : Nat) : Fld := ⟨0x40 + 0x20 * i, 31, 1⟩
def Q_ENTRY0_ID (i : Nat) : Fld := ⟨0x40 + 0x20 * i, 0, 16⟩
def Q_ENTRY1 (i : Nat) : Fld := ⟨0x44 + 0x20 * i, 0, 32⟩
def Q_ENTRY2 (i : Nat) : Fld := ⟨0x48 + 0x20 * i, 0, 30⟩
def Q_ENTRY3 (i : Nat) : Fld := ⟨0x4C + 0x20 * i, 0, 32⟩
def Q_ENTRY4 (i : Nat) : Fld := ⟨0x50 + 0x20 * i, 0, 16⟩
def Q_STAT (i : Nat) : Fld := ⟨0x54 + 0x20 * i, 0, 32⟩
def Q_STAT_OVF (i : Nat) : Fld := ⟨0x54 + 0x20 * i, 8, 1⟩
def Q_STAT_FILL (i : Nat) : Fld := ⟨0x54 + 0x20 * i, 0, 7⟩
def TSQ_DROPS (i : Nat) : Fld := ⟨0x200 + 4 * i, 0, 32⟩
end TSQ

namespace GAUGE
def CTRL : Fld := ⟨0x40, 0, 32⟩
def CTRL_PERIOD_S : Fld := ⟨0x40, 8, 8⟩
def CTRL_BOUNDED_EN : Fld := ⟨0x40, 3, 1⟩
def CTRL_FIT_CHIRP : Fld := ⟨0x40, 2, 1⟩
def CTRL_USE_PUB : Fld := ⟨0x40, 1, 1⟩
def CTRL_EN : Fld := ⟨0x40, 0, 1⟩
def MODEL : Fld := ⟨0x44, 0, 32⟩
def MODEL_LAMBDA_DS : Fld := ⟨0x44, 16, 16⟩
def MODEL_LAMBDA_US : Fld := ⟨0x44, 0, 16⟩
def FIBRE : Fld := ⟨0x48, 0, 32⟩
def FIBRE_NG : Fld := ⟨0x48, 16, 16⟩
def FIBRE_S0 : Fld := ⟨0x48, 0, 16⟩
def TOL : Fld := ⟨0x4C, 0, 32⟩
def TOL_S0_TOL : Fld := ⟨0x4C, 8, 8⟩
def TOL_LAMBDA_TOL : Fld := ⟨0x4C, 0, 8⟩
def ACCEPT : Fld := ⟨0x50, 0, 32⟩
def ACCEPT_NULL_DEPTH : Fld := ⟨0x50, 24, 8⟩
def ACCEPT_RESID_MAX : Fld := ⟨0x50, 16, 8⟩
def ACCEPT_CONF_MAX : Fld := ⟨0x50, 0, 16⟩
def CHIRP_CFG : Fld := ⟨0x54, 0, 32⟩
def CHIRP_CFG_VALID : Fld := ⟨0x54, 31, 1⟩
def CHIRP_CFG_ALPHA : Fld := ⟨0x54, 0, 16⟩
def L0_RANGE : Fld := ⟨0x58, 0, 32⟩
def L0_RANGE_MAX : Fld := ⟨0x58, 16, 16⟩
def L0_RANGE_MIN : Fld := ⟨0x58, 0, 16⟩
def STALE : Fld := ⟨0x5C, 0, 16⟩
def STAT : Fld := ⟨0x80, 0, 32⟩
def STAT_AGE_S : Fld := ⟨0x80, 16, 16⟩
def STAT_CHIRP_SRC : Fld := ⟨0x80, 12, 2⟩
def STAT_RESULT : Fld := ⟨0x80, 8, 4⟩
def STAT_NULLS : Fld := ⟨0x80, 4, 3⟩
def STAT_CAND : Fld := ⟨0x80, 3, 1⟩
def STAT_MODE : Fld := ⟨0x80, 1, 2⟩
def STAT_VALID : Fld := ⟨0x80, 0, 1⟩
def ASYM : Fld := ⟨0x84, 0, 32⟩
def CONF : Fld := ⟨0x88, 0, 32⟩
def CONF_LAST : Fld := ⟨0x88, 16, 16⟩
def CONF_USE : Fld := ⟨0x88, 0, 16⟩
def LAST_ASYM : Fld := ⟨0x8C, 0, 32⟩
def DL : Fld := ⟨0x90, 0, 32⟩
def LENGTH : Fld := ⟨0x94, 0, 32⟩
def LAMBDA0 : Fld := ⟨0x98, 0, 32⟩
def LAMBDA0_RESID : Fld := ⟨0x98, 16, 16⟩
def LAMBDA0_L0 : Fld := ⟨0x98, 0, 16⟩
def ALPHA : Fld := ⟨0x9C, 0, 16⟩
def NULL (i : Nat) : Fld := ⟨0xA0 + 4 * i, 0, 32⟩
def NULL_DEPTH (i : Nat) : Fld := ⟨0xA0 + 4 * i, 16, 16⟩
def NULL_POS (i : Nat) : Fld := ⟨0xA0 + 4 * i, 0, 16⟩
def FITS : Fld := ⟨0x100, 0, 32⟩
def ACCEPTED : Fld := ⟨0x104, 0, 32⟩
def REJECTED : Fld := ⟨0x108, 0, 32⟩
def HELD : Fld := ⟨0x10C, 0, 32⟩
def EXPIRED : Fld := ⟨0x110, 0, 32⟩
end GAUGE

namespace LINE0
def RX_CTRL : Fld := ⟨0x40, 0, 32⟩
def RX_CTRL_FFE_MU : Fld := ⟨0x40, 20, 4⟩
def RX_CTRL_EQ_AVG : Fld := ⟨0x40, 16, 4⟩
def RX_CTRL_MAX_ITER : Fld := ⟨0x40, 8, 5⟩
def RX_CTRL_AGC_EN : Fld := ⟨0x40, 7, 1⟩
def RX_CTRL_GAIN : Fld := ⟨0x40, 0, 5⟩
def RX_STAT : Fld := ⟨0x44, 0, 32⟩
def RX_STAT_GAIN_NOW : Fld := ⟨0x44, 16, 5⟩
def RX_STAT_CLK_SRC : Fld := ⟨0x44, 2, 1⟩
def RX_STAT_CDR : Fld := ⟨0x44, 0, 2⟩
def RX_FREQ : Fld := ⟨0x48, 0, 16⟩
def RX_POWER : Fld := ⟨0x4C, 0, 8⟩
def EQ_CAP : Fld := ⟨0x50, 0, 32⟩
def EQ_CAP_EN : Fld := ⟨0x50, 31, 1⟩
def EQ_CAP_SLOT : Fld := ⟨0x50, 16, 4⟩
def EQ_CAP_EVERY : Fld := ⟨0x50, 0, 8⟩
def LOAD_SEL : Fld := ⟨0x60, 0, 32⟩
def LOAD_SEL_BANK : Fld := ⟨0x60, 20, 1⟩
def LOAD_SEL_TABLE : Fld := ⟨0x60, 16, 4⟩
def LOAD_SEL_INDEX : Fld := ⟨0x60, 0, 11⟩
def LOAD_DATA : Fld := ⟨0x64, 0, 32⟩
end LINE0

namespace LINE1
def TX_CTRL : Fld := ⟨0x1040, 0, 32⟩
def TX_CTRL_INHIBIT_BEN : Fld := ⟨0x1040, 12, 1⟩
def TX_CTRL_INHIBIT_ABSENT : Fld := ⟨0x1040, 11, 1⟩
def TX_CTRL_INHIBIT_FAULT : Fld := ⟨0x1040, 10, 1⟩
def TX_CTRL_INHIBIT_CLOCK : Fld := ⟨0x1040, 9, 1⟩
def TX_CTRL_INHIBIT : Fld := ⟨0x1040, 8, 1⟩
def TX_CTRL_MASK_EN : Fld := ⟨0x1040, 3, 1⟩
def TX_CTRL_FIR_EN : Fld := ⟨0x1040, 2, 1⟩
def TX_CTRL_DPD_EN : Fld := ⟨0x1040, 1, 1⟩
def TX_CTRL_LASER_EN : Fld := ⟨0x1040, 0, 1⟩
def TX_ENV : Fld := ⟨0x1044, 0, 32⟩
def TX_ENV_BEN_HOLD : Fld := ⟨0x1044, 16, 12⟩
def TX_ENV_BEN_ADV : Fld := ⟨0x1044, 4, 12⟩
def TX_ENV_LEAD_SYMS : Fld := ⟨0x1044, 0, 4⟩
def TX_LAT : Fld := ⟨0x1048, 0, 32⟩
def TX_LAT_TXMON_DELAY : Fld := ⟨0x1048, 16, 16⟩
def TX_LAT_DAC_LAT : Fld := ⟨0x1048, 0, 16⟩
def DPD_SEL : Fld := ⟨0x104C, 0, 4⟩
def DPD_COEF00 : Fld := ⟨0x1100, 0, 32⟩
def DPD_COEF00_IM : Fld := ⟨0x1100, 16, 16⟩
def DPD_COEF00_RE : Fld := ⟨0x1100, 0, 16⟩
def DPD_COEFN00 (i : Nat) : Fld := ⟨0x1104 + 4 * i, 0, 32⟩
def DPD_COEFN00_IM (i : Nat) : Fld := ⟨0x1104 + 4 * i, 16, 16⟩
def DPD_COEFN00_RE (i : Nat) : Fld := ⟨0x1104 + 4 * i, 0, 16⟩
def DPD_COEF01 : Fld := ⟨0x1140, 0, 32⟩
def DPD_COEF01_IM : Fld := ⟨0x1140, 16, 16⟩
def DPD_COEF01_RE : Fld := ⟨0x1140, 0, 16⟩
def DPD_COEFN01 (i : Nat) : Fld := ⟨0x1144 + 4 * i, 0, 32⟩
def DPD_COEFN01_IM (i : Nat) : Fld := ⟨0x1144 + 4 * i, 16, 16⟩
def DPD_COEFN01_RE (i : Nat) : Fld := ⟨0x1144 + 4 * i, 0, 16⟩
def DPD_COEF02 : Fld := ⟨0x1180, 0, 32⟩
def DPD_COEF02_IM : Fld := ⟨0x1180, 16, 16⟩
def DPD_COEF02_RE : Fld := ⟨0x1180, 0, 16⟩
def DPD_COEFN02 (i : Nat) : Fld := ⟨0x1184 + 4 * i, 0, 32⟩
def DPD_COEFN02_IM (i : Nat) : Fld := ⟨0x1184 + 4 * i, 16, 16⟩
def DPD_COEFN02_RE (i : Nat) : Fld := ⟨0x1184 + 4 * i, 0, 16⟩
def DPD_COEF03 : Fld := ⟨0x11C0, 0, 32⟩
def DPD_COEF03_IM : Fld := ⟨0x11C0, 16, 16⟩
def DPD_COEF03_RE : Fld := ⟨0x11C0, 0, 16⟩
def DPD_COEFN03 (i : Nat) : Fld := ⟨0x11C4 + 4 * i, 0, 32⟩
def DPD_COEFN03_IM (i : Nat) : Fld := ⟨0x11C4 + 4 * i, 16, 16⟩
def DPD_COEFN03_RE (i : Nat) : Fld := ⟨0x11C4 + 4 * i, 0, 16⟩
def DPD_COEF10 : Fld := ⟨0x1200, 0, 32⟩
def DPD_COEF10_IM : Fld := ⟨0x1200, 16, 16⟩
def DPD_COEF10_RE : Fld := ⟨0x1200, 0, 16⟩
def DPD_COEFN10 (i : Nat) : Fld := ⟨0x1204 + 4 * i, 0, 32⟩
def DPD_COEFN10_IM (i : Nat) : Fld := ⟨0x1204 + 4 * i, 16, 16⟩
def DPD_COEFN10_RE (i : Nat) : Fld := ⟨0x1204 + 4 * i, 0, 16⟩
def DPD_COEF11 : Fld := ⟨0x1240, 0, 32⟩
def DPD_COEF11_IM : Fld := ⟨0x1240, 16, 16⟩
def DPD_COEF11_RE : Fld := ⟨0x1240, 0, 16⟩
def DPD_COEFN11 (i : Nat) : Fld := ⟨0x1244 + 4 * i, 0, 32⟩
def DPD_COEFN11_IM (i : Nat) : Fld := ⟨0x1244 + 4 * i, 16, 16⟩
def DPD_COEFN11_RE (i : Nat) : Fld := ⟨0x1244 + 4 * i, 0, 16⟩
def DPD_COEF12 : Fld := ⟨0x1280, 0, 32⟩
def DPD_COEF12_IM : Fld := ⟨0x1280, 16, 16⟩
def DPD_COEF12_RE : Fld := ⟨0x1280, 0, 16⟩
def DPD_COEFN12 (i : Nat) : Fld := ⟨0x1284 + 4 * i, 0, 32⟩
def DPD_COEFN12_IM (i : Nat) : Fld := ⟨0x1284 + 4 * i, 16, 16⟩
def DPD_COEFN12_RE (i : Nat) : Fld := ⟨0x1284 + 4 * i, 0, 16⟩
def DPD_COEF13 : Fld := ⟨0x12C0, 0, 32⟩
def DPD_COEF13_IM : Fld := ⟨0x12C0, 16, 16⟩
def DPD_COEF13_RE : Fld := ⟨0x12C0, 0, 16⟩
def DPD_COEFN13 (i : Nat) : Fld := ⟨0x12C4 + 4 * i, 0, 32⟩
def DPD_COEFN13_IM (i : Nat) : Fld := ⟨0x12C4 + 4 * i, 16, 16⟩
def DPD_COEFN13_RE (i : Nat) : Fld := ⟨0x12C4 + 4 * i, 0, 16⟩
def FIR_TAP : Fld := ⟨0x1400, 0, 16⟩
def FIR_TAPN (i : Nat) : Fld := ⟨0x1404 + 4 * i, 0, 16⟩
end LINE1

namespace LINE2
def OPT_CTRL : Fld := ⟨0x2040, 0, 32⟩
def OPT_CTRL_BIAS_STEP : Fld := ⟨0x2040, 16, 8⟩
def OPT_CTRL_BIAS : Fld := ⟨0x2040, 0, 12⟩
def OPT_STAT : Fld := ⟨0x2044, 0, 32⟩
def OPT_STAT_RSSI : Fld := ⟨0x2044, 16, 12⟩
def OPT_STAT_BIAS_NOW : Fld := ⟨0x2044, 4, 12⟩
def OPT_STAT_FAULT : Fld := ⟨0x2044, 1, 1⟩
def OPT_STAT_PRESENT : Fld := ⟨0x2044, 0, 1⟩
def TXMON_CAP : Fld := ⟨0x2048, 0, 32⟩
def TXMON_CAP_OFFSET : Fld := ⟨0x2048, 16, 16⟩
def TXMON_CAP_SLOT : Fld := ⟨0x2048, 5, 3⟩
def TXMON_CAP_PROFILE : Fld := ⟨0x2048, 3, 2⟩
def TXMON_CAP_CANCEL : Fld := ⟨0x2048, 2, 1⟩
def TXMON_CAP_BUSY : Fld := ⟨0x2048, 1, 1⟩
def TXMON_CAP_ARM : Fld := ⟨0x2048, 0, 1⟩
end LINE2

namespace LINE3
def CW_DECODED_LO : Fld := ⟨0x3040, 0, 32⟩
def CW_DECODED_HI : Fld := ⟨0x3044, 0, 32⟩
def ITER_TOTAL_LO : Fld := ⟨0x3048, 0, 32⟩
def ITER_TOTAL_HI : Fld := ⟨0x304C, 0, 32⟩
def BITS_CORRECTED_LO : Fld := ⟨0x3050, 0, 32⟩
def BITS_CORRECTED_HI : Fld := ⟨0x3054, 0, 32⟩
def CODED_BITS_LO : Fld := ⟨0x3058, 0, 32⟩
def CODED_BITS_HI : Fld := ⟨0x305C, 0, 32⟩
def CW_UNCORR : Fld := ⟨0x3060, 0, 32⟩
def CW_CUT : Fld := ⟨0x3064, 0, 32⟩
def ADC_CLIP : Fld := ⟨0x3068, 0, 32⟩
def DAC_CLIP : Fld := ⟨0x306C, 0, 32⟩
def CDR_LOSSES : Fld := ⟨0x3070, 0, 32⟩
def BEN_STUCK : Fld := ⟨0x3074, 0, 32⟩
def OPT_FAULTS : Fld := ⟨0x3078, 0, 32⟩
end LINE3

namespace LFR0
def DS_CTRL : Fld := ⟨0x40, 0, 32⟩
def DS_CTRL_PROF_EN : Fld := ⟨0x40, 16, 8⟩
def DS_CTRL_ANCHOR_JUMP : Fld := ⟨0x40, 3, 1⟩
def DS_CTRL_GEN : Fld := ⟨0x40, 0, 1⟩
def DS_STAT : Fld := ⟨0x44, 0, 32⟩
def DS_STAT_DELIN : Fld := ⟨0x44, 16, 16⟩
def DS_STAT_H : Fld := ⟨0x44, 12, 4⟩
def DS_STAT_P0_MODE : Fld := ⟨0x44, 11, 1⟩
def DS_STAT_ALIGN : Fld := ⟨0x44, 8, 2⟩
def DS_STAT_DEFECT : Fld := ⟨0x44, 0, 6⟩
def DS_DEFECT_LATCH : Fld := ⟨0x48, 0, 6⟩
def FRAME_COUNT_LO : Fld := ⟨0x50, 0, 32⟩
def FRAME_COUNT_HI : Fld := ⟨0x54, 0, 19⟩
def TREE : Fld := ⟨0x58, 0, 16⟩
def SR_RX : Fld := ⟨0x5C, 0, 32⟩
def SR_RX_VALID : Fld := ⟨0x5C, 16, 1⟩
def SR_RX_SR0 : Fld := ⟨0x5C, 8, 8⟩
def SR_RX_SR1 : Fld := ⟨0x5C, 0, 8⟩
def PROF_GEN0 : Fld := ⟨0x60, 0, 32⟩
def PROF_GEN (i : Nat) : Fld := ⟨0x64 + 4 * i, 0, 32⟩
def PROF_GEN_CUR_VALID (i : Nat) : Fld := ⟨0x64 + 4 * i, 30, 1⟩
def PROF_GEN_STAGED_VALID (i : Nat) : Fld := ⟨0x64 + 4 * i, 29, 1⟩
def PROF_GEN_COUNTDOWN (i : Nat) : Fld := ⟨0x64 + 4 * i, 24, 5⟩
def PROF_GEN_ANNOUNCED (i : Nat) : Fld := ⟨0x64 + 4 * i, 16, 8⟩
def PROF_GEN_STAGED (i : Nat) : Fld := ⟨0x64 + 4 * i, 8, 8⟩
def PROF_GEN_CURRENT (i : Nat) : Fld := ⟨0x64 + 4 * i, 0, 8⟩
def LOS_CFG : Fld := ⟨0x80, 0, 32⟩
def LOS_CFG_HYST : Fld := ⟨0x80, 8, 8⟩
def LOS_CFG_THRESH : Fld := ⟨0x80, 0, 8⟩
def SD_CFG : Fld := ⟨0x84, 0, 16⟩
def SF_CFG : Fld := ⟨0x88, 0, 32⟩
def SF_CFG_UNCORR : Fld := ⟨0x88, 16, 16⟩
def SF_CFG_BER : Fld := ⟨0x88, 0, 16⟩
def MAX_LEN : Fld := ⟨0x8C, 0, 14⟩
def RXBUF_FILL : Fld := ⟨0x90, 0, 17⟩
def RXBUF_PEAK : Fld := ⟨0x94, 0, 17⟩
def ADDR (i : Nat) : Fld := ⟨0xC0 + 4 * i, 0, 32⟩
def ADDR_VALID (i : Nat) : Fld := ⟨0xC0 + 4 * i, 31, 1⟩
def ADDR_ADDR (i : Nat) : Fld := ⟨0xC0 + 4 * i, 0, 12⟩
def US_CTRL : Fld := ⟨0x100, 0, 32⟩
def US_CTRL_SERVE_DISCOVERY : Fld := ⟨0x100, 14, 1⟩
def US_CTRL_SERVE_RANGING : Fld := ⟨0x100, 13, 1⟩
def US_CTRL_SERVE_DATA : Fld := ⟨0x100, 12, 1⟩
def US_CTRL_FORCE_RDI : Fld := ⟨0x100, 7, 1⟩
def US_CTRL_RDI_HDR : Fld := ⟨0x100, 6, 1⟩
def US_CTRL_RDI_SF : Fld := ⟨0x100, 5, 1⟩
def US_CTRL_RDI_LOD : Fld := ⟨0x100, 4, 1⟩
def US_CTRL_SDI_EN : Fld := ⟨0x100, 3, 1⟩
def US_CTRL_FRAG_EN : Fld := ⟨0x100, 0, 1⟩
def US_EQD : Fld := ⟨0x104, 0, 27⟩
def US_STAT : Fld := ⟨0x108, 0, 32⟩
def US_STAT_SDI : Fld := ⟨0x108, 10, 1⟩
def US_STAT_RDI : Fld := ⟨0x108, 9, 1⟩
def US_STAT_GSTORE : Fld := ⟨0x108, 0, 9⟩
def US_BPROF (i : Nat) : Fld := ⟨0x110 + 4 * i, 0, 32⟩
def US_BPROF_VALID (i : Nat) : Fld := ⟨0x110 + 4 * i, 31, 1⟩
def US_BPROF_BITS (i : Nat) : Fld := ⟨0x110 + 4 * i, 0, 13⟩
def ALLOC (i : Nat) : Fld := ⟨0x140 + 4 * i, 0, 32⟩
def ALLOC_VALID (i : Nat) : Fld := ⟨0x140 + 4 * i, 31, 1⟩
def ALLOC_ALLOC_ID (i : Nat) : Fld := ⟨0x140 + 4 * i, 0, 14⟩
end LFR0

namespace LFR1
def PSTAT_FOREIGN (i : Nat) : Fld := ⟨0x1050 + 0x40 * i, 0, 32⟩
def PSTAT_FCS_ERR (i : Nat) : Fld := ⟨0x1054 + 0x40 * i, 0, 32⟩
def PSTAT_ERASED (i : Nat) : Fld := ⟨0x1058 + 0x40 * i, 0, 32⟩
def PSTAT_FRAG_ERR (i : Nat) : Fld := ⟨0x105C + 0x40 * i, 0, 32⟩
def PSTAT_LEN_ERR (i : Nat) : Fld := ⟨0x1060 + 0x40 * i, 0, 32⟩
def PSTAT_FALSE_LOCK (i : Nat) : Fld := ⟨0x1064 + 0x40 * i, 0, 32⟩
def PSTAT_HUNTS (i : Nat) : Fld := ⟨0x1068 + 0x40 * i, 0, 32⟩
def PSTAT_ANCHOR_MISS (i : Nat) : Fld := ⟨0x106C + 0x40 * i, 0, 32⟩
def PSTAT_KEY_INVALID (i : Nat) : Fld := ⟨0x1070 + 0x40 * i, 0, 32⟩
def PSTAT_SEG_MISMATCH (i : Nat) : Fld := ⟨0x1074 + 0x40 * i, 0, 32⟩
def PSTAT_GEN_MISSING (i : Nat) : Fld := ⟨0x1078 + 0x40 * i, 0, 32⟩
def PSTAT_RSV (i : Nat) : Fld := ⟨0x107C + 0x40 * i, 0, 32⟩
def PSTAT_FRAMES_LO (i : Nat) : Fld := ⟨0x1040 + 0x40 * i, 0, 32⟩
def PSTAT_FRAMES_HI (i : Nat) : Fld := ⟨0x1044 + 0x40 * i, 0, 32⟩
def PSTAT_BYTES_LO (i : Nat) : Fld := ⟨0x1048 + 0x40 * i, 0, 32⟩
def PSTAT_BYTES_HI (i : Nat) : Fld := ⟨0x104C + 0x40 * i, 0, 32⟩
def LINE_FRAMES_LO : Fld := ⟨0x1240, 0, 32⟩
def LINE_FRAMES_HI : Fld := ⟨0x1244, 0, 32⟩
def HDR_LOST : Fld := ⟨0x1248, 0, 32⟩
def HDR_INCONSISTENT : Fld := ⟨0x124C, 0, 32⟩
def RXOVF_FRAMES : Fld := ⟨0x1250, 0, 32⟩
def RXOVF_BYTES_LO : Fld := ⟨0x1254, 0, 32⟩
def RXOVF_BYTES_HI : Fld := ⟨0x1258, 0, 32⟩
def COUNT_JUMP : Fld := ⟨0x125C, 0, 32⟩
def BROADCAST : Fld := ⟨0x1260, 0, 32⟩
def GROUP : Fld := ⟨0x1264, 0, 32⟩
def MGMT_TUNNEL : Fld := ⟨0x1268, 0, 32⟩
def CTRL_ERASED : Fld := ⟨0x126C, 0, 32⟩
def LOF_ENTRIES : Fld := ⟨0x1270, 0, 32⟩
def BURSTS_LO : Fld := ⟨0x1300, 0, 32⟩
def BURSTS_HI : Fld := ⟨0x1304, 0, 32⟩
def PAYLOAD_BYTES_LO : Fld := ⟨0x1308, 0, 32⟩
def PAYLOAD_BYTES_HI : Fld := ⟨0x130C, 0, 32⟩
def FRAMES_LO : Fld := ⟨0x1310, 0, 32⟩
def FRAMES_HI : Fld := ⟨0x1314, 0, 32⟩
def REPORTS : Fld := ⟨0x1318, 0, 32⟩
def MGMT_SENT : Fld := ⟨0x131C, 0, 32⟩
def MGMT_EMPTY : Fld := ⟨0x1320, 0, 32⟩
def FRAGMENTS : Fld := ⟨0x1324, 0, 32⟩
def GRANT_MALFORMED : Fld := ⟨0x1328, 0, 32⟩
def GRANT_NOT_PERMITTED : Fld := ⟨0x132C, 0, 32⟩
def GRANT_SHORT : Fld := ⟨0x1330, 0, 32⟩
def GRANT_LATE : Fld := ⟨0x1334, 0, 32⟩
def GRANT_OVF : Fld := ⟨0x1338, 0, 32⟩
def GRANT_TRUNC : Fld := ⟨0x133C, 0, 32⟩
def GRANT_COLLIDE : Fld := ⟨0x1340, 0, 32⟩
def GMAP_ERR : Fld := ⟨0x1344, 0, 32⟩
def BURST_INHIBITED : Fld := ⟨0x1348, 0, 32⟩
def BURST_CUT : Fld := ⟨0x134C, 0, 32⟩
def TOO_LONG : Fld := ⟨0x1350, 0, 32⟩
def RDI_BURSTS : Fld := ⟨0x1354, 0, 32⟩
def ANNOUNCES : Fld := ⟨0x1380, 0, 32⟩
def REG_ABORT : Fld := ⟨0x1384, 0, 32⟩
def PROVE_FAIL : Fld := ⟨0x1388, 0, 32⟩
def HOLD_ENTRIES : Fld := ⟨0x138C, 0, 32⟩
def HOLD_EXPIRED : Fld := ⟨0x1390, 0, 32⟩
def MGMT_ERR : Fld := ⟨0x1394, 0, 32⟩
def MGMT_NOACK : Fld := ⟨0x1398, 0, 32⟩
def APS_SWITCHES : Fld := ⟨0x139C, 0, 32⟩
def KEY_EXCHANGES : Fld := ⟨0x13A0, 0, 32⟩
end LFR1

namespace LFR2
def REG_STAT : Fld := ⟨0x2180, 0, 32⟩
def REG_STAT_REQUEST : Fld := ⟨0x2180, 24, 4⟩
def REG_STAT_MUTE_LOCAL : Fld := ⟨0x2180, 23, 1⟩
def REG_STAT_WORKING : Fld := ⟨0x2180, 22, 1⟩
def REG_STAT_DOZE : Fld := ⟨0x2180, 21, 1⟩
def REG_STAT_MUTE_REMOTE : Fld := ⟨0x2180, 20, 1⟩
def REG_STAT_KEYED : Fld := ⟨0x2180, 19, 1⟩
def REG_STAT_STATE : Fld := ⟨0x2180, 16, 3⟩
def REG_STAT_ADDR : Fld := ⟨0x2180, 0, 12⟩
end LFR2

namespace NDL
def CFG : Fld := ⟨0x40, 0, 32⟩
def CFG_ROLE : Fld := ⟨0x40, 6, 2⟩
def CFG_OPMODE : Fld := ⟨0x40, 0, 1⟩
def TRIG : Fld := ⟨0x44, 0, 32⟩
def TRIG_EN : Fld := ⟨0x44, 31, 1⟩
def TRIG_SRC : Fld := ⟨0x44, 28, 3⟩
def TRIG_SLOT : Fld := ⟨0x44, 24, 4⟩
def TRIG_PERIOD_US : Fld := ⟨0x44, 0, 24⟩
def KICK : Fld := ⟨0x48, 0, 1⟩
def RUNSTAT : Fld := ⟨0x4C, 0, 32⟩
def RUNSTAT_LAST_SIGNAL : Fld := ⟨0x4C, 16, 8⟩
def RUNSTAT_PEND : Fld := ⟨0x4C, 2, 1⟩
def RUNSTAT_XFER : Fld := ⟨0x4C, 1, 1⟩
def RUNSTAT_BUSY : Fld := ⟨0x4C, 0, 1⟩
def FLAGS : Fld := ⟨0x50, 0, 32⟩
def FLAGS_SAT : Fld := ⟨0x50, 6, 1⟩
def FLAGS_CIRC_RELEN : Fld := ⟨0x50, 5, 1⟩
def FLAGS_AOV : Fld := ⟨0x50, 0, 4⟩
def KERNEL : Fld := ⟨0x54, 0, 32⟩
def EXT_BASE_LO : Fld := ⟨0x58, 24, 8⟩
def EXT_BASE_HI : Fld := ⟨0x5C, 0, 8⟩
def MAX_CYCLES : Fld := ⟨0x60, 0, 32⟩
def MBOX (i : Nat) : Fld := ⟨0x80 + 4 * i, 0, 32⟩
def RUNS_LO : Fld := ⟨0x100, 0, 32⟩
def RUNS_HI : Fld := ⟨0x104, 0, 32⟩
def BUSY_CYCLES_LO : Fld := ⟨0x108, 0, 32⟩
def BUSY_CYCLES_HI : Fld := ⟨0x10C, 0, 32⟩
def XFER_PAIRS_LO : Fld := ⟨0x110, 0, 32⟩
def XFER_PAIRS_HI : Fld := ⟨0x114, 0, 32⟩
def TRIG_OVERRUN : Fld := ⟨0x118, 0, 32⟩
def PIN_BLOCK : Fld := ⟨0x11C, 0, 32⟩
end NDL

namespace CLS0
def EXC_CFG : Fld := ⟨0x40, 0, 32⟩
def EXC_CFG_EN : Fld := ⟨0x40, 31, 1⟩
def EXC_CFG_QUEUE : Fld := ⟨0x40, 0, 17⟩
def EXC_RATE : Fld := ⟨0x44, 0, 32⟩
def EXC_RATE_BURST : Fld := ⟨0x44, 20, 12⟩
def EXC_RATE_RATE : Fld := ⟨0x44, 0, 20⟩
def HUSH : Fld := ⟨0x48, 0, 32⟩
def HUSH_MAX_US : Fld := ⟨0x48, 8, 7⟩
def HUSH_REQ : Fld := ⟨0x48, 0, 1⟩
def HUSH_STAT : Fld := ⟨0x4C, 0, 32⟩
def HUSH_STAT_LAST_US : Fld := ⟨0x4C, 16, 16⟩
def HUSH_STAT_EXPIRED : Fld := ⟨0x4C, 1, 1⟩
def HUSH_STAT_HUSHED : Fld := ⟨0x4C, 0, 1⟩
def FT_BASE_LO : Fld := ⟨0x50, 25, 7⟩
def FT_BASE_HI : Fld := ⟨0x54, 0, 8⟩
def FT_CMD : Fld := ⟨0x58, 0, 32⟩
def FT_CMD_DEPTH : Fld := ⟨0x58, 25, 3⟩
def FT_CMD_HIT_CLEAR : Fld := ⟨0x58, 24, 1⟩
def FT_CMD_LOCATION : Fld := ⟨0x58, 4, 19⟩
def FT_CMD_OP : Fld := ⟨0x58, 0, 4⟩
def FT_STAT : Fld := ⟨0x5C, 0, 32⟩
def FT_STAT_LOCATION : Fld := ⟨0x5C, 12, 19⟩
def FT_STAT_MOVES : Fld := ⟨0x5C, 8, 3⟩
def FT_STAT_RESULT : Fld := ⟨0x5C, 4, 4⟩
def FT_STAT_BUSY : Fld := ⟨0x5C, 0, 1⟩
def FT_SEED0 : Fld := ⟨0x60, 0, 32⟩
def FT_SEED1 : Fld := ⟨0x64, 0, 32⟩
def FT_SEED2 : Fld := ⟨0x68, 0, 32⟩
def FT_SEED3 : Fld := ⟨0x6C, 0, 32⟩
def FT_COUNT : Fld := ⟨0x70, 0, 20⟩
def ING (i : Nat) : Fld := ⟨0x80 + 4 * i, 0, 32⟩
def ING_KEY_INNER (i : Nat) : Fld := ⟨0x80 + 4 * i, 24, 1⟩
def ING_QUEUE (i : Nat) : Fld := ⟨0x80 + 4 * i, 4, 17⟩
def ING_VERDICT (i : Nat) : Fld := ⟨0x80 + 4 * i, 0, 4⟩
def RSS_SEL : Fld := ⟨0xA0, 0, 32⟩
def RSS_SEL_KEY : Fld := ⟨0xA0, 24, 1⟩
def RSS_SEL_FUNC : Fld := ⟨0xA0, 16, 8⟩
def RSS_SEL_INDEX : Fld := ⟨0xA0, 0, 9⟩
def RSS_DATA : Fld := ⟨0xA4, 0, 32⟩
def RULE_CMD : Fld := ⟨0xB0, 0, 32⟩
def RULE_CMD_OP : Fld := ⟨0xB0, 16, 2⟩
def RULE_CMD_INDEX : Fld := ⟨0xB0, 0, 13⟩
def RULE_STAT : Fld := ⟨0xB4, 0, 1⟩
def FT_ENTRY (i : Nat) : Fld := ⟨0x100 + 4 * i, 0, 32⟩
def RULE_STAGE (i : Nat) : Fld := ⟨0x200 + 4 * i, 0, 32⟩
end CLS0

namespace CLS1
def FRAMES_LO (i : Nat) : Fld := ⟨0x1040 + 8 * i, 0, 32⟩
def FRAMES_HI (i : Nat) : Fld := ⟨0x1044 + 8 * i, 0, 32⟩
def FT_HITS_LO : Fld := ⟨0x1080, 0, 32⟩
def FT_HITS_HI : Fld := ⟨0x1084, 0, 32⟩
def CACHE_MISSES_LO : Fld := ⟨0x1088, 0, 32⟩
def CACHE_MISSES_HI : Fld := ⟨0x108C, 0, 32⟩
def RULE_HITS_LO : Fld := ⟨0x1090, 0, 32⟩
def RULE_HITS_HI : Fld := ⟨0x1094, 0, 32⟩
def DEFAULTS_LO : Fld := ⟨0x1098, 0, 32⟩
def DEFAULTS_HI : Fld := ⟨0x109C, 0, 32⟩
def PARSE_DEEP : Fld := ⟨0x10A0, 0, 32⟩
def LEN_CONFLICT : Fld := ⟨0x10A4, 0, 32⟩
def EXC_ACTION : Fld := ⟨0x10A8, 0, 32⟩
def RSS_INVALID : Fld := ⟨0x10AC, 0, 32⟩
def EXC_SENT : Fld := ⟨0x10B0, 0, 32⟩
def EXC_DROP : Fld := ⟨0x10B4, 0, 32⟩
def ACTION_DROP : Fld := ⟨0x10B8, 0, 32⟩
def ACTION_ERR : Fld := ⟨0x10BC, 0, 32⟩
def CLS_OVF : Fld := ⟨0x10C0, 0, 32⟩
def HUSH_DROP : Fld := ⟨0x10C4, 0, 32⟩
def HUSHES : Fld := ⟨0x10C8, 0, 32⟩
def HUSH_EXPIRED : Fld := ⟨0x10CC, 0, 32⟩
def FT_FULL : Fld := ⟨0x10D0, 0, 32⟩
end CLS1

namespace SCHED0
def NODE_SEL : Fld := ⟨0x40, 0, 32⟩
def NODE_SEL_LEVEL : Fld := ⟨0x40, 16, 3⟩
def NODE_SEL_INDEX : Fld := ⟨0x40, 0, 16⟩
def NODE_CMD : Fld := ⟨0x44, 0, 32⟩
def NODE_CMD_RESULT : Fld := ⟨0x44, 8, 4⟩
def NODE_CMD_IDX16 : Fld := ⟨0x44, 4, 1⟩
def NODE_CMD_OP : Fld := ⟨0x44, 0, 2⟩
def NODE_DATA (i : Nat) : Fld := ⟨0x60 + 4 * i, 0, 32⟩
end SCHED0

namespace SCHED1
def ENQ_FRAMES_LO : Fld := ⟨0x1040, 0, 32⟩
def ENQ_FRAMES_HI : Fld := ⟨0x1044, 0, 32⟩
def ENQ_BYTES_LO : Fld := ⟨0x1048, 0, 32⟩
def ENQ_BYTES_HI : Fld := ⟨0x104C, 0, 32⟩
def TAIL_DROP : Fld := ⟨0x1050, 0, 32⟩
def YELLOW_DROP : Fld := ⟨0x1054, 0, 32⟩
def STALL_DROP : Fld := ⟨0x1058, 0, 32⟩
end SCHED1

namespace METER
def POL_SEL : Fld := ⟨0x40, 0, 32⟩
def POL_SEL_LEVEL : Fld := ⟨0x40, 16, 3⟩
def POL_SEL_INDEX : Fld := ⟨0x40, 0, 16⟩
def POL_CMD : Fld := ⟨0x44, 0, 32⟩
def POL_CMD_RESULT : Fld := ⟨0x44, 8, 4⟩
def POL_CMD_IDX16 : Fld := ⟨0x44, 4, 1⟩
def POL_CMD_OP : Fld := ⟨0x44, 0, 2⟩
def POL_DATA (i : Nat) : Fld := ⟨0x60 + 4 * i, 0, 32⟩
def GREEN : Fld := ⟨0x100, 0, 32⟩
def YELLOW : Fld := ⟨0x104, 0, 32⟩
def RED : Fld := ⟨0x108, 0, 32⟩
def RED_DROP : Fld := ⟨0x10C, 0, 32⟩
end METER

namespace PATTERN
def SEL : Fld := ⟨0x40, 0, 8⟩
def BASE_NS : Fld := ⟨0x44, 0, 30⟩
def BASE_SEC_LO : Fld := ⟨0x48, 0, 32⟩
def BASE_SEC_HI : Fld := ⟨0x4C, 0, 16⟩
def CYCLE_NS : Fld := ⟨0x50, 0, 30⟩
def LENGTH : Fld := ⟨0x54, 0, 11⟩
def CMD : Fld := ⟨0x58, 0, 2⟩
def STAT : Fld := ⟨0x5C, 0, 32⟩
def STAT_N : Fld := ⟨0x5C, 8, 24⟩
def STAT_LATE : Fld := ⟨0x5C, 3, 1⟩
def STAT_ERR : Fld := ⟨0x5C, 2, 1⟩
def STAT_PENDING : Fld := ⟨0x5C, 1, 1⟩
def STAT_ACTIVE : Fld := ⟨0x5C, 0, 1⟩
def ENT_INDEX : Fld := ⟨0x60, 0, 10⟩
def ENT_DATA (i : Nat) : Fld := ⟨0x68 + 4 * i, 0, 32⟩
def LATE_STARTS : Fld := ⟨0x100, 0, 32⟩
def PATTERN_ERRORS : Fld := ⟨0x104, 0, 32⟩
end PATTERN

namespace DEADLINE
def CFG : Fld := ⟨0x40, 0, 8⟩
def HOST_RATE : Fld := ⟨0x44, 0, 32⟩
def HOST_GAP_US : Fld := ⟨0x48, 0, 16⟩
def CLASS (i : Nat) : Fld := ⟨0x80 + 8 * i, 0, 32⟩
def CLASS_CLOSED (i : Nat) : Fld := ⟨0x80 + 8 * i, 31, 1⟩
def CLASS_POLICY (i : Nat) : Fld := ⟨0x80 + 8 * i, 30, 1⟩
def CLASS_SHARE (i : Nat) : Fld := ⟨0x80 + 8 * i, 16, 8⟩
def CLASS_RESERVE_US (i : Nat) : Fld := ⟨0x80 + 8 * i, 0, 16⟩
def CLASS_BOUND (i : Nat) : Fld := ⟨0x84 + 8 * i, 0, 17⟩
def BL_SEL : Fld := ⟨0xC0, 0, 32⟩
def BL_SEL_EGRESS : Fld := ⟨0xC0, 3, 8⟩
def BL_SEL_CLASS : Fld := ⟨0xC0, 0, 3⟩
def BL_READ (i : Nat) : Fld := ⟨0xC4 + 4 * i, 0, 32⟩
def CLASS_BL (i : Nat) : Fld := ⟨0xE0 + 4 * i, 0, 32⟩
def ADMITTED (i : Nat) : Fld := ⟨0x100 + 0x10 * i, 0, 32⟩
def NOT_ADMITTED (i : Nat) : Fld := ⟨0x104 + 0x10 * i, 0, 32⟩
def LATE (i : Nat) : Fld := ⟨0x108 + 0x10 * i, 0, 32⟩
def LATE_DROP (i : Nat) : Fld := ⟨0x10C + 0x10 * i, 0, 32⟩
def DL_IGNORED : Fld := ⟨0x180, 0, 32⟩
end DEADLINE

namespace SKEIN
def POOL_CTRL (i : Nat) : Fld := ⟨0x40 + 0x20 * i, 0, 32⟩
def POOL_CTRL_EN (i : Nat) : Fld := ⟨0x40 + 0x20 * i, 31, 1⟩
def POOL_CTRL_LOC (i : Nat) : Fld := ⟨0x40 + 0x20 * i, 30, 1⟩
def POOL_CTRL_SIZE (i : Nat) : Fld := ⟨0x40 + 0x20 * i, 24, 3⟩
def POOL_CTRL_BM_BASE (i : Nat) : Fld := ⟨0x40 + 0x20 * i, 0, 10⟩
def POOL_COUNT (i : Nat) : Fld := ⟨0x44 + 0x20 * i, 0, 25⟩
def POOL_BASE_LO (i : Nat) : Fld := ⟨0x48 + 0x20 * i, 12, 20⟩
def POOL_BASE_HI (i : Nat) : Fld := ⟨0x4C + 0x20 * i, 0, 8⟩
def POOL_FREE (i : Nat) : Fld := ⟨0x50 + 0x20 * i, 0, 25⟩
def POOL_MIN_FREE (i : Nat) : Fld := ⟨0x54 + 0x20 * i, 0, 25⟩
def POOL_RSV0 (i : Nat) : Fld := ⟨0x58 + 0x20 * i, 0, 32⟩
def POOL_RSV1 (i : Nat) : Fld := ⟨0x5C + 0x20 * i, 0, 32⟩
def PROD (i : Nat) : Fld := ⟨0x240 + 4 * i, 0, 32⟩
def PROD_ODD (i : Nat) : Fld := ⟨0x240 + 4 * i, 16, 16⟩
def PROD_EVEN (i : Nat) : Fld := ⟨0x240 + 4 * i, 0, 16⟩
def HOST_OWNER (i : Nat) : Fld := ⟨0x260 + 4 * i, 0, 32⟩
def ALLOC_SEL : Fld := ⟨0x280, 0, 4⟩
def ALLOC_LO : Fld := ⟨0x284, 0, 32⟩
def ALLOC_HI : Fld := ⟨0x288, 0, 32⟩
def ALLOC_HI_RESULT : Fld := ⟨0x288, 28, 4⟩
def ALLOC_HI_POOL : Fld := ⟨0x288, 0, 4⟩
def FREE_LO : Fld := ⟨0x28C, 0, 32⟩
def FREE_HI : Fld := ⟨0x290, 0, 4⟩
def FREE_RSP : Fld := ⟨0x294, 0, 4⟩
def VIOL_INFO : Fld := ⟨0x2A0, 0, 32⟩
def VIOL_INFO_RESULT : Fld := ⟨0x2A0, 28, 4⟩
def VIOL_INFO_HANDOVER : Fld := ⟨0x2A0, 24, 1⟩
def VIOL_INFO_CALLER : Fld := ⟨0x2A0, 16, 6⟩
def VIOL_INFO_OWNER : Fld := ⟨0x2A0, 8, 6⟩
def VIOL_INFO_POOL : Fld := ⟨0x2A0, 0, 4⟩
def VIOL_INDEX : Fld := ⟨0x2A4, 0, 32⟩
def FREE_OF_FREE : Fld := ⟨0x300, 0, 32⟩
def FREE_NOT_OWNER : Fld := ⟨0x304, 0, 32⟩
def STALE_HANDLE : Fld := ⟨0x308, 0, 32⟩
def BAD_HANDLE : Fld := ⟨0x30C, 0, 32⟩
def SPILL_BYTES_LO : Fld := ⟨0x310, 0, 32⟩
def SPILL_BYTES_HI : Fld := ⟨0x314, 0, 32⟩
def SPILL_REFUSED : Fld := ⟨0x318, 0, 32⟩
def EMPTY (i : Nat) : Fld := ⟨0x340 + 4 * i, 0, 32⟩
end SKEIN

namespace MEM0
def ECC_CTRL : Fld := ⟨0x40, 0, 1⟩
def SCRUB : Fld := ⟨0x44, 0, 32⟩
def SCRUB_EN : Fld := ⟨0x44, 31, 1⟩
def SCRUB_INTERVAL_H : Fld := ⟨0x44, 0, 16⟩
def SRAM_SCRUB : Fld := ⟨0x48, 0, 16⟩
def SCRUB_POS : Fld := ⟨0x4C, 0, 25⟩
def ERR_ADDR_LO : Fld := ⟨0x50, 0, 32⟩
def ERR_ADDR_HI : Fld := ⟨0x54, 0, 8⟩
def ERR_INFO : Fld := ⟨0x58, 0, 32⟩
def ERR_INFO_TYPE : Fld := ⟨0x58, 28, 4⟩
def ERR_INFO_SOURCE : Fld := ⟨0x58, 24, 4⟩
def ERR_INFO_CHANNEL : Fld := ⟨0x58, 16, 4⟩
def SRAM_ERR : Fld := ⟨0x60, 0, 32⟩
def SRAM_ERR_TYPE : Fld := ⟨0x60, 28, 4⟩
def SRAM_ERR_ARRAY : Fld := ⟨0x60, 24, 4⟩
def SRAM_ERR_WORD : Fld := ⟨0x60, 0, 24⟩
end MEM0

namespace MEM1
def CE (i : Nat) : Fld := ⟨0x1040 + 4 * i, 0, 32⟩
def UE (i : Nat) : Fld := ⟨0x1080 + 4 * i, 0, 32⟩
def POISON_READ : Fld := ⟨0x10C0, 0, 32⟩
def PARTIAL_POISON : Fld := ⟨0x10C4, 0, 32⟩
def POISON_FRAMES : Fld := ⟨0x10C8, 0, 32⟩
def SCRUB_PASSES : Fld := ⟨0x10CC, 0, 32⟩
def SRAM_CE : Fld := ⟨0x10D0, 0, 32⟩
def SRAM_UE : Fld := ⟨0x10D4, 0, 32⟩
end MEM1

namespace DARN
def CTRL : Fld := ⟨0x40, 0, 32⟩
def CTRL_AUTO : Fld := ⟨0x40, 31, 1⟩
def CTRL_THRESH : Fld := ⟨0x40, 0, 16⟩
def CMD : Fld := ⟨0x44, 0, 32⟩
def CMD_OP : Fld := ⟨0x44, 30, 2⟩
def CMD_ROW : Fld := ⟨0x44, 0, 25⟩
def STAT : Fld := ⟨0x48, 0, 32⟩
def STAT_BUSY : Fld := ⟨0x48, 31, 1⟩
def STAT_RESULT : Fld := ⟨0x48, 24, 4⟩
def STAT_USED : Fld := ⟨0x48, 0, 13⟩
def LAST : Fld := ⟨0x4C, 16, 12⟩
def DARN_ROW : Fld := ⟨0x50, 0, 25⟩
def DARNED : Fld := ⟨0x100, 0, 32⟩
def AUTO_DARNED : Fld := ⟨0x104, 0, 32⟩
def DARN_FULL : Fld := ⟨0x108, 0, 32⟩
end DARN

namespace HQ0
def FN_SEL : Fld := ⟨0x40, 0, 8⟩
def FN_CTRL : Fld := ⟨0x44, 0, 32⟩
def FN_CTRL_FORCE_STOP : Fld := ⟨0x44, 3, 1⟩
def FN_CTRL_BLOCK_RESET : Fld := ⟨0x44, 2, 1⟩
def FN_CTRL_STOP_REQ : Fld := ⟨0x44, 1, 1⟩
def FN_CTRL_RUN : Fld := ⟨0x44, 0, 1⟩
def FN_STAT : Fld := ⟨0x48, 0, 32⟩
def FN_STAT_FAULT_CODE : Fld := ⟨0x48, 8, 8⟩
def FN_STAT_PEND_RUN : Fld := ⟨0x48, 3, 1⟩
def FN_STAT_STATE : Fld := ⟨0x48, 0, 3⟩
def FN_QBASE : Fld := ⟨0x4C, 0, 17⟩
def FN_QCOUNT : Fld := ⟨0x50, 0, 32⟩
def FN_QCOUNT_ERR : Fld := ⟨0x50, 31, 1⟩
def FN_QCOUNT_COUNT : Fld := ⟨0x50, 0, 18⟩
def FN_WIN_LO : Fld := ⟨0x54, 24, 8⟩
def FN_WIN_HI : Fld := ⟨0x58, 0, 8⟩
def EP_SEL : Fld := ⟨0x60, 0, 17⟩
def EP_CMD : Fld := ⟨0x64, 0, 32⟩
def EP_CMD_RESULT : Fld := ⟨0x64, 8, 4⟩
def EP_CMD_OP : Fld := ⟨0x64, 0, 2⟩
def EP_DATA (i : Nat) : Fld := ⟨0x80 + 4 * i, 0, 32⟩
end HQ0

namespace HQ1
def TX_FRAMES_LO : Fld := ⟨0x1040, 0, 32⟩
def TX_FRAMES_HI : Fld := ⟨0x1044, 0, 32⟩
def TX_BYTES_LO : Fld := ⟨0x1048, 0, 32⟩
def TX_BYTES_HI : Fld := ⟨0x104C, 0, 32⟩
def RX_FRAMES_LO : Fld := ⟨0x1050, 0, 32⟩
def RX_FRAMES_HI : Fld := ⟨0x1054, 0, 32⟩
def RX_BYTES_LO : Fld := ⟨0x1058, 0, 32⟩
def RX_BYTES_HI : Fld := ⟨0x105C, 0, 32⟩
def BAD_DESC : Fld := ⟨0x1060, 0, 32⟩
def DMA_ERR : Fld := ⟨0x1064, 0, 32⟩
def DB_ERR : Fld := ⟨0x1068, 0, 32⟩
def DB_DROP : Fld := ⟨0x106C, 0, 32⟩
def CQ_WAITS : Fld := ⟨0x1070, 0, 32⟩
def RX_TOO_LONG : Fld := ⟨0x1074, 0, 32⟩
def IRQ_SENT : Fld := ⟨0x1078, 0, 32⟩
def IRQ_HELD : Fld := ⟨0x107C, 0, 32⟩
def PME_SENT : Fld := ⟨0x1080, 0, 32⟩
end HQ1

namespace CIPH0
def LINE_KEYS : Fld := ⟨0x40, 0, 32⟩
def LINE_KEYS_US_IDX_B : Fld := ⟨0x40, 9, 1⟩
def LINE_KEYS_US_ON_B : Fld := ⟨0x40, 8, 1⟩
def LINE_KEYS_INST_B : Fld := ⟨0x40, 6, 2⟩
def LINE_KEYS_US_IDX_A : Fld := ⟨0x40, 3, 1⟩
def LINE_KEYS_US_ON_A : Fld := ⟨0x40, 2, 1⟩
def LINE_KEYS_INST_A : Fld := ⟨0x40, 0, 2⟩
def LINE_POLICY : Fld := ⟨0x44, 0, 2⟩
def MASK_CFG : Fld := ⟨0x48, 0, 16⟩
def LA_LOCK : Fld := ⟨0x50, 0, 32⟩
def LA_LOCK_HELD : Fld := ⟨0x50, 31, 1⟩
def LA_LOCK_HOLDER : Fld := ⟨0x50, 8, 8⟩
def LA_LOCK_RELEASE : Fld := ⟨0x50, 1, 1⟩
def LA_LOCK_ACQUIRE : Fld := ⟨0x50, 0, 1⟩
def LA_STAT : Fld := ⟨0x54, 0, 32⟩
def LA_STAT_RESULTS : Fld := ⟨0x54, 8, 5⟩
def LA_STAT_QUEUED : Fld := ⟨0x54, 0, 5⟩
def LA_SUBMIT : Fld := ⟨0x58, 0, 1⟩
def LA_JOB (i : Nat) : Fld := ⟨0x80 + 4 * i, 0, 32⟩
def LA_RESULT (i : Nat) : Fld := ⟨0x100 + 4 * i, 0, 32⟩
end CIPH0

namespace CIPH1
def MSEC_PORT (i : Nat) : Fld := ⟨0x1040 + 4 * i, 0, 32⟩
def MSEC_PORT_EN (i : Nat) : Fld := ⟨0x1040 + 4 * i, 31, 1⟩
def MSEC_PORT_VALIDATE (i : Nat) : Fld := ⟨0x1040 + 4 * i, 4, 2⟩
def MSEC_PORT_TX_AN (i : Nat) : Fld := ⟨0x1040 + 4 * i, 0, 2⟩
def MSEC_SEL : Fld := ⟨0x1060, 0, 32⟩
def MSEC_SEL_PORT : Fld := ⟨0x1060, 8, 2⟩
def MSEC_SEL_SC : Fld := ⟨0x1060, 4, 4⟩
def MSEC_SEL_AN : Fld := ⟨0x1060, 0, 2⟩
def MSEC_CMD : Fld := ⟨0x1064, 0, 32⟩
def MSEC_CMD_RESULT : Fld := ⟨0x1064, 8, 4⟩
def MSEC_CMD_OP : Fld := ⟨0x1064, 0, 2⟩
def MSEC_DATA (i : Nat) : Fld := ⟨0x1080 + 4 * i, 0, 32⟩
end CIPH1

namespace CIPH2
def DECRYPTED (i : Nat) : Fld := ⟨0x2040 + 0x20 * i, 0, 32⟩
def TAG_FAIL (i : Nat) : Fld := ⟨0x2044 + 0x20 * i, 0, 32⟩
def REPLAY (i : Nat) : Fld := ⟨0x2048 + 0x20 * i, 0, 32⟩
def NO_KEY (i : Nat) : Fld := ⟨0x204C + 0x20 * i, 0, 32⟩
def KEY_NOT_UNICAST (i : Nat) : Fld := ⟨0x2050 + 0x20 * i, 0, 32⟩
def CLEAR_DROP (i : Nat) : Fld := ⟨0x2054 + 0x20 * i, 0, 32⟩
def ENCRYPTED (i : Nat) : Fld := ⟨0x2058 + 0x20 * i, 0, 32⟩
def PN_EXHAUSTED (i : Nat) : Fld := ⟨0x205C + 0x20 * i, 0, 32⟩
def MSEC_IN_OK (i : Nat) : Fld := ⟨0x2100 + 0x10 * i, 0, 32⟩
def MSEC_IN_BAD (i : Nat) : Fld := ⟨0x2104 + 0x10 * i, 0, 32⟩
def MSEC_OUT (i : Nat) : Fld := ⟨0x2108 + 0x10 * i, 0, 32⟩
def MSEC_PN_EXHAUSTED (i : Nat) : Fld := ⟨0x210C + 0x10 * i, 0, 32⟩
def LA_JOBS : Fld := ⟨0x2140, 0, 32⟩
def LA_FAILED : Fld := ⟨0x2144, 0, 32⟩
def LA_PREEMPT : Fld := ⟨0x2148, 0, 32⟩
def KEY_REFUSED : Fld := ⟨0x214C, 0, 32⟩
end CIPH2

namespace SITE
def CTRL : Fld := ⟨0x40, 0, 32⟩
def CTRL_LOOP : Fld := ⟨0x40, 4, 3⟩
def CTRL_FEC : Fld := ⟨0x40, 2, 2⟩
def CTRL_SPEED : Fld := ⟨0x40, 0, 1⟩
def STAT : Fld := ⟨0x44, 0, 32⟩
def STAT_MOD_PRESENT : Fld := ⟨0x44, 5, 1⟩
def STAT_LPI_RX : Fld := ⟨0x44, 4, 1⟩
def STAT_LPI_TX : Fld := ⟨0x44, 3, 1⟩
def STAT_FEC_LOCK : Fld := ⟨0x44, 1, 1⟩
def STAT_LINK : Fld := ⟨0x44, 0, 1⟩
def MAC : Fld := ⟨0x48, 0, 32⟩
def MAC_BCAST : Fld := ⟨0x48, 18, 1⟩
def MAC_ALL_MULTI : Fld := ⟨0x48, 17, 1⟩
def MAC_PROMISC : Fld := ⟨0x48, 16, 1⟩
def MAC_MAX_LEN : Fld := ⟨0x48, 0, 14⟩
def PTP_CTRL : Fld := ⟨0x4C, 0, 32⟩
def PTP_CTRL_QUEUE : Fld := ⟨0x4C, 8, 17⟩
def PTP_CTRL_ASYM_EN : Fld := ⟨0x4C, 3, 1⟩
def PTP_CTRL_RX_APPEND : Fld := ⟨0x4C, 2, 1⟩
def PTP_CTRL_ONE_STEP : Fld := ⟨0x4C, 1, 1⟩
def PTP_CTRL_EN : Fld := ⟨0x4C, 0, 1⟩
def LPI : Fld := ⟨0x50, 0, 32⟩
def LPI_EN : Fld := ⟨0x50, 31, 1⟩
def LPI_WAKE_US : Fld := ⟨0x50, 8, 8⟩
def LPI_IDLE_US : Fld := ⟨0x50, 0, 8⟩
def TX_DELAY : Fld := ⟨0x54, 0, 32⟩
def RX_DELAY : Fld := ⟨0x58, 0, 32⟩
def ASYM : Fld := ⟨0x5C, 0, 32⟩
def ADDR_LO (i : Nat) : Fld := ⟨0x80 + 8 * i, 0, 32⟩
def ADDR_HI (i : Nat) : Fld := ⟨0x84 + 8 * i, 0, 32⟩
def ADDR_HI_VALID (i : Nat) : Fld := ⟨0x84 + 8 * i, 31, 1⟩
def ADDR_HI_MAC (i : Nat) : Fld := ⟨0x84 + 8 * i, 0, 16⟩
def RX_FRAMES_LO : Fld := ⟨0x200, 0, 32⟩
def RX_FRAMES_HI : Fld := ⟨0x204, 0, 32⟩
def RX_BYTES_LO : Fld := ⟨0x208, 0, 32⟩
def RX_BYTES_HI : Fld := ⟨0x20C, 0, 32⟩
def TX_FRAMES_LO : Fld := ⟨0x210, 0, 32⟩
def TX_FRAMES_HI : Fld := ⟨0x214, 0, 32⟩
def TX_BYTES_LO : Fld := ⟨0x218, 0, 32⟩
def TX_BYTES_HI : Fld := ⟨0x21C, 0, 32⟩
def RX_FCS_ERR : Fld := ⟨0x220, 0, 32⟩
def RX_RUNT : Fld := ⟨0x224, 0, 32⟩
def RX_OVERSIZE : Fld := ⟨0x228, 0, 32⟩
def RX_MACCTL : Fld := ⟨0x22C, 0, 32⟩
def RX_FILTERED : Fld := ⟨0x230, 0, 32⟩
def RX_OVF : Fld := ⟨0x234, 0, 32⟩
def TX_OVERSIZE : Fld := ⟨0x238, 0, 32⟩
def FEC_CORR : Fld := ⟨0x23C, 0, 32⟩
def FEC_UNCORR : Fld := ⟨0x240, 0, 32⟩
def LPI_ENTRIES : Fld := ⟨0x244, 0, 32⟩
def LOOP_ERR : Fld := ⟨0x248, 0, 32⟩
end SITE

namespace PLY
def CTRL : Fld := ⟨0x40, 0, 32⟩
def CTRL_PRECODE_AUTO : Fld := ⟨0x40, 8, 1⟩
def CTRL_PRECODE : Fld := ⟨0x40, 4, 4⟩
def CTRL_LOOP : Fld := ⟨0x40, 0, 3⟩
def LINK : Fld := ⟨0x44, 0, 32⟩
def LINK_PRECODE : Fld := ⟨0x44, 8, 4⟩
def LINK_TWIN_ID : Fld := ⟨0x44, 4, 1⟩
def LINK_STATE : Fld := ⟨0x44, 0, 3⟩
def TRACE : Fld := ⟨0x48, 0, 32⟩
def TKO_CTRL : Fld := ⟨0x4C, 0, 32⟩
def TKO_CTRL_TKO_EN : Fld := ⟨0x4C, 31, 1⟩
def TKO_CTRL_AUTO_TKO : Fld := ⟨0x4C, 30, 1⟩
def TKO_CTRL_HB_MISS : Fld := ⟨0x4C, 16, 8⟩
def TKO_CTRL_GUARD_US : Fld := ⟨0x4C, 0, 16⟩
def TKO_GATE : Fld := ⟨0x50, 0, 12⟩
def TKO_STAT : Fld := ⟨0x54, 0, 32⟩
def TKO_STAT_HB_OK : Fld := ⟨0x54, 6, 1⟩
def TKO_STAT_SERVE_OUT : Fld := ⟨0x54, 5, 1⟩
def TKO_STAT_SERVE_IN : Fld := ⟨0x54, 4, 1⟩
def TKO_STAT_ROLE : Fld := ⟨0x54, 0, 3⟩
def TKO_EGRESS (i : Nat) : Fld := ⟨0x80 + 4 * i, 0, 32⟩
def TKO_EGRESS_VALID (i : Nat) : Fld := ⟨0x80 + 4 * i, 31, 1⟩
def TKO_EGRESS_EGRESS (i : Nat) : Fld := ⟨0x80 + 4 * i, 0, 8⟩
def TWIN_OFFSET_LO : Fld := ⟨0xC0, 0, 32⟩
def TWIN_OFFSET_HI : Fld := ⟨0xC4, 0, 32⟩
def TX_FLITS_LO : Fld := ⟨0x200, 0, 32⟩
def TX_FLITS_HI : Fld := ⟨0x204, 0, 32⟩
def RX_FLITS_LO : Fld := ⟨0x208, 0, 32⟩
def RX_FLITS_HI : Fld := ⟨0x20C, 0, 32⟩
def CW_CORR : Fld := ⟨0x210, 0, 32⟩
def CW_UNCORR : Fld := ⟨0x214, 0, 32⟩
def TRAIN_FAIL : Fld := ⟨0x218, 0, 32⟩
def LINK_DOWN : Fld := ⟨0x21C, 0, 32⟩
def RX_CUT : Fld := ⟨0x220, 0, 32⟩
def LOOP_ERR : Fld := ⟨0x224, 0, 32⟩
def HB_LOST : Fld := ⟨0x228, 0, 32⟩
def TAKEOVERS : Fld := ⟨0x22C, 0, 32⟩
def TKO_PLY_LOST : Fld := ⟨0x230, 0, 32⟩
def TKO_ABORT : Fld := ⟨0x234, 0, 32⟩
def DUAL_SERVE : Fld := ⟨0x238, 0, 32⟩
end PLY

-- The common header (R32), present in every page.
namespace HDR
def PAGE_ID : Fld := ⟨0x000, 0, 32⟩
def PAGE_CAP : Fld := ⟨0x004, 0, 32⟩
def PAGE_CTRL : Fld := ⟨0x008, 0, 32⟩
def PAGE_STAT : Fld := ⟨0x00C, 0, 32⟩
def PAGE_EVENT : Fld := ⟨0x010, 0, 32⟩
def PAGE_EVENT_MASK : Fld := ⟨0x014, 0, 32⟩
def PAGE_ERR_INFO : Fld := ⟨0x018, 0, 32⟩
def PAGE_ERR_COUNT : Fld := ⟨0x018, 24, 8⟩
def PAGE_SCRATCH : Fld := ⟨0x01C, 0, 32⟩
def PAGE_ABANDON : Fld := ⟨0x020, 0, 32⟩
def PAGE_SNAP_GEN : Fld := ⟨0x024, 0, 32⟩
end HDR

/-- Header registers that hold bits of their own; `PAGE_ID`, `PAGE_CAP` and `PAGE_STAT` are computed and
`PAGE_CTRL` is write-only.  Bits [7:4] of `PAGE_EVENT` are RSV. -/
def rowsHeader : List RegRow := [
  ⟨0x000, 1, 4, 0, 0xFFFFFFFF, 0, 0, 0, 0, 0, .any, false, false⟩, -- PAGE_ID
  ⟨0x004, 1, 4, 0, 0xFFFFFFFF, 0, 0, 0, 0, 0, .any, false, false⟩, -- PAGE_CAP
  ⟨0x008, 1, 4, 0, 0, 0, 0, 0, 0, 0, .any, false, false⟩, -- PAGE_CTRL
  ⟨0x00C, 1, 4, 0, 0xFF0F, 0, 0, 0, 0, 0, .any, false, false⟩, -- PAGE_STAT
  ⟨0x010, 1, 4, 0, 0, 0xFFFFFF0F, 0, 0, 0, 0, .any, false, false⟩, -- PAGE_EVENT
  ⟨0x014, 1, 4, 0xFFFFFFFF, 0, 0, 0, 0, 0, 0xFFFFFFFF, .any, false, false⟩, -- PAGE_EVENT_MASK
  ⟨0x018, 1, 4, 0, 0, 0, 0, 0xFFFF8FFF, 0, 0, .any, false, false⟩, -- PAGE_ERR_INFO
  ⟨0x01C, 1, 4, 0xFFFFFFFF, 0, 0, 0, 0, 0, 0, .any, false, false⟩, -- PAGE_SCRATCH
  ⟨0x020, 1, 4, 0, 0xFFFFFFFF, 0, 0, 0, 0, 0, .any, false, false⟩, -- PAGE_ABANDON
  ⟨0x024, 1, 4, 0, 0xFFFFFFFF, 0, 0, 0, 0, 0, .any, false, false⟩] -- PAGE_SNAP_GEN

end Sys2Proof.Machine
end

