-- ==== Sys2Proof/Machine/Crypto.lean ====
section
/-!
DEFINITION. Machine/Crypto.lean: the algorithms the chapters name by their standards: SHAKE256 (R67, R76), Ed448
(R60, R67, R74, R77), X448 (R249), AES-256 in Galois/Counter mode (R459, R465), the CTR_DRBG (R87), and the cyclic redundancy checks.

PRESUMED: the chapters name these algorithms and do not restate them; they are written here from general knowledge of
the standards (log entry 5).
-/

namespace Sys2Proof.Machine.Crypto

/-! ### SHAKE256 -/

/-- One step of the eight-bit register that gives the bits of Keccak's round constants. -/
def rcStep (r : Nat) : Nat := if r < 128 then 2 * r else (2 * r) ^^^ 0x171

/-- A lane that takes bit `2 ^ j - 1` from each of `n` outputs of that register, and the register after them. -/
def rcLane : Nat → Nat → Nat → Nat × Nat
  | 0, _, r => (0, r)
  | n + 1, j, r =>
    let z := rcLane n (j + 1) (rcStep r)
    (z.1 + r % 2 * 2 ^ (2 ^ j - 1), z.2)

/-- The sum of the five lanes of column `x`; lane (x, y) stands at x + 5 y. -/
def columnSum (a : List (BitVec 64)) (x : Nat) : BitVec 64 :=
  (List.range 5).foldl (fun v y => v ^^^ a.getD (x % 5 + 5 * y) 0) 0

/-- Theta: every lane takes in the columns beside its own. -/
def theta (a : List (BitVec 64)) : List (BitVec 64) :=
  let d := (List.range 5).map (fun x => columnSum a (x + 4) ^^^ (columnSum a (x + 1)).rotateLeft 1)
  a.zipIdx.map (fun v => v.1 ^^^ d.getD (v.2 % 5) 0)

/-- Rho and pi as one walk over the 24 lanes they move: the lane carried lands, turned by a triangular number, where the
next one is picked up. -/
def rhoPi : Nat → Nat → Nat → Nat → BitVec 64 → List (BitVec 64) → List (BitVec 64)
  | 0, _, _, _, _, a => a
  | n + 1, t, x, y, carried, a =>
    let y' := (2 * x + 3 * y) % 5
    rhoPi n (t + 1) y y' (a.getD (y + 5 * y') 0) (a.set (y + 5 * y') (carried.rotateLeft (t * (t + 1) / 2 % 64)))

/-- Chi, within each row of five lanes. -/
def chi (a : List (BitVec 64)) : List (BitVec 64) :=
  let at_ := fun k i => a.getD ((i + k) % 5 + i / 5 * 5) 0
  (List.range 25).map (fun i => at_ 0 i ^^^ (at_ 2 i &&& ~~~ at_ 1 i))

/-- `n` rounds of Keccak-f[1600] from a register of the round constants. -/
def keccakRounds : Nat → Nat → List (BitVec 64) → List (BitVec 64)
  | 0, _, a => a
  | n + 1, r, a =>
    let c := rcLane 7 0 r
    let b := theta a
    let e := chi (rhoPi 24 1 1 0 (b.getD 1 0) b)
    keccakRounds n c.2 (e.set 0 (e.getD 0 0 ^^^ BitVec.ofNat 64 c.1))

/-- Keccak-f[1600]. -/
def keccakF (a : List (BitVec 64)) : List (BitVec 64) := keccakRounds 24 1 a

/-- A block of bytes exclusive-ored into the first lanes of the state. -/
def keccakXor (a : List (BitVec 64)) (block : List Byte) : List (BitVec 64) :=
  a.zipIdx.map (fun v => v.1 ^^^ BitVec.ofNat 64 (leNat ((block.drop (8 * v.2)).take 8)))

/-- The sponge's absorbing of whole blocks of 136 bytes. -/
def absorb : Nat → List (BitVec 64) → List Byte → List (BitVec 64)
  | 0, a, _ => a
  | n + 1, a, bs => absorb n (keccakF (keccakXor a (bs.take 136))) (bs.drop 136)

/-- The sponge's squeezing of `n` blocks of 136 bytes. -/
def squeeze : Nat → List (BitVec 64) → List Byte
  | 0, _ => []
  | n + 1, a => ((a.take 17).map (fun l => leBytes 8 l.toNat)).flatten ++ squeeze n (keccakF a)

/-- The message with the padding of SHAKE256. -/
def shakePad (bs : List Byte) : List Byte :=
  let k := 136 - bs.length % 136
  if k = 1 then bs ++ [0x9F] else bs ++ [0x1F] ++ List.replicate (k - 2) 0 ++ [0x80]

/-- SHAKE256 of a message, `n` bytes long. -/
def shake256 (n : Nat) (bs : List Byte) : List Byte :=
  let p := shakePad bs
  (squeeze ((n + 135) / 136) (absorb (p.length / 136) (List.replicate 25 0) p)).take n

/-! ### Curve448: Ed448 and X448 -/

/-- The field prime 2^448 - 2^224 - 1. -/
def p448 : Nat := 2 ^ 448 - 2 ^ 224 - 1

/-- The order of the base point. -/
def l448 : Nat := 2 ^ 446 - 13818066809895115352007386748515426880336692474882178609894547503885

/-- `b ^ e mod p448`, by squaring; `n` bounds the bits of `e`. -/
def powMod448 : Nat → Nat → Nat → Nat
  | 0, _, _ => 1
  | n + 1, b, e =>
    let r := powMod448 n (b * b % p448) (e / 2)
    if e % 2 = 1 then r * b % p448 else r

/-- Subtraction modulo p448. -/
def sub448 (a b : Nat) : Nat := (a + p448 - b % p448) % p448

/-- A point in projective coordinates. -/
structure Pt where
  x : Nat
  y : Nat
  z : Nat
deriving DecidableEq, Repr

/-- The neutral point. -/
def Pt.zero : Pt := ⟨0, 1, 1⟩

/-- The base point of Ed448. -/
def Pt.base : Pt :=
  ⟨224580040295924300187604334099896036246789641632564134246125461686950415467406032909029192869357953282578032075146446173674602635247710,
   298819210078481492676017930443930673437544040154080242095928241372331506189835876003536878655418784733982303233503462500531545062832660,
   1⟩

/-- The curve constant d = -39081. -/
def d448 : Nat := p448 - 39081

/-- Addition of points; it is complete. -/
def Pt.add (a b : Pt) : Pt :=
  let za := a.z * b.z % p448
  let zb := za * za % p448
  let c := a.x * b.x % p448
  let d := a.y * b.y % p448
  let e := d448 * c % p448 * d % p448
  let f := sub448 zb e
  let g := (zb + e) % p448
  let h := (a.x + a.y) * (b.x + b.y) % p448
  ⟨za * f % p448 * sub448 (sub448 h c) d % p448, za * g % p448 * sub448 d c % p448, f * g % p448⟩

/-- `k` times a point; `n` bounds the bits of `k`. -/
def Pt.mul : Nat → Nat → Pt → Pt
  | 0, _, _ => Pt.zero
  | n + 1, k, q =>
    let r := Pt.mul n (k / 2) (Pt.add q q)
    if k % 2 = 1 then Pt.add r q else r

/-- Whether two points are the same. -/
def Pt.same (a b : Pt) : Bool :=
  decide (a.x * b.z % p448 = b.x * a.z % p448) && decide (a.y * b.z % p448 = b.y * a.z % p448)

/-- A point's 57-byte form. -/
def Pt.encode (a : Pt) : List Byte :=
  let zi := powMod448 448 a.z (p448 - 2)
  let x := a.x * zi % p448
  let y := a.y * zi % p448
  leBytes 56 y ++ [if x % 2 = 1 then 0x80 else 0x00]

/-- The point of a 57-byte form, if it is one. -/
def Pt.decode (bs : List Byte) : Option Pt :=
  let last := (bs.getD 56 0).toNat
  let y := leNat (bs.take 56)
  if bs.length ≠ 57 ∨ last % 128 ≠ 0 ∨ p448 ≤ y then none
  else
    let u := sub448 (y * y) 1
    let v := sub448 (d448 * (y * y % p448)) 1
    let u3v := u * u % p448 * u % p448 * v % p448
    let u5v3 := u3v * u % p448 * u % p448 * v % p448 * v % p448
    let x := u3v * powMod448 448 u5v3 ((p448 - 3) / 4) % p448
    if v * (x * x % p448) % p448 ≠ u then none
    else if x = 0 ∧ last = 128 then none
    else if x % 2 = last / 128 then some ⟨x, y, 1⟩ else some ⟨(p448 - x) % p448, y, 1⟩

/-- The domain separator of Ed448 with an empty context: "SigEd448", 0, 0. -/
def dom4 : List Byte := [0x53, 0x69, 0x67, 0x45, 0x64, 0x34, 0x34, 0x38, 0, 0]

/-- The secret scalar and the prefix of an Ed448 seed. -/
def ed448Secret (seed : List Byte) : Nat × List Byte :=
  let h := shake256 114 seed
  let n := leNat (h.take 56)
  (n - n % 4 - (n / 2 ^ 447 % 2) * 2 ^ 447 + 2 ^ 447, h.drop 57)

/-- The 57-byte Ed448 public key of a seed. -/
def ed448Public (seed : List Byte) : List Byte := (Pt.mul 448 (ed448Secret seed).1 Pt.base).encode

/-- The 114-byte Ed448 signature of a message under a seed. -/
def ed448Sign (seed msg : List Byte) : List Byte :=
  let sk := ed448Secret seed
  let pk := ed448Public seed
  let r := leNat (shake256 114 (dom4 ++ sk.2 ++ msg)) % l448
  let rb := (Pt.mul 448 r Pt.base).encode
  let k := leNat (shake256 114 (dom4 ++ rb ++ pk ++ msg)) % l448
  rb ++ leBytes 57 ((r + k * sk.1) % l448)

/-- Whether an Ed448 signature of a message verifies under a public key. -/
def ed448Verify (pk msg sig : List Byte) : Bool :=
  match Pt.decode pk, Pt.decode (sig.take 57) with
  | some a, some r =>
    let sc := leNat (sig.drop 57)
    let k := leNat (shake256 114 (dom4 ++ sig.take 57 ++ pk ++ msg)) % l448
    decide (sig.length = 114) && decide (sc < l448) &&
      Pt.same (Pt.mul 3 4 (Pt.mul 448 sc Pt.base)) (Pt.mul 3 4 (Pt.add r (Pt.mul 448 k a)))
  | _, _ => false

/-- The Montgomery ladder of X448 over the bits of `k` from bit `n - 1` down. -/
def x448Ladder (x1 k : Nat) : Nat → (Nat × Nat × Nat × Nat) → (Nat × Nat × Nat × Nat)
  | 0, t => t
  | n + 1, (x2, z2, x3, z3) =>
    let swap := k / 2 ^ n % 2 = 1
    let (x2, z2, x3, z3) := if swap then (x3, z3, x2, z2) else (x2, z2, x3, z3)
    let a := (x2 + z2) % p448
    let aa := a * a % p448
    let b := sub448 x2 z2
    let bb := b * b % p448
    let e := sub448 aa bb
    let c := (x3 + z3) % p448
    let d := sub448 x3 z3
    let da := d * a % p448
    let cb := c * b % p448
    let y3 := (da + cb) % p448 * ((da + cb) % p448) % p448
    let w := sub448 da cb
    let w3 := x1 * (w * w % p448) % p448
    let y2 := aa * bb % p448
    let w2 := e * ((aa + 39081 * e) % p448) % p448
    let r := if swap then (y3, w3, y2, w2) else (y2, w2, y3, w3)
    x448Ladder x1 k n r

/-- X448 of a 56-byte scalar and a 56-byte coordinate. -/
def x448 (scalar u : List Byte) : List Byte :=
  let n := leNat (scalar.take 56)
  let k := n - n % 4 - (n / 2 ^ 447 % 2) * 2 ^ 447 + 2 ^ 447
  let x1 := leNat (u.take 56) % p448
  let (x2, z2, _, _) := x448Ladder x1 k 448 (1, 0, x1, 1)
  leBytes 56 (x2 * powMod448 448 z2 (p448 - 2) % p448)

/-- The X448 base coordinate, 5. -/
def x448Base : List Byte := leBytes 56 5

/-! ### AES-256 and Galois/Counter mode -/

/-- Multiplication by x in the AES field. -/
def xtime (a : Nat) : Nat := if a < 128 then 2 * a else (2 * a) ^^^ 0x11B

/-- Multiplication in the AES field; `n` bounds the bits of `b`. -/
def gmul : Nat → Nat → Nat → Nat
  | 0, _, _ => 0
  | n + 1, a, b => (if b % 2 = 1 then a else 0) ^^^ gmul n (xtime a) (b / 2)

/-- `a ^ 254` in the AES field: the inverse, with 0 to 0. -/
def ginv (a : Nat) : Nat :=
  let m := fun x y => gmul 8 x y
  let a2 := m a a
  let a3 := m a2 a
  let a6 := m a3 a3
  let a12 := m a6 a6
  let a15 := m a12 a3
  let a30 := m a15 a15
  let a60 := m a30 a30
  let a120 := m a60 a60
  let a126 := m a120 a6
  let a127 := m a126 a
  m a127 a127

/-- The AES S-box. -/
def sbox (a : Byte) : Byte :=
  let i := BitVec.ofNat 8 (ginv a.toNat)
  i ^^^ i.rotateLeft 1 ^^^ i.rotateLeft 2 ^^^ i.rotateLeft 3 ^^^ i.rotateLeft 4 ^^^ 0x63

/-- Byte-wise exclusive or of two lists. -/
def xorBytes (a b : List Byte) : List Byte := List.zipWith (· ^^^ ·) a b

/-- Words of the AES-256 key schedule, newest first; `n` words still to come. -/
def aesExpand : Nat → Nat → Nat → List (List Byte) → List (List Byte)
  | 0, _, _, ws => ws
  | n + 1, i, rcon, ws =>
    let t := ws.headD []
    let t' :=
      if i % 8 = 0 then
        match (t.drop 1 ++ t.take 1).map sbox with
        | [] => []
        | b :: bs => (b ^^^ BitVec.ofNat 8 rcon) :: bs
      else if i % 8 = 4 then t.map sbox
      else t
    aesExpand n (i + 1) (if i % 8 = 0 then xtime rcon else rcon) (xorBytes (ws.getD 7 []) t' :: ws)

/-- The 15 round keys of a 32-byte key. -/
def aesRoundKeys (key : List Byte) : List (List Byte) :=
  let ws := (aesExpand 52 8 1 ((List.range 8).map (fun i => (key.drop (4 * i)).take 4)).reverse).reverse
  (List.range 15).map (fun r => ((ws.drop (4 * r)).take 4).flatten)

/-- The byte rotation of AES's rows. -/
def shiftRows (b : List Byte) : List Byte :=
  (List.range 16).map (fun i => b.getD ((i + 4 * (i % 4)) % 16) 0)

/-- AES's mixing of one column. -/
def mixColumn (c : List Byte) : List Byte :=
  (List.range 4).map (fun i =>
    let g := fun k m => BitVec.ofNat 8 (gmul 8 (c.getD ((i + k) % 4) 0).toNat m)
    g 0 2 ^^^ g 1 3 ^^^ g 2 1 ^^^ g 3 1)

/-- AES's mixing of all four columns. -/
def mixColumns (b : List Byte) : List Byte :=
  ((List.range 4).map (fun i => mixColumn ((b.drop (4 * i)).take 4))).flatten

/-- AES-256 of one 16-byte block. -/
def aesBlock (key block : List Byte) : List Byte :=
  let rk := aesRoundKeys key
  let s0 := xorBytes block (rk.headD [])
  let s13 := ((rk.drop 1).take 13).foldl (fun s k => xorBytes (mixColumns (shiftRows (s.map sbox))) k) s0
  xorBytes (shiftRows (s13.map sbox)) (rk.getD 14 [])

/-- Multiplication in the field of GHASH; operands are 128-bit strings with bit 0 most significant. -/
def ghashMul : Nat → Nat → Nat → Nat → Nat
  | 0, _, _, z => z
  | n + 1, x, v, z =>
    let z := if x / 2 ^ n % 2 = 1 then z ^^^ v else z
    let v := if v % 2 = 1 then (v / 2) ^^^ (0xE1 * 2 ^ 120) else v / 2
    ghashMul n x v z

/-- GHASH over whole blocks. -/
def ghash (h : Nat) : Nat → Nat → List Byte → Nat
  | 0, y, _ => y
  | n + 1, y, bs => ghash h n (ghashMul 128 (y ^^^ beNat (bs.take 16)) h 0) (bs.drop 16)

/-- Bytes padded with zeros to whole 16-byte blocks. -/
def pad16 (bs : List Byte) : List Byte := bs ++ List.replicate ((16 - bs.length % 16) % 16) 0

/-- The key stream of counter mode from a 96-bit nonce, from block counter `c` on. -/
def ctrStream (key nonce : List Byte) : Nat → Nat → List Byte
  | 0, _ => []
  | n + 1, c => aesBlock key (nonce ++ beBytes 4 c) ++ ctrStream key nonce n (c + 1)

/-- Counter mode over a message. -/
def ctrCrypt (key nonce msg : List Byte) : List Byte :=
  xorBytes msg (ctrStream key nonce ((msg.length + 15) / 16) 2)

/-- The 16-byte tag of a ciphertext and its associated data. -/
def gcmTag (key nonce aad ct : List Byte) : List Byte :=
  let h := beNat (aesBlock key (List.replicate 16 0))
  let data := pad16 aad ++ pad16 ct ++ beBytes 8 (8 * aad.length) ++ beBytes 8 (8 * ct.length)
  xorBytes (beBytes 16 (ghash h (data.length / 16) 0 data)) (aesBlock key (nonce ++ beBytes 4 1))

/-- Sealing: the ciphertext and its tag, `tagLen` bytes long. -/
def gcmSeal (key nonce aad pt : List Byte) (tagLen : Nat) : List Byte × List Byte :=
  let ct := ctrCrypt key nonce pt
  (ct, (gcmTag key nonce aad ct).take tagLen)

/-- Opening: the plaintext, if the tag matches. -/
def gcmOpen (key nonce aad ct tag : List Byte) : Option (List Byte) :=
  if (gcmTag key nonce aad ct).take tag.length = tag then some (ctrCrypt key nonce ct) else none

/-! ### CTR_DRBG with AES-256 and a derivation function (R87) -/

/-- The working state of the generator: key, counter block V and requests since the last reseed. -/
structure Drbg where
  key : List Byte
  v : List Byte
  requests : Nat
deriving DecidableEq, Repr

/-- The generator before it is seeded. -/
def Drbg.zero : Drbg := ⟨List.replicate 32 0, List.replicate 16 0, 0⟩

/-- `n` output blocks from a counter block, each one further, and the counter block after them. -/
def drbgBlocks (key : List Byte) : Nat → List Byte → List Byte × List Byte
  | 0, v => ([], v)
  | n + 1, v =>
    let v' := beBytes 16 (beNat v + 1)
    let rest := drbgBlocks key n v'
    (aesBlock key v' ++ rest.1, rest.2)

/-- The update of key and V with 48 bytes. -/
def Drbg.update (g : Drbg) (provided : List Byte) : Drbg :=
  let x := xorBytes (drbgBlocks g.key 3 g.v).1 provided
  ⟨x.take 32, x.drop 32, g.requests⟩

/-- The chained encryption of whole blocks under a key. -/
def chainBlocks (key : List Byte) : Nat → List Byte → List Byte → List Byte
  | 0, acc, _ => acc
  | n + 1, acc, bs => chainBlocks key n (aesBlock key (xorBytes acc (bs.take 16))) (bs.drop 16)

/-- The derivation function: 48 bytes from an input. -/
def deriveSeed (input : List Byte) : List Byte :=
  let s := pad16 (beBytes 4 input.length ++ beBytes 4 48 ++ input ++ [0x80])
  let k0 := (List.range 32).map (BitVec.ofNat 8)
  let bcc := fun (i : Nat) =>
    let m := beBytes 4 i ++ List.replicate 12 0 ++ s
    chainBlocks k0 (m.length / 16) (List.replicate 16 0) m
  let key := bcc 0 ++ bcc 1
  let x1 := aesBlock key (bcc 2)
  let x2 := aesBlock key x1
  x1 ++ x2 ++ aesBlock key x2

/-- The generator reseeded with entropy. -/
def Drbg.reseed (g : Drbg) (entropy : List Byte) : Drbg := { g.update (deriveSeed entropy) with requests := 1 }

/-- `n` bytes of output and the generator after them. -/
def Drbg.generate (g : Drbg) (n : Nat) : List Byte × Drbg :=
  let r := drbgBlocks g.key ((n + 15) / 16) g.v
  (r.1.take n, { ({ g with v := r.2 } : Drbg).update (List.replicate 48 0) with requests := g.requests + 1 })

/-! ### Cyclic redundancy checks -/

/-- One bit of a reflected CRC of width up to 32. -/
def crcBitR (poly v : Nat) : Nat := if v % 2 = 1 then (v / 2) ^^^ poly else v / 2

/-- `n` bits of a reflected CRC. -/
def crcBitsR (poly : Nat) : Nat → Nat → Nat
  | 0, v => v
  | n + 1, v => crcBitsR poly n (crcBitR poly v)

/-- A reflected CRC over bytes, from a starting register, without the final inversion. -/
def crcR (poly init : Nat) (bs : List Byte) : Nat := bs.foldl (fun v b => crcBitsR poly 8 (v ^^^ b.toNat)) init

/-- One bit of a most-significant-first CRC of width `w`. -/
def crcBitM (w poly v : Nat) : Nat := if v / 2 ^ (w - 1) % 2 = 1 then (2 * v) % 2 ^ w ^^^ poly else 2 * v

/-- `n` bits of a most-significant-first CRC. -/
def crcBitsM (w poly : Nat) : Nat → Nat → Nat
  | 0, v => v
  | n + 1, v => crcBitsM w poly n (crcBitM w poly v)

/-- A most-significant-first CRC of width `w` (at least 8) over bytes. -/
def crcM (w poly init : Nat) (bs : List Byte) : Nat :=
  bs.foldl (fun v b => crcBitsM w poly 8 (v ^^^ b.toNat * 2 ^ (w - 8))) init

/-- The Ethernet frame check sequence as a number: reflected polynomial 0x04C11DB7, inverted. -/
def crc32 (bs : List Byte) : Nat := crcR 0xEDB88320 0xFFFFFFFF bs ^^^ 0xFFFFFFFF

/-- The Castagnoli check: reflected polynomial 0x1EDC6F41, inverted. -/
def crc32c (bs : List Byte) : Nat := crcR 0x82F63B78 0xFFFFFFFF bs ^^^ 0xFFFFFFFF

end Sys2Proof.Machine.Crypto
end

