-- ==== Sys2Proof/Machine/SMap.lean ====
section
/-!
DEFINITION. Machine/SMap.lean: sparse maps in one canonical form.

A sparse map is a list of (key, value) pairs with the keys strictly rising and no pair that says what an
unlisted key reads as.  Register contents, memory bytes and the block's tables are all held so; equal maps are
then equal lists.
-/

namespace Sys2Proof.Machine

/-- A sparse map from `Nat` keys; what an unlisted key reads as is given at each use. -/
abbrev SMap (α : Type) := List (Nat × α)

variable {α : Type}

/-- The listed value of a key. -/
def SMap.find : SMap α → Nat → Option α
  | [], _ => none
  | (k', v) :: m, k => if k = k' then some v else SMap.find m k

/-- The value of a key, listed or not. -/
def SMap.get (d : Nat → α) (m : SMap α) (k : Nat) : α := (SMap.find m k).getD (d k)

/-- The map with every pair of this key taken out. -/
def SMap.erase : SMap α → Nat → SMap α
  | [], _ => []
  | (k', v) :: m, k => if k = k' then SMap.erase m k else (k', v) :: SMap.erase m k

/-- The map with a pair put at its place. -/
def SMap.insert : SMap α → Nat → α → SMap α
  | [], k, v => [(k, v)]
  | (k', v') :: m, k, v =>
    if k < k' then (k, v) :: (k', v') :: m
    else if k = k' then (k, v) :: m
    else (k', v') :: SMap.insert m k v

/-- Write a key: a value equal to the unlisted one removes the pair. -/
def SMap.set [DecidableEq α] (d : Nat → α) (m : SMap α) (k : Nat) (v : α) : SMap α :=
  if v = d k then SMap.erase m k else SMap.insert m k v

/-- Write a run of keys from `k` on. -/
def SMap.setList [DecidableEq α] (d : Nat → α) (m : SMap α) (k : Nat) : List α → SMap α
  | [] => m
  | v :: vs => SMap.setList d (SMap.set d m k v) (k + 1) vs

/-- Read `n` keys from `k` on. -/
def SMap.getList (d : Nat → α) (m : SMap α) (k : Nat) : Nat → List α
  | 0 => []
  | n + 1 => SMap.get d m k :: SMap.getList d m (k + 1) n

/-- Drop every pair whose key satisfies `p`: those keys read as unlisted again. -/
def SMap.drop (p : Nat → Bool) (m : SMap α) : SMap α := m.filter (fun kv => !p kv.1)

/-- Keys strictly rising, all of them above `b` (when given). -/
def SMap.sortedFrom : Option Nat → SMap α → Bool
  | _, [] => true
  | none, (k, _) :: m => SMap.sortedFrom (some k) m
  | some b, (k, _) :: m => decide (b < k) && SMap.sortedFrom (some k) m

/-- The canonical form: keys strictly rising and no pair that says what an unlisted key reads as. -/
def SMap.wf [DecidableEq α] (d : Nat → α) (m : SMap α) : Bool :=
  SMap.sortedFrom none m && m.all (fun kv => decide (kv.2 ≠ d kv.1))

end Sys2Proof.Machine
end

