-- ==== Sys2Proof/Machine/State.lean ====
section
/-!
DEFINITION. Machine/State.lean: the state of the LB880, as plain data, and the state right after a cold reset.

Register contents are one sparse map by BAR0 address whose reset values are the rows of Machine/RegTable.lean.
State the chapters describe apart from registers (tables, queues, engines, messages in progress) has fields of its
own.  Fields whose docstring begins with MODEL'S OWN are not the spec's.
-/

namespace Sys2Proof.Machine

/-- Why a command stops the machine.  The LB880 meets every command with an effect, so no meaning raises one. -/
inductive Fault where
  /-- Raised by no meaning of this model; it keeps the type from being empty.  Safe: the machine stops. -/
  | none
deriving DecidableEq, Repr

/-- Why the model refuses a command. -/
inductive Refusal where
  /-- The command has no meaning yet; its mnemonic is given.  Raised by an arm of `exec` only.  Safe. -/
  | notModelled (mnemonic : String)
deriving DecidableEq, Repr

/-- The power domains (chapter 17). -/
inductive Dom where
  | holder | timeio | pcie | mem | hook | core | ndl | lineA | lineB | site | ply
deriving DecidableEq, Repr

/-- A burst in the transmit chain, with the settings in force at its first sample (R146 to R148, R152, R211). -/
structure TxChain where
  gen1 : Bool
  /-- Symbols of lead and of preamble, and in all. -/
  lead : Nat
  npre : Nat
  len : Nat
  /-- BEN_ADV and BEN_HOLD: LA_BEN is asserted `adv` DAC samples before S0 and deasserted `hold` after the last sample. -/
  adv : Nat
  hold : Nat
  /-- The 12 bytes of the burst header, and the information bytes of the payload. -/
  header : List Byte
  payload : List Byte
  /-- Subcarriers of the payload symbols and their loadings. -/
  load : List (Nat × Nat)
  /-- Mask codes of subcarriers 24 to 923, FIR taps and DPD coefficients; none where the stage is not enabled. -/
  mask : Option (List Nat)
  taps : Option (List Int)
  coefs : Option (List (Int × Int))
deriving DecidableEq, Repr

/-- DAC samples of a burst from S0 until LA_BEN is deasserted (R152). -/
def TxChain.samples (t : TxChain) : Nat := 2080 * t.len + t.hold

/-- The Fladon-1 receiver (R156): FFE and DFE taps in units of 2^-30, the last 31 samples and 3 decisions, newest first, the
last equalised sample, and the phase of the timing detector. -/
structure Nrz where
  ffe : List Int
  dfe : List Int
  xs : List Int
  ds : List Int
  y : Int
  phase : Int
deriving DecidableEq, Repr

/-- What leaves the device, as far as the chapters say what leaves it. -/
inductive Emission where
  /-- A DMA write of bytes to a host address. -/
  | dmaWrite (addr : Nat) (bytes : List Byte)
  /-- A ToD sentence on TOD_TX (R289). -/
  | tod (chars : List Byte)
  /-- A PTM request (R293). -/
  | ptmRequest
  /-- The MSI-X message of a function's vector (R430, R447). -/
  | msix (func vector : Nat)
  /-- A PME message of a function (R432). -/
  | pme (func : Nat)
  /-- A frame sent on a site port, FCS included (R504). -/
  | siteFrame (port : Nat) (bytes : List Byte)
  /-- A frame sent over Ply (R517). -/
  | plyFrame (bytes : List Byte)
  /-- A TIME, BEAT or TKO flit sent over Ply (R514, R518, R519): 1, 2 or 3, and what it carries. -/
  | plyFlit (type : Nat) (words : List Nat)
  /-- A burst sent on a line port (R152, R198): S0 in DAC samples from line frame 0, and what makes its samples, LA_BEN's
  edges among it. -/
  | burst (port : Nat) (start : Nat) (chain : TxChain)
  /-- A record written into the inbox of a Hook core (4,096 + core), or into an event queue in Hook memory (R444). -/
  | hookRecord (target : Nat) (bytes : List Byte)
  /-- The internal interrupt for an event queue in Hook memory (R447). -/
  | hookIrq (queue : Nat)
  /-- A line of the firmware log on the debug UART (R62). -/
  | uart (bytes : List Byte)
  /-- A code that SIGNAL of a Needle engine posts to Hook core 3 (R181). -/
  | signal (engine : Nat) (code : Byte)
deriving DecidableEq, Repr

/-- The states of a function (R38), encoded 0 to 4 in `PAGE_STAT.STATE`. -/
inductive FState where
  | off | castingOn | running | bindingOff | fault
deriving DecidableEq, Repr

/-- What the device keeps of a function's state: STATE, PEND_RUN and FAULT_CODE of `PAGE_STAT` (R38). -/
structure FnRec where
  st : FState
  pendRun : Bool
  code : Nat
deriving DecidableEq, Repr

/-- The latch of one source in one page (R29, R31): which `_LO` register it read last, by its offset in the page, and
the high half copied then. -/
structure LoLatch where
  lo : Option Nat
  hi : Word
deriving DecidableEq, Repr

/-- The staging register of one source in one page (R30, R31): the `_LO` register written since its last commit. -/
structure Stage where
  lo : Option Nat
  val : Word
deriving DecidableEq, Repr

/-- The snapshot unit (R41 to R47): the pending snapshot and the series it belongs to. -/
structure SnapUnit where
  /-- A snapshot is armed or its captures are not complete (`SNAP.STAT.PENDING`). -/
  pending : Bool
  /-- MODE as sampled: capture-and-clear. -/
  clear : Bool
  /-- PERIOD as sampled, in ns; 0 for a single snapshot. -/
  periodNs : Nat
  /-- First instant of the series' grid, in ns of the time counter. -/
  gridNs : Nat
  /-- Instant of the pending snapshot, in ns of the time counter. -/
  atNs : Nat
  /-- Page slots that have captured the pending snapshot. -/
  captured : List Nat
  /-- The scheduled instant in force (R551), in ns. -/
  armedNs : Nat
deriving DecidableEq, Repr

/-- The header fields of an image that firmware keeps while the image runs (R67). -/
structure ImgInfo where
  version : Nat
  rollback : Nat
  digest : List Byte
deriving DecidableEq, Repr

/-- The boot sequence (R54, R66, R68, R71, R72). -/
structure Boot where
  /-- Boots since the last cold reset (R77). -/
  count : Nat
  /-- LPDDR5X has been trained. -/
  memTrained : Bool
  /-- LPDDR5X training ended in failure. -/
  memFailed : Bool
  /-- The bank whose body is being read, its header checks passed. -/
  loading : Option Bank
  /-- Banks still to try after `loading`. -/
  left : List Bank
  /-- The Hook firmware image now running. -/
  fw : Option ImgInfo
  /-- The vendor Needle kernel set now loaded. -/
  kernels : Option ImgInfo
  /-- The customer Needle kernel loaded last. -/
  customer : Option ImgInfo
  /-- The boot configuration image in use. -/
  config : Option ImgInfo
  /-- Lines of the boot and update log (R79): step and result. -/
  log : List (Nat × Nat)
  /-- Chunks of a recovery image that RECOVERY_LOAD on channel 1 has brought so far (R78). -/
  chunks : List Byte
deriving DecidableEq, Repr

/-- The phase of a live update (R79, R82 to R86), as UPDATE_STATUS reports it. -/
inductive UpdPhase where
  | idle | verifying | moving (core : Nat) | waitCaston | done | rolledBack
deriving DecidableEq, Repr

/-- What a port's registration does when the move of its Hook core ends (R83, R84). -/
inductive LineDue where
  /-- A short message and a tunnel message that arrived. -/
  | short (m : List Byte)
  | tunnel (m : List Byte)
  /-- The conditions of LISTEN looked at again. -/
  | tryAnnounce
  | defectLoss
  | defectClear
  | treeChange
  /-- T_HOLD has run out. -/
  | holdExpiry
  /-- A local mute was set or cleared. -/
  | mute
  /-- LINE_CAST_ON withdrew ENABLE. -/
  | castOff
  /-- LEAVE has been sent, or its wait is over. -/
  | leave
  /-- Bind-off has begun. -/
  | bind
deriving DecidableEq, Repr

/-- The live update (R82 to R86). -/
structure Update where
  phase : UpdPhase
  /-- The bank being moved to. -/
  bank : Option Bank
  /-- The image being moved to. -/
  img : Option ImgInfo
  /-- Cores already moved. -/
  moved : List Nat
  /-- UPDATE_ABORT was taken: no further core moves. -/
  aborting : Bool
  /-- The core of a phase MOVING has started to move and has not ended it. -/
  active : Bool
deriving DecidableEq, Repr

/-- The fuse array (R55): programmed bits and the protection set-up the deny fuses leave. -/
structure Fuses where
  /-- Programmed bits; an unlisted bit is blank. -/
  bits : SMap Bool
  debug : BitVec 2
  bootSrcAllow : BitVec 4
  ownerKeysLocked : Bool
  oobFull : Bool
  userKernels : Bool
  personality : BitVec 2
deriving DecidableEq, Repr

/-- The random source (R87, R88) and debug authentication (R60). -/
structure SecState where
  /-- Consecutive failed health-test blocks. -/
  failedRun : Nat
  /-- The nonce of the last DEBUG_CHALLENGE not yet answered. -/
  challenge : Option (List Byte)
  /-- The measurement log (R76): register and input, oldest first. -/
  measLog : List (Nat × List Byte)
  /-- The CTR_DRBG (R87). -/
  drbg : Crypto.Drbg
deriving DecidableEq, Repr

/-- One mailbox channel's request held while core 0 moves (R83). -/
structure MbxHeld where
  ch : Chan
  tag : Byte
  req : MbxReq
  /-- Its response is discarded: PF0 has had an FLR since (R439). -/
  mute : Bool
deriving DecidableEq, Repr

/-- What a host send asks for and completes (R420 to R422, R425). -/
structure Send where
  /-- Endpoint, index of its first descriptor and descriptors used. -/
  ep : Nat
  index : Nat
  ndesc : Nat
  /-- Identifier of the transmit stamp, when one is asked for. -/
  tsId : Option Nat
  /-- Launch time in units of 2^-40 ns. -/
  launch : Option Nat
  /-- Deadline class given by the descriptor. -/
  dl : Option Nat
  csumL3 : Bool
  csumL4 : Bool
  /-- Frame bytes the completion reports. -/
  length : Nat
  /-- It is a segment of a TSO frame (R422). -/
  tso : Bool
  /-- Epoch of its function when it was fetched: after frogging no completion is written (R436). -/
  epoch : Nat
deriving DecidableEq, Repr

/-- A frame on its way through the packet path. -/
structure Pkt where
  /-- Ingress (R319). -/
  ingress : Nat
  /-- Bytes the parser sees: no FCS, no Fladon CRC. -/
  bytes : List Byte
  svc : Nat
  ce : Bool
  func : Nat
  /-- Skein buffers: pool, index and GEN. -/
  bufs : List (Nat × Nat × Nat)
  /-- Units of a line receive buffer it holds (R113). -/
  units : Nat
  send : Option Send
  /-- Its data is poisoned (R399). -/
  poison : Bool
  /-- The receive stamp appended on delivery to the host (R507). -/
  trailer : List Byte
deriving DecidableEq, Repr

/-- A completion entry waiting to be written (R425, R428): its bytes without PHASE, whether it is a receive completion,
whether it counts as sent with OK, and its frame bytes. -/
structure Cpl where
  bytes : List Byte
  rx : Bool
  ok : Bool
  length : Nat
deriving DecidableEq, Repr

/-- A frame fetched whose data is being read (R421): how its descriptors give it, and its buffers. -/
structure Fetch where
  send : Send
  /-- LEN and, where the descriptor names a buffer, its handle, for each descriptor. -/
  parts : List (Nat × Option Nat)
  bufs : List (Nat × Nat × Nat)
  /-- MSS when the frame is segmented. -/
  mss : Option Nat
deriving DecidableEq, Repr

/-- A queue endpoint (R417): the written fields of its context, its indices and status, and its work in progress. -/
structure Ep where
  ctrl : Nat
  irq : Nat
  modTimer : Nat
  sqBase : Nat
  rqBase : Nat
  cqBase : Nat
  sqErr : Bool
  rqErr : Bool
  armed : Bool
  pend : Bool
  phase : Bool
  idle : Bool
  sqTail : Nat
  sqHead : Nat
  rqTail : Nat
  rqHead : Nat
  cqHead : Nat
  cqTail : Nat
  /-- Completions since the last interrupt, and whether MOD_TIMER has run out since the first of them (R430). -/
  n : Nat
  timeUp : Bool
  /-- IRQ as it stood at the last completion (R418), and `Clock.cycles` at the first completion since the last interrupt. -/
  irqNow : Nat
  firstAt : Nat
  /-- Completions that wait (R428, R432). -/
  wait : List Cpl
  /-- Frames fetched whose completion has not been written. -/
  inFlight : Nat
  fetching : List Fetch
  /-- Receive descriptors read and not yet used: address and size (R423). -/
  rxd : List (Nat × Nat)
  /-- TSO frames in progress, by index of the first descriptor: segments left, status so far, DROPPED (R427). -/
  tso : SMap (Nat × Nat × Bool)
deriving DecidableEq, Repr

/-- What PF0 gives a function and what its configuration space holds, as far as commands read it (R412, R416, R430,
R432, R434). -/
structure FnHost where
  qbase : Nat
  qcount : Nat
  /-- `FN_QBASE` as written, until a write of `FN_QCOUNT` commits it. -/
  qbaseStaged : Nat
  qerr : Bool
  /-- BAR4 window. -/
  win : Nat
  busMaster : Bool
  d3 : Bool
  pmeEn : Bool
  pmeStatus : Bool
  msixEn : Bool
  /-- Masked vectors, pending vectors, and Function Mask. -/
  masked : SMap Bool
  pba : SMap Bool
  fnMask : Bool
  vfEn : Bool
  /-- Advances whenever the function is frogged: completions of frames fetched before are not written. -/
  epoch : Nat
deriving DecidableEq, Repr

/-- The link states that commands move between (R8, R431). -/
inductive LinkState where
  | reset | down | l0 | l1 | exiting
deriving DecidableEq, Repr

/-- The states of a delineator (R110). -/
inductive Delin where
  | hunt | presync | sync | anchored
deriving DecidableEq, Repr

/-- A run of a stream's bytes as the decoder handed them over: erased when there is no data. -/
structure Chunk where
  len : Nat
  data : Option (List Byte)
deriving DecidableEq, Repr

/-- The stream bytes of one line frame (R97, R98), by their positions in the stream. -/
structure Seg where
  start : Nat
  len : Nat
  /-- Stream position that FIRST_FEH gives (R110). -/
  anchor : Option Nat
  /-- The run of a lost header (R552). -/
  lost : Bool
  /-- The first predicted position of the line frame has been judged against the anchor. -/
  met : Bool
deriving DecidableEq, Repr

/-- A frame delineated: the stream position of its FEH and the FEH. -/
structure DFrame where
  at_ : Nat
  feh : Nat
  /-- Units of the receive buffer reserved while it was held (R113). -/
  units : Nat
  /-- A fragment that found no room while it was held (R114): the open reassembly is dropped in its turn. -/
  gone : Bool
deriving DecidableEq, Repr

/-- The reassembly context of a stream (R108). -/
structure Reasm where
  feh : Nat
  bytes : List Byte
  units : Nat
deriving DecidableEq, Repr

/-- A codeword of a stream still to come in from the decoder, as the layout of R98 gives it. -/
structure Cw where
  /-- FRAME_COUNT of its line frame. -/
  frame : Nat
  /-- Where its bytes begin among the profile's bytes of the line frame. -/
  pos : Nat
  /-- Information bytes. -/
  info : Nat
  /-- How many of them belong to the control area. -/
  ctrl : Nat
  /-- R99, R102 or R137 erases them. -/
  erased : Bool
  /-- No codeword of them comes from the decoder: a lost header (R552), a loading that is missing (R102), or a codeword
  left undecoded (R137). -/
  gone : Bool
  /-- End of its last coded bit after the line frame boundary, in ticks of 1/768 ns (R206). -/
  ends : Nat
deriving DecidableEq, Repr

/-- One profile stream: its bytes, its delineator and its reassembly context (R98, R101, R108, R110). -/
structure Stream where
  on : Bool
  /-- Stream position of the first byte kept. -/
  base : Nat
  chunks : List Chunk
  segs : List Seg
  layout : List Cw
  st : Delin
  /-- The search offset or the predicted position. -/
  q : Nat
  /-- Candidate c. -/
  cand : Nat
  /-- Confirmations had. -/
  confirms : Nat
  miss : Nat
  /-- The next position is the next anchor. -/
  waitAnchor : Bool
  held : List DFrame
  ready : List DFrame
  ctx : Option Reasm
  /-- The profile had runs in the line frame now ending (R117). -/
  hadRuns : Bool
  lodBad : Nat
  lodGood : Nat
deriving DecidableEq, Repr

/-- The control area of one line frame (R97): the bytes decoded so far, each with the instant its codeword ended, its
decode instant, and the sections not yet passed on. -/
structure CtrlArea where
  frame : Nat
  encOff : Nat
  /-- What has been decoded of it: offset, length, data, end of the codeword and instant of its decoding, in ticks of
  1/768 ns. -/
  parts : List (Nat × Nat × Option (List Byte) × Nat × Nat)
  /-- Offset and length of each section still waiting: grant map, management, time. -/
  grant : Option (Nat × Nat)
  mgmt : Option (Nat × Nat)
  time : Option (Nat × Nat)
deriving DecidableEq, Repr

/-- Sums over the line frames of a defect window (R117). -/
structure BerSum where
  corrected : Nat
  coded : Nat
  uncorr : Nat
  decoded : Nat
deriving DecidableEq, Repr

/-- The downstream framer of a port (chapter 4). -/
structure Down where
  /-- Consecutive misses in LOCKED (R115). -/
  miss : Nat
  /-- Position of the last boundary, in ADC samples or Fladon-1 bits. -/
  boundary : Nat
  /-- FRAME_COUNT of the line frame now received, followed by one over a lost header. -/
  count : Nat
  /-- TREE_ID of the previous valid preamble. -/
  tree : Option Nat
  /-- The line frame now received has a valid preamble whose header body has not come yet. -/
  bodyDue : Bool
  /-- Present defects before ranking (R117): LOS, LSS, LOF, LOD, SF, SD. -/
  raw : List Bool
  /-- Power windows in a row below the threshold, and above the clearing level (R117). -/
  losBad : Nat
  losGood : Nat
  w64 : BerSum
  w1024 : BerSum
  /-- Lost headers of the last 8 line frames, newest first (R219). -/
  lostRecent : List Bool
  streams : SMap Stream
  ctrls : List CtrlArea
  /-- Short messages handed to the Hook core of the port, oldest first (R227). -/
  mgmtIn : List (List Byte)
  /-- Tunnel payloads handed to the Hook core of the port, oldest first: service port and payload (R109). -/
  tunnelIn : List (Nat × List Byte)
  /-- Time messages handed to Hook core 3, oldest first (R275). -/
  timeIn : List (List Byte)
deriving DecidableEq, Repr

/-- What waits in the decoder queue (R137). -/
structure QCw where
  kind : CwKind
  profile : Nat
  /-- The demapper's soft values of its coded bits (R134). -/
  soft : List Int
deriving DecidableEq, Repr

/-- The modem and the optics interface of a port (chapter 5). -/
structure Modem where
  /-- Place of the last sync symbol found (R128). -/
  last : Option Nat
  /-- Places of the sync symbols found in ACQUIRE before it, newest first (R128). -/
  finds : List Nat
  /-- Line frames in a row that count towards LOCKED. -/
  good : Nat
  /-- Sync symbols missed in a row. -/
  missed : Nat
  /-- Estimates E in force of the data subcarriers 16 to 1,919 (R131): real and imaginary, in units of 2^-16. -/
  est : List (Int × Int)
  /-- Raw estimates of the last sync symbol found. -/
  raw : List (Int × Int)
  /-- Noise variances of the even subcarriers (R132), in units of 2^-16. -/
  noise : List Nat
  /-- Loading tables (R140), by table * 4,096 + bank * 2,048 + subcarrier; bank 1 is active. -/
  load : SMap Nat
  /-- The decoder queue; the first is in decode (R137). -/
  queue : List QCw
  /-- The codeword in decode ends after its current iteration (R137): 1 if it has had 12 or more, 2 whatever it has had;
  else 0. -/
  cut : Nat
  /-- Line frames since the last channel-estimate record (R150). -/
  eqCount : Nat
  /-- LA_PRESENT_N is high; LA_FAULT_N is low. -/
  absent : Bool
  fault : Bool
  /-- LA_FAULT_N has been low, and LASER_EN has not been written 1 since. -/
  faultHeld : Bool
  /-- A transmit-monitor capture is being taken from a burst (R151, R185): FRAME_COUNT, DAC sample index of the first
  preamble sample, burst profile, OFFSET, and the burst's chain. -/
  txmonBurst : Option (Nat × Int × Nat × Nat × TxChain)
  /-- RSSI samples of the last 1 ms, newest first (R162). -/
  rssi : List Nat
  /-- The Fladon-1 receiver (R156). -/
  nrz : Nrz
  /-- |E|² of the data subcarriers in the last 64 captures (R305), newest first, in units of 2^-32, and `Clock.cycles` of the
  newest. -/
  powers : List (List Nat)
  powersAt : Nat
  /-- SNR of the data subcarriers in the last 16 captures, newest first, in 0.1 dB (R143), and the downstream and upstream
  loadings proposed last (R144). -/
  snrs : List (List Int)
  proposed : List Nat × List Nat
deriving DecidableEq, Repr


/-- A block move outstanding (R186): destination, source and pairs. -/
structure NMove where
  dst : Nat
  src : Nat
  pairs : Nat
  /-- The cycle of the run with which it completes. -/
  due : Nat
deriving DecidableEq, Repr

/-- A level of the loop stack (R181): its counter, its first instruction and its last. -/
structure NLoop where
  lc : Fin 2
  start : BitVec 14
  end_ : BitVec 14
deriving DecidableEq, Repr

/-- A kernel loaded into an engine (R190): VERSION, the entry instruction, the program and the
initial images of X, Y and C. -/
structure NKernel where
  version : Nat
  entry : BitVec 14
  prog : List Word
  x : List (BitVec 16)
  y : List (BitVec 16)
  c : List (BitVec 16)
  opmode : Nat
  trigSrc : Nat
  trigSlot : Nat
  periodUs : Nat
  maxCycles : Nat
deriving DecidableEq, Repr

/-- The instruction an engine waits at while block moves are outstanding (R186); HALT is `halting`. -/
inductive NWait where
  | none | waitx | xfer
deriving DecidableEq, Repr

/-- A Needle engine beside its registers of the page (R165 to R189); the sticky flags of ST are those of `NDLn.FLAGS`. -/
structure Ndl where
  d : Vector (BitVec 16) 16
  ac : Vector (BitVec 40) 4
  p : Vector (BitVec 24) 8
  m : Vector (BitVec 24) 8
  b : Vector (BitVec 24) 8
  l : Vector (BitVec 16) 8
  bind : BitVec 32
  ix : BitVec 16
  lc : Vector (BitVec 16) 2
  z : Bool
  n : Bool
  c : Bool
  pc : BitVec 14
  /-- Loop and call stacks, innermost first. -/
  loops : List NLoop
  calls : List (BitVec 14)
  /-- Executions a REP still asks for of the instruction at PC. -/
  rep : Option Nat
  /-- What the repeat cache holds (R176): first instruction and how many. -/
  cache : Option (BitVec 14 × Nat)
  /-- HALT has been reached and block moves are outstanding (R187). -/
  halting : Bool
  /-- Accumulators that the previous instruction wrote (R177). -/
  accW : List (Fin 4)
  /-- Cycles of the run in progress. -/
  cycles : Nat
  /-- What it waits at. -/
  wait : NWait
  /-- Steps of DIVS since AC0 was last written otherwise (R181). -/
  steps : Nat
  /-- Block moves outstanding, oldest first (R186). -/
  moves : List NMove
  /-- Claims held (R183): slot and record. -/
  claims : List (Fin 16 × Bool)
  /-- Program memory. -/
  prog : List Word
  /-- X, Y and C by word address (R167). -/
  mem : SMap (BitVec 16)
  kernel : Option NKernel
  /-- A kernel that is loaded when bind-off is complete (R191). -/
  next : Option NKernel
  /-- FAULT_CODE of the last fault (R193). -/
  lastFault : Nat
deriving DecidableEq, Repr

/-- An engine after a device reset. -/
def Ndl.reset : Ndl where
  d := Vector.replicate 16 0
  ac := Vector.replicate 4 0
  p := Vector.replicate 8 0
  m := Vector.replicate 8 0
  b := Vector.replicate 8 0
  l := Vector.replicate 8 0
  bind := 0
  ix := 0
  lc := Vector.replicate 2 0
  z := false
  n := false
  c := false
  pc := 0
  loops := []
  calls := []
  rep := none
  cache := none
  halting := false
  accW := []
  cycles := 0
  wait := .none
  steps := 0
  moves := []
  claims := []
  prog := []
  mem := []
  kernel := none
  next := none
  lastFault := 0

/-- The phase of the reload of one vendor engine under the cover of NDL5 (R194): the cover casts on; it runs, and the
engine's next HALT is awaited; triggers go to the cover while the engine is loaded; the engine runs again, and the cover's
next HALT is awaited; the cover is bound off. -/
inductive ReloadPhase where
  | idle
  | coverOn (n : Fin 8)
  | covered (n : Fin 8)
  | routed (n : Fin 8)
  | coverOff
deriving DecidableEq, Repr

/-- The reload of vendor engines (R194): where it stands, whether the engine has its new kernel, and the engines left. -/
structure Reload where
  phase : ReloadPhase
  loaded : Bool
  todo : List (Fin 8)
deriving DecidableEq, Repr

/-- Capture space (R182 to R184). -/
structure Capture where
  /-- Words of each record, by 2 * slot + record; a word never written reads 0. -/
  words : SMap (List (BitVec 16))
  /-- The newest complete record of each slot. -/
  newest : SMap (Option Bool)
deriving DecidableEq, Repr

/-- A step committed and not yet applied (R270, R271). -/
structure StepPend where
  neg : Bool
  /-- Magnitude in units of 2^-40 ns. -/
  mag : Nat
  /-- Alignment instants still to come until it is applied. -/
  left : Nat
deriving DecidableEq, Repr

/-- The time counter and its increment (R265 to R272), in the holder domain.  Times are in units of 2^-40 ns. -/
structure Clock where
  /-- SEC, NS and the 40-bit fraction as one number: (SEC * 10^9 + NS) * 2^40 + fraction. -/
  cnt : Nat
  /-- The increment in force. -/
  inc : Nat
  /-- A committed increment waiting for the next alignment instant. -/
  incPend : Option Nat
  step : Option StepPend
  /-- `ck_time` cycles since the last alignment instant, below 1,024. -/
  phase : Nat
  /-- MODEL'S OWN: `ck_time` cycles since the holder was ready. -/
  cycles : Nat
deriving DecidableEq, Repr

/-- What firmware keeps of a port's last used TIME_REF (R275, R280). -/
structure RefInfo where
  quality : Nat
  utcValid : Bool
  leapAdd : Bool
  leapDel : Bool
  utcOffset : Int
  heErr : Nat
  /-- `Clock.cycles` when it was used. -/
  at_ : Nat
deriving DecidableEq, Repr

/-- The time transfer of one line port (R276 to R280). -/
structure TimePort where
  /-- The boundaries of the last 64 line frames, newest first: FRAME_COUNT and, when R276 lets it be used, the stamp. -/
  stamps : List (Nat × Option Nat)
  /-- RTD of the last RANGING_RESULT, in units of 2^-8 ns, and the FRAME_COUNT from which its EQD applies (R242). -/
  rtd : Option Int
  rtdFrame : Nat
  /-- The filtered offset, in units of 2^-8 ns. -/
  filt : Option Int
  /-- ASYM in use, in units of 2^-8 ns. -/
  asym : Int
  ref : Option RefInfo
deriving DecidableEq, Repr

/-- TIME_CONFIG (R300), MODE apart, which is `TIME.STAT.MODE`. -/
structure TimeCfg where
  prefer : Port
  revert : Bool
  disagreeHold : Bool
  requireTraceable : Bool
  maxSlew : Nat
  holdoverS : Nat
deriving DecidableEq, Repr

/-- Firmware's time servo and the timing pins (R281 to R293). -/
structure TimeServo where
  cfg : TimeCfg
  portA : TimePort
  portB : TimePort
  /-- TIME_DISAGREE (R283) and the comparisons at or below the threshold in a row. -/
  disagree : Bool
  agreeRun : Nat
  /-- PPSIN_DISAGREE (R290) of each input, and the pulses at or below the threshold in a row. -/
  ppsinDisagree : List Bool
  ppsinRun : List Nat
  /-- The preferred port came into time while the other was selected, and has stayed in time (R282). -/
  revertWait : Bool
  /-- The step of R281 is due: the state has left FREE_RUN and no offset has been corrected since. -/
  stepDue : Bool
  /-- A step was refused, and the offset is slewed at MAX_SLEW until it is within the limit (R284). -/
  refused : Bool
  /-- Frequency estimates of the last 64 s of LOCKED (R285): `Clock.cycles` and the increment, newest first. -/
  freqLog : List (Nat × Nat)
  /-- The Tension integrator I, in units of 2^-40 (R274). -/
  tensionI : Int
  /-- `Clock.cycles` at the entry to LOCKED. -/
  lockedAt : Option Nat
  /-- Stamp of the last PPS_IN0 edge and the cycle at which it fell. -/
  ppsIn0 : Option (Nat × Nat)
  /-- The second and the time state of the last PPS_OUT0 pulse, until its sentence is sent. -/
  ppsOut0 : Option (Nat × Nat)
  /-- The whole second that the counter, less the OFFSET of each PPS output, has passed by its increment since the last
PPS_OUT_ASSERT (R287). -/
  ppsDue : SMap (Option Nat)
  /-- By how much the waveform of CLK10_OUT lies off the counter since a step, until the next alignment instant (R288). -/
  clk10Shift : Int
  /-- The request stamp of the PTM dialogue in progress. -/
  ptmT1 : Option Nat
  /-- Round trip of the previous PTM dialogue. -/
  ptmTrip : Option Int
  /-- Stamps waiting in the queue of each event pin (R291), oldest first. -/
  evtQ : SMap (List Nat)
  /-- Trigger times of the armed event pins (R292): the time written, and that of the last firing, from which PERIOD_NS
counts. -/
  evtArm : SMap (Option (Nat × Nat))
  /-- The trigger time that the counter has passed by its increment since the last EVT_TRIGGER_FIRE (R287, R292). -/
  evtDue : SMap (Option Nat)
  /-- Entries of the transmit time-stamp queues (R294): identifier and stamp, oldest first. -/
  tsq : SMap (List (Nat × Nat))
deriving DecidableEq, Repr

/-- A Gauge fit in progress (R316): the configuration registers 0x040 to 0x05C and the RTD as sampled when it started,
and whether the port has left WORK or met TREE_CHANGE since. -/
structure GaugeFit where
  cfg : List Word
  rtd : Int
  abandoned : Bool
deriving DecidableEq, Repr

/-- The Gauge of a line port beside its registers (chapter 10). -/
structure GaugeSt where
  fit : Option GaugeFit
  /-- RTD of the fit of the estimate in use, in 2^-8 ns, and `Clock.cycles` when it was accepted. -/
  rtd : Int
  at_ : Nat
  /-- The candidate (R314): asymmetry and CONF in 2^-8 ns, and the RTD of its fit. -/
  cand : Option (Int × Nat × Int)
  /-- α last fitted under source 2 (R307), in units of 2^-12, with the TREE_ID it was fitted on. -/
  kept : Option (Nat × Int)
  /-- `Clock.cycles` at which the next fit is due (R304); none while the first fit is still to come. -/
  sched : Option Nat
deriving DecidableEq, Repr

/-- A wildcard rule (R333): key and mask as 80 bytes and the action, each as one number, lowest byte first. -/
structure Rule where
  key : Nat
  mask : Nat
  action : Nat
deriving DecidableEq, Repr

/-- A frame with its action (R335), on its way to the scheduler. -/
structure CPkt where
  pkt : Pkt
  queue : Nat
  policer : Option Nat
  /-- Pre-colour, then colour: 0 green, 1 yellow, 2 red. -/
  colour : Nat
  dl : Option Nat
  tag : Nat
  /-- RSS hash, 0 without RSS. -/
  hash : Nat
  /-- Reason code of an exception frame (R339), 0 for any other. -/
  exc : Nat
deriving DecidableEq, Repr

/-- The classifier (R319 to R342). -/
structure Cls where
  /-- Flow-table cache, most recently used first: location and the cached copy (R330). -/
  cache : List (Nat × List Byte)
  /-- The flow-table command in progress: result, location and moves (R331). -/
  cmd : Option (Nat × Nat × Nat)
  rules : SMap (Option Rule)
  /-- RSS words: function * 1,024 + entry, and function * 1,024 + 512 + key word. -/
  rss : SMap Word
  /-- Exception tokens, in units of 10^-9 frame (R339). -/
  excTokens : Nat
  /-- `Clock.cycles` when HUSHED was reached. -/
  hushAt : Option Nat
  /-- Frames waiting for classification, by ingress, oldest first (R340). -/
  inq : SMap (List Pkt)
  /-- Frames classified, oldest first. -/
  outq : List CPkt
deriving DecidableEq, Repr

/-- A scheduler node (R351, R352).  The words are CTRL and four words as written: LIMIT and YELLOW_LIMIT of a queue; CIR,
CBS, PIR and PBS of a shaper.  The levels are in 2^-16 byte. -/
structure Node where
  ctrl : Nat
  w1 : Nat
  w2 : Nat
  w3 : Nat
  w4 : Nat
  /-- CIR, CBS, PIR and PBS in force since the last refill tick (R353). -/
  cir : Nat
  cbs : Nat
  pir : Nat
  pbs : Nat
  cLevel : Int
  pLevel : Int
  /-- Deficit of the round robin the node takes part in, in bytes (R347). -/
  deficit : Nat
  /-- Child served last, among the committed-eligible ones and among the others. -/
  lastC : Nat
  lastE : Nat
deriving DecidableEq, Repr

/-- A frame in a queue (R349), or in a deadline lane with its queue and due time (R359). -/
structure QFrame where
  c : CPkt
  /-- Deadline class, due time, charge s (R361), whether it has been counted LATE, in the order of acceptance. -/
  cls : Nat
  due : Nat
  charge : Nat
  late : Bool
  /-- Launch time in units of 2^-40 ns (R297), and whether the frame is held for it. -/
  launch : Option Nat
  held : Bool
deriving DecidableEq, Repr

/-- A policer (R357): its words as written, the words in force since the last refill tick, and its tokens in 2^-16 byte. -/
structure Policer where
  ctrl : Nat
  cir : Nat
  cbs : Nat
  eir : Nat
  ebs : Nat
  now : Nat × Nat × Nat × Nat × Nat
  tc : Nat
  te : Nat
deriving DecidableEq, Repr

/-- A gate pattern as committed (R371): base and cycle in ns, LENGTH, and the entries once it runs: interval and gates. -/
structure Gates where
  base : Nat
  cycle : Nat
  len : Nat
  ents : List (Nat × Nat)
  /-- Number n of its start, and its start instant in ns. -/
  n : Nat
  start : Nat
deriving DecidableEq, Repr

/-- The patterns of an egress (R368 to R372). -/
structure Pattern where
  standby : SMap (Nat × Nat)
  /-- The other bank: the one in use, once a pattern runs. -/
  bank : SMap (Nat × Nat)
  pending : Option Gates
  active : Option Gates
  /-- The entry that applies now. -/
  entry : Nat
  /-- `PATTERN.STAT` bits ERR and LATE, and n of the last start. -/
  err : Bool
  late : Bool
  n : Nat
deriving DecidableEq, Repr

/-- The scheduler, the policers, the deadline lanes and the patterns (chapter 12). -/
structure Sched where
  /-- Nodes, by level * 2^20 + index. -/
  nodes : SMap Node
  queues : SMap (List QFrame)
  /-- Deadline lanes by egress, in order of due time. -/
  lanes : SMap (List QFrame)
  /-- Committed backlog Q, by egress * 8 + class. -/
  backlog : SMap Nat
  pols : SMap Policer
  patterns : SMap Pattern
  /-- Where an egress is served when not at its own place: by egress (R257), and 1,000 + c for class c of egress 133
  (R520); each plus one, 0 for its own place. -/
  rebound : SMap Nat
deriving DecidableEq, Repr

/-- A grant in the grant store (R204), or in its burst. -/
structure Grant where
  /-- Upstream frame, first symbol and symbols. -/
  frame : Nat
  start : Nat
  len : Nat
  allocId : Nat
  /-- Allocation slot; none for a discovery grant. -/
  slot : Option Nat
  bprof : Nat
  report : Bool
  mgmt : Bool
  ranging : Bool
  discovery : Bool
  long : Bool
  /-- EQD and TX_ENV in force when its map was received (R200, R205). -/
  eqd : Nat
  lead : Nat
  adv : Nat
  hold : Nat
  /-- Order of receipt. -/
  order : Nat
  /-- Truncated under R207. -/
  trunc : Bool
  /-- The ANNOUNCE whose D gave a discovery grant its EQD (R240). -/
  announce : Option (List Byte)
deriving DecidableEq, Repr

/-- Where a frame in bursts comes from: firmware, with its plaintext, or a queue or a lane of an egress. -/
inductive UpSrc where
  | fw (plain : List Byte)
  | queued (egress : Nat) (queue : Option Nat) (frame : QFrame)
deriving DecidableEq, Repr

/-- A frame as it goes into bursts (R216 to R218): its FEH fields and its bytes after encryption. -/
structure UpFrame where
  src : UpSrc
  port : Nat
  ce : Bool
  tunnel : Bool
  key : Nat
  bytes : List Byte
  /-- Bytes already placed in bursts. -/
  sent : Nat
  /-- Number in the order of drawing. -/
  id : Nat
  /-- A burst with a fragment of it was inhibited, cut or discarded. -/
  lost : Bool
  /-- Its transmit stamp, once taken: identifier and stamp (R294). -/
  stamp : Option (Nat × Nat)
deriving DecidableEq, Repr

/-- A burst whose draw has closed (R215, R216). -/
structure Burst where
  grant : Grant
  payload : List Byte
  /-- Management message carried, if any. -/
  mgmtMsg : Option (List Byte)
  /-- Bytes of frames, FEHs included; whole frames and LAST fragments; FIRST and MIDDLE fragments (R226). -/
  frameBytes : Nat
  frames : Nat
  fragments : Nat
  /-- Frames whose last byte the burst holds. -/
  done : List UpFrame
  /-- Frame, by its number, that a FIRST or MIDDLE fragment of the burst leaves open. -/
  openId : Option Nat
  /-- Stamps asked for: frame, by its number, identifier, and payload offset of its first FEH (R294). -/
  marks : List (Nat × Nat × Nat)
  /-- The stamps once the burst has begun: frame, identifier and stamp. -/
  stamps : List (Nat × Nat × Nat)
  /-- What makes its samples, once it has begun. -/
  chain : Option TxChain
deriving DecidableEq, Repr

/-- The upstream framer of a port (chapter 7). -/
structure Up where
  store : List Grant
  order : Nat
  /-- Number of the next frame drawn. -/
  nextId : Nat
  /-- Bursts drawn and not yet started. -/
  drawn : List Burst
  /-- The burst in progress. -/
  burst : Option Burst
  /-- Open fragment of each allocation slot (R217). -/
  open_ : SMap (Option UpFrame)
  /-- SEQ of the next report of each slot (R220). -/
  reportSeq : SMap Nat
  /-- Management messages firmware has queued, oldest first (R222). -/
  mgmtQ : List (List Byte)
  /-- The ANNOUNCE kept for discovery grants and the RANGING_RESPONSE kept for ranging grants (R236). -/
  announce : Option (List Byte)
  rangingResp : Option (List Byte)
  /-- Tunnel payloads firmware has queued (R230). -/
  tunnelQ : List (List Byte)
deriving DecidableEq, Repr

/-- An unsolicited upstream message being repeated (R231). -/
structure Unsol where
  type : Nat
  seq : Nat
  tunnel : Bool
  msg : List Byte
  sends : Nat
deriving DecidableEq, Repr

/-- A descriptor firmware keeps (R245, R247). -/
structure Desc where
  profile : Nat
  gen : Nat
  load : List Nat
  mask : Option (List Nat)
deriving DecidableEq, Repr

/-- What firmware keeps of the registration of a port (chapter 8). -/
structure Reg where
  /-- LINE_CAST_ON ENABLE. -/
  enable : Bool
  /-- HOLD_MS and MARGIN of LINE_CONFIG. -/
  holdMs : Nat
  margin : Nat
  /-- The last TREE_PARAMS received, 64 bytes, and whether it came since alignment was last LOCKED. -/
  params : Option (List Byte)
  fresh : Bool
  /-- TREE_ID when line cast-on began. -/
  tree : Nat
  /-- The lead in use (R241). -/
  lead : Nat
  /-- D of the ANNOUNCE queued (R240). -/
  delay : Nat
  mgmtAlloc : Nat
  rtd : Option Nat
  proveOk : Bool
  keyed : Bool
  /-- Assured rate in kb/s and INTERVAL in us by slot (R248). -/
  assured : SMap (Nat × Nat)
  /-- Downstream descriptors held (R245) and the upstream one waiting for its turn (R247). -/
  held : List Desc
  usPend : List (Desc × Nat)
  /-- Profile assigned, and former ones with the line frames each stays enabled (R246). -/
  assigned : Nat
  retire : List (Nat × Nat)
  /-- Last request acted on by TYPE, with SEQ, and the answer sent (R231). -/
  lastReq : SMap (Option (Nat × Bool × List Byte))
  /-- SEQ counters of the messages firmware sends, by TYPE. -/
  seqs : SMap Nat
  unsol : List Unsol
  /-- KEY_USE accepted and not yet reached: index and FROM_FRAME (R250). -/
  keyUse : Option (Nat × Nat)
  /-- Mute causes: TREE_ID of the MUTE, and the local mute (R251). -/
  muteRemote : Option Nat
  muteLocal : Bool
  /-- LEAVE waits for a management slot (R239), and a bind-off waits for it. -/
  leaving : Bool
  bindOff : Bool
  /-- Persistence count and candidate of SR0, and the value in effect (R254). -/
  srNew : Nat
  srRun : Nat
  sr0 : Nat
  /-- Line doze (R260): in force; a DOZE_REQUEST of this SEQ not answered, to enter or to end; PERIOD. -/
  doze : Bool
  dozeAsked : Bool
  dozeSeq : Nat
  dozeEnd : Bool
  dozePeriod : Nat
  /-- Per-subcarrier errors of the last distortion reports, by burst profile (R232). -/
  distortion : SMap (List Byte)
  /-- What waits for the end of the move of the port's Hook core, oldest first (R83, R84). -/
  due : List LineDue
  /-- Messages served before their command because a later event of the line frame came first (R238). -/
  early : List (List Byte)
deriving DecidableEq, Repr

/-- A line port: what chapters 4, 5, 7 and 8 give it beside its registers. -/
structure LinePort where
  down : Down
  modem : Modem
  up : Up
  reg : Reg
deriving DecidableEq, Repr

/-- Dual homing (R252 to R258). -/
structure DualHome where
  /-- 0 SINGLE, 1 SPLIT, 2 PAIRED. -/
  mode : Nat
  primary : Port
  working : Port
  revertive : Bool
  wtrS : Nat
  /-- HOLDOFF in 100 ms. -/
  holdoff : Nat
  persist : Nat
  /-- APS_COMMAND in force: 0 none, 1 LOCKOUT, 2 FORCE, 3 MANUAL, and its port. -/
  cmd : Nat × Port
  /-- The rank-6 request applies (R256). -/
  wtrDone : Bool
  /-- The conflicting set last signalled: rank, port named and source of each request. -/
  conflict : List (Nat × Port × Nat)
  /-- A switch decided and not yet carried out. -/
  switchTo : Option Port
  /-- LOCAL bits last reported, by port (R259). -/
  local_ : Nat
deriving DecidableEq, Repr

/-- A stream that is not enabled. -/
def Stream.off : Stream := ⟨false, 0, [], [], [], .hunt, 0, 0, 0, 0, false, [], [], none, false, 0, 0⟩

/-- The Fladon-1 receiver before its first bit. -/
def Nrz.reset : Nrz := ⟨List.replicate 31 0, List.replicate 3 0, [], [], 0, 0⟩

/-- A line port after a cold reset. -/
def LinePort.reset : LinePort :=
  ⟨⟨0, 0, 0, none, false, [false, false, true, false, false, false], 0, 0, ⟨0, 0, 0, 0⟩, ⟨0, 0, 0, 0⟩, [], [], [], [], [], []⟩,
   ⟨none, [], 0, 0, [], [], [], [], [], 0, 0, false, false, false, none, [], Nrz.reset, [], 0, [], ([], [])⟩,
   ⟨[], 0, 0, [], none, [], [], [], none, none, []⟩,
   ⟨false, 200, 15, none, false, 0, 2, 0, 0, none, false, false, [], [], [], 0, [], [], [], [], none, none, false, false, false,
    0, 0, 0, false, false, 0, false, 0, [], [], []⟩⟩

/-- What Skein keeps of a pool beside its registers (R377 to R380). -/
structure PoolSt where
  draining : Bool
  /-- Buffers and tags are being initialised. -/
  init : Bool
  /-- Allocated buffers by index: OWNER and GEN; an unlisted buffer is not. -/
  used : SMap (Option (Nat × Nat))
  /-- GEN of buffers that are free, by index; 0 where unlisted. -/
  gens : SMap Nat
deriving DecidableEq, Repr

/-- Skein (R375 to R389). -/
structure Skein where
  pools : SMap PoolSt
  /-- Spill tokens in bytes (R386). -/
  tokens : Nat
  /-- What the last ALLOCATION, FREE or HANDOVER of a unit returned: RESULT and handle. -/
  answer : Nat × Nat
deriving DecidableEq, Repr

/-- What a row of LPDDR5X or a word of it is known to hold beside its data (R395, R396, R402 to R404). -/
structure Mem where
  /-- Data bytes by byte address; an unlisted byte reads 0. -/
  data : SMap Byte
  /-- Poisoned 64-bit words, by word address. -/
  poison : SMap Bool
  /-- Bits in error of words in which no read has found them yet (R396), by word address. -/
  flips : SMap Nat
  /-- Corrected words that wait to be written back (R396, R397): word address and bytes. -/
  writeBack : List (Nat × List Byte)
  /-- Corrected words found in each row in this patrol pass (R404). -/
  corrected : SMap Nat
  /-- Darning table: spare + 1 by row; 0 where a row has none (R402). -/
  darned : SMap Nat
  /-- Spares used, counting those retired (R402). -/
  used : Nat
  /-- The copy in progress: row, spare and the spare it had, if any, and whether AUTO asked for it (R403). -/
  copy : Option (Nat × Nat × Bool)
  /-- Rows that AUTO is to darn when the copy in progress is done (R404), oldest first. -/
  autoDue : List Nat
  /-- Rows REMAPped, oldest first, as the configuration store records them (R405). -/
  record : List Nat
  /-- Entries of on-chip arrays held out of use until rewritten (R401): array code * 2^32 + entry. -/
  bad : SMap Bool
deriving DecidableEq, Repr

/-- The PCIe link and the functions behind it. -/
structure Pcie where
  /-- PTM is enabled in PF0's PTM capability (R293). -/
  ptmEn : Bool
  link : LinkState
  /-- Trained speed in GT/s and width. -/
  speed : Nat
  width : Nat
  /-- What waits for the exit from L1, in order (R431). -/
  held : List Emission
  /-- Endpoints and event queues (131,072 + queue) whose interrupt waits for the exit from L1. -/
  irqWait : List Nat
  fns : SMap FnHost
  eps : SMap Ep
  /-- How the last BAR4 access completed: 0 successful, 1 Unsupported Request, 2 poisoned; and what a read returned. -/
  bar4 : Nat × List Byte
deriving DecidableEq, Repr

/-- A pending, selected or waiting record (R443): its source as 32 * page slot + bit, the time counter at the raise and
whether the holder latched it (R456). -/
structure MRec where
  key : Nat
  at_ : Nat
  replay : Bool
deriving DecidableEq, Repr

/-- An event queue's context (R445). -/
structure Eq where
  ctrl : Nat
  irq : Nat
  base : Nat
  head : Nat
  tail : Nat
  armed : Bool
  pend : Bool
  phase : Bool
  err : Bool
deriving DecidableEq, Repr

/-- A function's range of event queues (R446). -/
structure EqRange where
  base : Nat
  count : Nat
  /-- `FN_EQBASE` as written, until a write of `FN_EQCOUNT` commits it. -/
  staged : Nat
  err : Bool
deriving DecidableEq, Repr

/-- The Marker (R442 to R457). -/
structure Marker where
  /-- Raises of the present settings of event bits, by source (R442). -/
  raised : SMap Bool
  /-- Pending records, by source. -/
  pend : SMap (Option MRec)
  /-- Records selected and not yet committed, oldest first. -/
  flight : List MRec
  /-- Records that found no eligible member, oldest first, with the group each was routed to (R453). -/
  waiting : List (MRec × Nat)
  /-- The source selected last (R451). -/
  last : Option Nat
  eqs : SMap Eq
  /-- Records written to each inbox. -/
  inbox : SMap Nat
  /-- `SRC_ROUTE` words by source (R450). -/
  routes : SMap Word
  /-- Members of each group: 8 words as `GRP_DATA` has them. -/
  groups : SMap (List Word)
  /-- The slot each group chose last (R452). -/
  chosen : SMap Nat
  ranges : SMap EqRange
deriving DecidableEq, Repr

/-- A downstream line key (R465 to R467): the key, the highest packet number verified and those seen in the window. -/
structure DownKey where
  key : List Byte
  high : Nat
  seen : List Nat
deriving DecidableEq, Repr

/-- An upstream line key (R468): the key and its next packet number. -/
structure UpKey where
  key : List Byte
  next : Nat
deriving DecidableEq, Repr

/-- The contexts of one line key index (R464, R469). -/
structure LineKey where
  down : Option DownKey
  up : Option UpKey
deriving DecidableEq, Repr

/-- A MACsec secure association entry (R473), each field as one number. -/
structure Sa where
  ctrl : Nat
  window : Nat
  sci : Nat
  pn : Nat
  ssci : Nat
  salt : Nat
  key : Nat
deriving DecidableEq, Repr

/-- A look-aside job (R475): who submitted it and its descriptor. -/
structure LaJob where
  src : Source
  desc : List Byte
deriving DecidableEq, Repr

/-- The cipher block (chapter 16). -/
structure Ciph where
  /-- Contents of the volatile root key slots 8 to 15 (R463); none unloaded or erased. -/
  slots : SMap (Option (List Byte))
  /-- Line keys, by 2 * port + index. -/
  keys : SMap LineKey
  /-- SA entries, by port * 64 + SC * 4 + AN. -/
  sas : SMap Sa
  /-- Jobs queued, host software's and firmware's, oldest first; unread results. -/
  laHost : List LaJob
  laFw : List LaJob
  resHost : List (List Word)
  resFw : List (List Word)
  /-- What the mask generators were last seeded with (R461). -/
  maskSeed : List Byte
deriving DecidableEq, Repr

/-- A mailbox request whose response is still to come (R485), and whether that is to be discarded (R439). -/
structure Asker where
  ch : Chan
  tag : Byte
  mute : Bool
deriving DecidableEq, Repr

/-- A wake source that has fired: its code and detail (R489, R493). -/
structure WakeRec where
  code : Nat
  detail : Nat
deriving DecidableEq, Repr

/-- The power controller and the holder's wake watcher (R481 to R495). -/
structure Power where
  /-- Page slots of the blocks that the attempt in progress has still to ask, in the order of R487; the first is being
  asked. -/
  ask : List Nat
  /-- Line ports of which this attempt has asked line doze. -/
  dozed : List Port
  /-- Who waits for the response of R485. -/
  asker : Option Asker
  /-- The response of HOLD or KEEP has been written. -/
  answered : Bool
  /-- The wake source latched first during the attempt (R490). -/
  latched : Option WakeRec
  /-- The watch set handed over (R456): entry and source. -/
  watch : List (Nat × Nat)
  /-- Raises of watched sources that the holder has latched, with the time counter then, by source (R456). -/
  replay : SMap (Option Nat)
  /-- `Clock.cycles` when the state in force was entered. -/
  since : Nat
  /-- A wake is restarting the stopped blocks (R492). -/
  waking : Bool
  /-- The alarm committed and not yet fired, in ns of the time counter. -/
  alarm : Option Nat
  /-- The holder is ready (R528). -/
  ready : Bool
  /-- The device is in OFF (R494). -/
  off : Bool
  /-- VHOLD_B as last measured, in mV. -/
  vholdB : Nat
deriving DecidableEq, Repr


/-- A site port's frame released in low-power idle, which departs after the wake time (R509). -/
structure SiteWake where
  pkt : Pkt
deriving DecidableEq, Repr

/-- The Ply link and the twin (R510 to R521). -/
structure Twin where
  /-- TIME of PLY_CONFIG: 0 NONE, 1 CHECK, 2 FALLBACK. -/
  use : Nat
  /-- The twin reports a selected line port with its state LOCKED or HOLDOVER (R515). -/
  timeGood : Bool
  /-- Comparisons at or below the threshold in a row (R515), and TWIN_DISAGREE. -/
  agreeRun : Nat
  disagree : Bool
  /-- The filtered offset from the twin's counter, in 2^-16 ns (R514). -/
  filt : Option Int
  /-- A TIME flit has been sent since the link entered ACTIVE. -/
  sent : Bool
  /-- Of the last TIME flit received: the stamp of its arrival and the t1 it carried, in 2^-16 ns (R514). -/
  heard : Option (Nat × Nat)
  /-- What the last BEAT said: registration states of the twin's ports A and B, WORKING, power state, role. -/
  beat : List Nat
  /-- The heartbeat is lost. -/
  lost : Bool
  /-- Bytes so far of a frame partly received. -/
  part : List Byte
  /-- The STANDBY was entered from YIELDING (R518). -/
  fromYield : Bool
  /-- The twin's serial number and firmware VERSION, received in EXCHANGE, and whether PLY_TWIN is in force there. -/
  caps : List Nat
deriving DecidableEq, Repr


/-- The whole state of the block and the queue of commands waiting for it. -/
structure State where
  /-- Register contents by BAR0 address; an unlisted register holds its reset value (R28). -/
  regs : SMap Word
  /-- Snapshot views by BAR0 address; an unlisted word reads 0 (R42). -/
  snapView : SMap Word
  /-- `_LO` latches by page slot and source (R31). -/
  latches : SMap LoLatch
  /-- Staging registers by page slot and source (R31). -/
  staging : SMap Stage
  /-- Record latches by page slot, source and register (R269, R291, R296, R393, R479). -/
  recLatch : SMap (List Word)
  /-- What the last bus access returned to its source. -/
  rdata : Word
  /-- Function states by function number; an unlisted function is OFF (R38). -/
  fns : SMap FnRec
  /-- Power domains that are off or in retention (R35, R481). -/
  domOff : List Dom
  /-- When an event that is set at most once in a while was last set, by 32 * slot + bit, in `Clock.cycles` or line frames. -/
  evtAt : SMap (Option Nat)
  /-- The Marker (R442 to R457). -/
  marker : Marker
  /-- The row snapshot unit (R41 to R47). -/
  snap : SnapUnit
  /-- The boot sequence (R54, R68). -/
  boot : Boot
  /-- The live update (R82). -/
  upd : Update
  /-- The fuse array (R55). -/
  fuses : Fuses
  /-- The QSPI flash (R69); an unlisted byte reads 0xFF. -/
  flash : SMap Byte
  /-- Random source, debug and measurement log (R60, R76, R88). -/
  security : SecState
  /-- A boundary-scan instruction holds the pins (R62). -/
  scan : Bool
  /-- Mailbox requests held while core 0 moves (R83). -/
  mbxHeld : List MbxHeld
  /-- When the watchdog of each Hook core last expired, in `Clock.cycles` (R52). -/
  watchdog : SMap (Option Nat)
  /-- Hook cores whose watchdog has expired and that have not rebuilt their state yet (R52). -/
  restarting : SMap Bool
  /-- The time counter (R265 to R272). -/
  clock : Clock
  /-- The time servo and timing pins (R273 to R296). -/
  servo : TimeServo
  /-- Levels of the output pins, by pin number; an unlisted pin is inactive. -/
  pins : SMap Bool
  /-- The classifier (chapter 11). -/
  cls : Cls
  /-- Skein (R375 to R389). -/
  skein : Skein
  /-- Registers kept per source (R31): address * 512 + source. -/
  perSrc : SMap Word
  /-- LPDDR5X, its darning table and the arrays held out of use (R390 to R405). -/
  mem : Mem
  /-- Line port A (chapters 4, 5, 7, 8). -/
  lineA : LinePort
  /-- Line port B. -/
  lineB : LinePort
  /-- Dual homing (R252 to R258). -/
  dual : DualHome
  /-- The PCIe link, the functions and the queue endpoints (chapter 14). -/
  pcie : Pcie
  /-- The Ply link and the twin (R510 to R521). -/
  twin : Twin
  /-- Running timers, by timer number, with the duration in ns each was started for. -/
  timers : SMap (Option Nat)
  /-- MODEL'S OWN: how many free values have been taken. -/
  free : Nat
  /-- MODEL'S OWN: what has left the device, oldest first. -/
  out : List Emission
  /-- MODEL'S OWN: commands waiting, first in first out. -/
  pending : List Instr
  /-- The cipher block (R459 to R479). -/
  ciph : Ciph
  /-- The scheduler, policers, deadline lanes and patterns (chapter 12). -/
  sched : Sched
  /-- Frames that wait for a site port to leave low-power idle (R509). -/
  siteWake : SMap (Option SiteWake)
  /-- The Needle engines (chapter 6), by number; an unlisted engine is as after a device reset. -/
  ndl : SMap Ndl
  /-- Capture space (R182). -/
  capture : Capture
  /-- Live reload of vendor engines (R194). -/
  reload : Reload
  /-- Chunks of an image that NDL_LOAD on channel 1 has brought so far (R191). -/
  ndlChunks : List Byte
  /-- The Gauge of each line port (R304 to R316), by port number; an unlisted one has done nothing. -/
  gauge : SMap GaugeSt
  /-- The power controller and the holder's wake watcher (chapter 17). -/
  power : Power
deriving DecidableEq, Repr

/-- The state right after a cold reset (R49). -/
def State.reset : State where
  regs := []
  snapView := []
  latches := []
  staging := []
  recLatch := []
  rdata := 0
  fns := []
  domOff := []
  evtAt := []
  marker := ⟨[], [], [], [], none, [], [], [], [], [], []⟩
  snap := ⟨false, false, 0, 0, 0, [], 0⟩
  boot := ⟨0, false, false, none, [], none, none, none, none, [], []⟩
  upd := ⟨.idle, none, none, [], false, false⟩
  fuses := ⟨[], 3, 3, false, false, true, 1⟩
  flash := []
  security := ⟨0, none, [], Crypto.Drbg.zero⟩
  scan := false
  mbxHeld := []
  watchdog := []
  restarting := []
  clock := ⟨0, 2 * 2 ^ 40, none, none, 0, 0⟩
  servo := ⟨⟨.portA, true, false, true, 10000, 86400⟩, ⟨[], none, 0, none, 0, none⟩, ⟨[], none, 0, none, 0, none⟩, false, 0, [false, false], [0, 0], false, false, false, [], 0, none, none, none, [], 0, none,
    none, [], [], [], []⟩
  pins := []
  cls := ⟨[], none, [], [], 256 * 10 ^ 9, none, [], []⟩
  skein := ⟨[], 65536, (0, 0)⟩
  perSrc := []
  mem := ⟨[], [], [], [], [], [], 0, none, [], [], []⟩
  lineA := LinePort.reset
  lineB := LinePort.reset
  dual := ⟨0, .portA, .portA, false, 300, 0, 3, (0, .portA), false, [], none, 0⟩
  pcie := ⟨true, .reset, 0, 0, [], [], [], [], (0, [])⟩
  twin := ⟨0, false, 0, false, none, false, none, [], false, [], false, []⟩
  timers := []
  free := 0
  out := []
  pending := []
  ciph := ⟨[], [], [], [], [], [], [], []⟩
  sched := ⟨[], [], [], [], [], [], []⟩
  siteWake := []
  ndl := []
  capture := ⟨[], []⟩
  reload := ⟨.idle, false, []⟩
  ndlChunks := []
  gauge := []
  power := ⟨[], [], none, false, none, [], [], 0, false, none, false, false, 0⟩

end Sys2Proof.Machine
end

