-- ==== Sys2Proof/Machine/Ops.lean ====
section
/-!
DEFINITION. Machine/Ops.lean: the page directory and the named operations over registers, events, counters, function
states, timers and what leaves the device.  Every other file of the machine reads and writes State through these.
-/

namespace Sys2Proof.Machine

/-! ### The page directory (R48) -/

/-- One block instance of the page directory (R48): its pages from `base` on, one every 0x1000. -/
structure Block where
  base : Nat
  pages : Nat
  type : Nat
  inst : Nat
  layout : Nat
  rows : List RegRow
  /-- Page indices whose `PAGE_CAP.SNAP` is 1. -/
  snapPages : List Nat
  /-- Page 0 carries the run and stop control of a function. -/
  runctl : Bool
  dom : Dom
deriving DecidableEq, Repr

/-- The block instances (R48), single ones first. -/
def blocksSingle : List Block := [
  ⟨0x00000, 1, 0x01, 0, 2, rowsDEV, [], false, .pcie⟩,
  ⟨0x01000, 2, 0x02, 0, 1, rowsSEC, [], false, .core⟩,
  ⟨0x03000, 1, 0x03, 0, 1, rowsPWR, [], false, .pcie⟩,
  ⟨0x04000, 1, 0x04, 0, 1, rowsHOLD, [0], false, .holder⟩,
  ⟨0x05000, 1, 0x05, 0, 1, rowsMON, [], false, .core⟩,
  ⟨0x06000, 1, 0x06, 0, 1, rowsSNAP, [], false, .timeio⟩,
  ⟨0x08000, 2, 0x07, 0, 1, rowsHOOK, [], false, .hook⟩,
  ⟨0x10000, 8, 0x08, 0, 2, rowsMARK, [2], false, .core⟩,
  ⟨0x20000, 2, 0x10, 0, 2, rowsTIME, [1], false, .timeio⟩,
  ⟨0x22000, 1, 0x11, 0, 2, rowsTSQ, [0], false, .timeio⟩,
  ⟨0x80000, 2, 0x30, 0, 2, rowsCLS, [1], false, .core⟩,
  ⟨0x82000, 2, 0x31, 0, 2, rowsSCHED, [1], false, .core⟩,
  ⟨0x84000, 1, 0x32, 0, 2, rowsMETER, [0], false, .core⟩,
  ⟨0x85000, 1, 0x33, 0, 1, rowsPATTERN, [0], false, .core⟩,
  ⟨0x86000, 1, 0x34, 0, 1, rowsDEADLINE, [0], false, .core⟩,
  ⟨0x90000, 1, 0x38, 0, 1, rowsSKEIN, [0], false, .core⟩,
  ⟨0x94000, 2, 0x39, 0, 1, rowsMEM, [1], false, .mem⟩,
  ⟨0x96000, 1, 0x3A, 0, 1, rowsDARN, [0], false, .mem⟩,
  ⟨0xA0000, 2, 0x40, 0, 2, [], [], false, .pcie⟩,
  ⟨0xA2000, 2, 0x41, 0, 2, rowsHQ, [1], false, .core⟩,
  ⟨0xB0000, 3, 0x48, 0, 1, rowsCIPH, [2], false, .core⟩,
  ⟨0xC8000, 1, 0x58, 0, 1, rowsPLY, [0], true, .ply⟩]

/-- The block instances that repeat (R48). -/
def blocksRepeated : List Block := [
  ⟨0x24000, 1, 0x12, 0, 1, rowsGAUGE, [0], false, .lineA⟩,
  ⟨0x25000, 1, 0x12, 1, 1, rowsGAUGE, [0], false, .lineB⟩,
  ⟨0x40000, 4, 0x20, 0, 2, rowsLINE, [3], false, .lineA⟩,
  ⟨0x50000, 4, 0x20, 1, 2, rowsLINE, [3], false, .lineB⟩,
  ⟨0x44000, 3, 0x21, 0, 2, rowsLFR, [1], true, .lineA⟩,
  ⟨0x54000, 3, 0x21, 1, 2, rowsLFR, [1], true, .lineB⟩,
  ⟨0x60000, 1, 0x28, 0, 1, rowsNDL, [0], true, .ndl⟩,
  ⟨0x61000, 1, 0x28, 1, 1, rowsNDL, [0], true, .ndl⟩,
  ⟨0x62000, 1, 0x28, 2, 1, rowsNDL, [0], true, .ndl⟩,
  ⟨0x63000, 1, 0x28, 3, 1, rowsNDL, [0], true, .ndl⟩,
  ⟨0x64000, 1, 0x28, 4, 1, rowsNDL, [0], true, .ndl⟩,
  ⟨0x65000, 1, 0x28, 5, 1, rowsNDL, [0], true, .ndl⟩,
  ⟨0x66000, 1, 0x28, 6, 1, rowsNDL, [0], true, .ndl⟩,
  ⟨0x67000, 1, 0x28, 7, 1, rowsNDL, [0], true, .ndl⟩,
  ⟨0xC0000, 1, 0x50, 0, 1, rowsSITE, [0], true, .site⟩,
  ⟨0xC1000, 1, 0x50, 1, 1, rowsSITE, [0], true, .site⟩,
  ⟨0xC2000, 1, 0x50, 2, 1, rowsSITE, [0], true, .site⟩,
  ⟨0xC3000, 1, 0x50, 3, 1, rowsSITE, [0], true, .site⟩]

/-- Every block instance (R48). -/
def blocks : List Block := blocksSingle ++ blocksRepeated

/-- The block instance that holds a BAR0 offset, if one does (R25, R48). -/
def blockOf (addr : Nat) : Option Block :=
  blocks.find? (fun b => decide (b.base ≤ addr ∧ addr < b.base + 0x1000 * b.pages))

/-- Whether the row covers an offset. -/
def RegRow.covers (r : RegRow) (off : Nat) : Bool :=
  decide (r.off ≤ off) && decide ((off - r.off) % r.stride = 0) && decide ((off - r.off) / r.stride < r.n)

/-- The register at a BAR0 offset: a header row (R32) or a row of its block; none where no register lies. -/
def rowOf (addr : Nat) : Option RegRow :=
  match blockOf addr with
  | none => none
  | some b =>
    if addr % 0x1000 < 0x40 then rowsHeader.find? (fun r => r.covers (addr % 0x1000))
    else b.rows.find? (fun r => r.covers (addr - b.base))

/-- The reset value of the register at a BAR0 offset. -/
def resetOf (addr : Nat) : Word :=
  match rowOf addr with
  | some r => BitVec.ofNat 32 r.reset
  | none => 0

/-- Whether the page that holds an offset has counters and a snapshot view (R32, R42). -/
def pageHasSnap (addr : Nat) : Bool :=
  match blockOf addr with
  | some b => b.snapPages.contains ((addr - b.base) / 0x1000)
  | none => false

/-- Every page slot whose `PAGE_CAP.SNAP` is 1. -/
def snapSlots : List Nat :=
  (blocks.map (fun b => b.snapPages.map (fun i => b.base / 0x1000 + i))).flatten

/-! ### Registers -/

/-- Field `F` of a word. -/
def Fld.get (F : Fld) (w : Word) : Nat := w.toNat / 2 ^ F.lo % 2 ^ F.w

/-- A word with field `F` replaced. -/
def Fld.put (F : Fld) (w : Word) (v : Nat) : Word :=
  BitVec.ofNat 32 (w.toNat % 2 ^ F.lo + v % 2 ^ F.w * 2 ^ F.lo + w.toNat / 2 ^ (F.lo + F.w) * 2 ^ (F.lo + F.w))

/-- The stored word of the register at a BAR0 offset. -/
def State.rd (s : State) (addr : Nat) : Word := SMap.get resetOf s.regs addr

/-- The state with the stored word of a register replaced. -/
def State.wr (s : State) (addr : Nat) (w : Word) : State := { s with regs := SMap.set resetOf s.regs addr w }

/-- A field of a register of the page at `base`. -/
def State.get (s : State) (base : Nat) (F : Fld) : Nat := F.get (s.rd (base + F.off))

/-- Whether a one-bit field reads 1. -/
def State.bit (s : State) (base : Nat) (F : Fld) : Bool := decide (s.get base F ≠ 0)

/-- A field of a register set. -/
def State.set (s : State) (base : Nat) (F : Fld) (v : Nat) : State :=
  s.wr (base + F.off) (F.put (s.rd (base + F.off)) v)

/-- A one-bit field set from a Boolean. -/
def State.setBit (s : State) (base : Nat) (F : Fld) (b : Bool) : State := s.set base F (if b then 1 else 0)

/-- A field of a register as a signed number. -/
def State.getSigned (s : State) (base : Nat) (F : Fld) : Int := toSigned F.w (s.get base F)

/-- A 64-bit pair read whole. -/
def State.get64 (s : State) (base : Nat) (LO : Fld) : Nat :=
  (s.rd (base + LO.off)).toNat + (s.rd (base + LO.off + 4)).toNat * 2 ^ 32

/-- A 64-bit pair written whole. -/
def State.set64 (s : State) (base : Nat) (LO : Fld) (v : Nat) : State :=
  (s.wr (base + LO.off) (BitVec.ofNat 32 v)).wr (base + LO.off + 4) (BitVec.ofNat 32 (v / 2 ^ 32))

/-- A 32-bit counter advanced, saturating (R125). -/
def State.addCnt (s : State) (base : Nat) (F : Fld) (n : Nat) : State := s.set base F (satAdd32 (s.get base F) n)

/-- A 32-bit counter advanced by one, saturating (R125). -/
def State.inc (s : State) (base : Nat) (F : Fld) : State := s.addCnt base F 1

/-- A 64-bit counter pair advanced, wrapping (R125). -/
def State.add64 (s : State) (base : Nat) (LO : Fld) (n : Nat) : State := s.set64 base LO (wrapAdd64 (s.get64 base LO) n)

/-- A run of registers read as words. -/
def State.rdWords (s : State) (addr : Nat) : Nat → List Word
  | 0 => []
  | n + 1 => s.rd addr :: s.rdWords (addr + 4) n

/-- A run of registers written from words. -/
def State.wrWords (s : State) (addr : Nat) : List Word → State
  | [] => s
  | w :: ws => (s.wr addr w).wrWords (addr + 4) ws

/-! ### Events, emissions, timers, free values -/

/-- A page's event bit set (R33, R442); the record is sent by EVENT_RAISE. -/
def State.evt (s : State) (base : Nat) (b : Nat) : State :=
  s.set base ⟨HDR.PAGE_EVENT.off, b, 1⟩ 1

/-- Something leaves the device. -/
def State.emit (s : State) (e : Emission) : State := { s with out := s.out ++ [e] }

/-- Several things leave the device, in order. -/
def State.emits (s : State) (es : List Emission) : State := { s with out := s.out ++ es }

/-- What an unlisted timer says: not running. -/
def noTimer : Nat → Option Nat := fun _ => none

/-- A timer started (or started again) for a duration in ns. -/
def State.startTimer (s : State) (t ns : Nat) : State := { s with timers := SMap.set noTimer s.timers t (some ns) }

/-- A timer stopped. -/
def State.stopTimer (s : State) (t : Nat) : State := { s with timers := SMap.set noTimer s.timers t none }

/-- Whether a timer runs. -/
def State.running (s : State) (t : Nat) : Bool := (SMap.get noTimer s.timers t).isSome

/-- One more free value taken: its number, for the free constants of Config. -/
def State.takeFree (s : State) : State := { s with free := s.free + 1 }

/-! ### Functions (R36 to R38) -/

/-- The function a page's block belongs to (R33, R36). -/
def fnOfBlock (b : Block) : Option Fn :=
  match b.type with
  | 0x12 | 0x20 | 0x21 => some (.line (if b.inst = 0 then .portA else .portB))
  | 0x28 => if h : b.inst < 8 then some (.ndl ⟨b.inst, h⟩) else none
  | 0x50 => if h : b.inst < 4 then some (.site ⟨b.inst, h⟩) else none
  | 0x58 => some .ply
  | _ => none

/-- What an unlisted function says: OFF, nothing held, no fault. -/
def fnReset : Nat → FnRec := fun _ => ⟨.off, false, 0⟩

/-- The state record of a function. -/
def State.fn (s : State) (f : Fn) : FnRec := SMap.get fnReset s.fns f.num

/-- The state record of a function replaced, with no event. -/
def State.setFnRec (s : State) (f : Fn) (r : FnRec) : State := { s with fns := SMap.set fnReset s.fns f.num r }

/-- Whether a function is in a state. -/
def State.fnIs (s : State) (f : Fn) (st : FState) : Bool := decide ((s.fn f).st = st)

/-- An event bit set in every page a function governs (R33). -/
def State.evtAll (s : State) (f : Fn) (b : Nat) : State := f.pages.foldl (fun s base => s.evt base b) s

/-- `HQ.PAGE_EVENT` bits that report the states of PF1 and the VFs (R37): FN_STATE and FN_FAULT. -/
def evFnState : Nat := 9
def evFnFault : Nat := 10

/-- The events of a change of state (R33, R37). -/
def State.fnEvents (s : State) (f : Fn) (entersFault frogged : Bool) : State :=
  match f with
  | .pf1 | .vf _ =>
    let s := s.evt Pg.HQ evFnState
    if entersFault then s.evt Pg.HQ evFnFault else s
  | _ =>
    let s := s.evtAll f 0
    let s := if entersFault then s.evtAll f 1 else s
    if frogged then s.evtAll f 3 else s

/-- A function moves to a state: STATE_CHANGED when the state differs, FAULT_ENTERED on entry into FAULT (R33, R38). -/
def State.moveFn (s : State) (f : Fn) (st : FState) (pend : Bool) : State :=
  let old := s.fn f
  let s := s.setFnRec f ⟨st, pend, old.code⟩
  if old.st = st then s else s.fnEvents f (decide (st = .fault)) false

/-- Units of abandoned work added to `PAGE_ABANDON` of the function's control page, wrapping (R38). -/
def State.abandon (s : State) (f : Fn) (units : Nat) : State :=
  match f.pages with
  | [] => s
  | base :: _ => s.set base HDR.PAGE_ABANDON (s.get base HDR.PAGE_ABANDON + units)

/-! ### Rejected accesses (R34) -/

/-- The REASON codes of `PAGE_ERR_INFO`. -/
inductive Reason where
  | offOnly | unmapped | size | privilege | locked | poweredOff | badCommand | snapBusy
deriving DecidableEq, Repr

/-- A reason's code. -/
def Reason.code : Reason → Nat
  | .offOnly => 1
  | .unmapped => 2
  | .size => 3
  | .privilege => 4
  | .locked => 5
  | .poweredOff => 6
  | .badCommand => 7
  | .snapBusy => 8

/-- A rejected access recorded in the `PAGE_ERR_INFO` of the page at `base`, and ACCESS_REJECTED set (R34). -/
def State.reject (s : State) (base : Nat) (src : Source) (r : Reason) (write : Bool) (off : Nat) : State :=
  let n := min 255 (s.get base HDR.PAGE_ERR_COUNT + 1)
  (s.wr (base + HDR.PAGE_ERR_INFO.off)
    (BitVec.ofNat 32 (n * 2 ^ 24 + src.code * 2 ^ 20 + r.code * 2 ^ 16 + (if write then 2 ^ 15 else 0) + off % 0x1000))).evt
    base 2

/-- A rejected command of the page at `base`: the access is a write. -/
def State.rejectCmd (s : State) (base : Nat) (src : Source) (r : Reason) (F : Fld) : State :=
  s.reject (base + F.off / 0x1000 * 0x1000) src r true (F.off % 0x1000)

/-- Whether the domain of a page is powered off or in retention (R35, R481). -/
def State.domIsOff (s : State) (d : Dom) : Bool := s.domOff.contains d

/-- The features (R413) in force: bit `n` of `DEV.FEAT_ACTIVE`. -/
def State.feat (s : State) (n : Nat) : Bool :=
  decide ((s.rd (Pg.DEV + 0x170 + 4 * (n / 32))).toNat / 2 ^ (n % 32) % 2 = 1)

/-! ### Line ports -/

/-- What chapters 4, 5, 7 and 8 give a line port beside its registers, and the same replaced. -/
def State.line (s : State) : Port → LinePort
  | .portA => s.lineA
  | .portB => s.lineB
def State.setLine (s : State) (p : Port) (x : LinePort) : State :=
  match p with
  | .portA => { s with lineA := x }
  | .portB => { s with lineB := x }

/-! Registration states, as `REG_STAT.STATE` encodes them (R235). -/
namespace RegSt
def listen : Nat := 0
def announce : Nat := 1
def range : Nat := 2
def prove : Nat := 3
def work : Nat := 4
def hold : Nat := 5
def mute : Nat := 6
def down : Nat := 7
end RegSt

/-- The registration state of a port. -/
def State.regSt (s : State) (p : Port) : Nat := s.get (Pg.LFR p) LFR2.REG_STAT_STATE

/-- Whether a port is in WORK. -/
def State.inWork (s : State) (p : Port) : Bool := decide (s.regSt p = RegSt.work)

/-! ### The Gauge's state (R315, R316) -/

/-- The Gauge of a port that has done nothing. -/
def gaugeReset : Nat → GaugeSt := fun _ => ⟨none, 0, 0, none, none, none⟩

/-- The Gauge of a port, and the same replaced. -/
def State.gaugeOf (s : State) (p : Port) : GaugeSt := SMap.get gaugeReset s.gauge p.num
def State.setGauge (s : State) (p : Port) (x : GaugeSt) : State :=
  { s with gauge := SMap.set gaugeReset s.gauge p.num x }

/-- The estimate in use discarded; the next fit is due at once (R304, R315). -/
def State.gaugeDiscard (s : State) (p : Port) : State :=
  let b := Pg.GAUGE p
  if s.bit b GAUGE.STAT_VALID then
    let s := (s.setGauge p { s.gaugeOf p with cand := none, sched := some s.clock.cycles }).set b GAUGE.STAT_CAND 0
    ((s.set b GAUGE.STAT_VALID 0).inc b GAUGE.EXPIRED).evt b 10
  else s

/-- The RTD of the port is now `rtd`: a change of more than 1,000 ns discards the estimate (R315). -/
def State.gaugeRtd (s : State) (p : Port) (rtd : Int) : State :=
  if 256000 < (rtd - (s.gaugeOf p).rtd).natAbs then s.gaugeDiscard p else s

/-- The port leaves WORK, or meets TREE_CHANGE: the estimate is discarded and a fit in progress abandoned (R315, R316). -/
def State.gaugeLeave (s : State) (p : Port) : State :=
  let x := s.gaugeOf p
  (s.setGauge p { x with fit := x.fit.map (fun f => { f with abandoned := true }) }).gaugeDiscard p

/-- The α kept from a fit is given up when another TREE_ID is read (R307). -/
def State.gaugeKeep (s : State) (p : Port) (tree : Nat) : State :=
  match (s.gaugeOf p).kept with
  | some (t, _) => if t = tree then s else s.setGauge p { s.gaugeOf p with kept := none }
  | none => s

/-- TREE_CHANGE as the Gauge sees it (R307, R315, R316). -/
def State.gaugeTree (s : State) (p : Port) : State :=
  (s.setGauge p { s.gaugeOf p with kept := none }).gaugeLeave p

/-! ### Meanings as parts of others -/

/-- The state after a meaning that answers a next state. -/
def nextOr (s : State) : Host.Outcome State Fault Refusal → State
  | .next t => t
  | _ => s

end Sys2Proof.Machine
end

