-- ==== Sys2Proof/Machine/Pages.lean ====
section
/-!
DEFINITION. Machine/Pages.lean: register accesses (R25 to R35, R44, R550): which accesses are let through, what a
read of a stored register returns, latches and staging registers, and accesses of a wrong size.
-/

namespace Sys2Proof.Machine

/-! ### Computed registers -/

/-- The features offered (R413): bits 0 to 20, bit 18 only while customer kernels are permitted. -/
def State.featOffer (s : State) : Nat := if s.fuses.userKernels then 0x1FFFFF else 0x1FFFFF - 2 ^ 18

/-- `SEC.PROTECT` from the fuses (R58, R61): DEBUG_ACTIVE is the stored bit. -/
def State.protectWord (s : State) : Nat :=
  s.fuses.bootSrcAllow.toNat % 8 * 2 ^ 12 + BitVec.toNat s.fuses.debug * 2 ^ 10
    + (if s.fuses.ownerKeysLocked then 2 ^ 9 else 0) + (if s.fuses.oobFull then 2 ^ 8 else 0)
    + (if s.fuses.userKernels then 2 ^ 7 else 0) + s.get Pg.SEC SEC0.PROTECT_DEBUG_ACTIVE * 2 ^ 6
    + s.fuses.personality.toNat * 2 ^ 4 + 1

/-- The count of a unary rollback counter in the fuses (R55, R73). -/
def State.rollbackCount (s : State) (t : Nat) : Nat :=
  ((List.range 128).filter (fun k => SMap.get (fun _ => false) s.fuses.bits (4416 + 128 * t + k))).length

/-- The code of a function state in `PAGE_STAT.STATE` (R38). -/
def FState.code : FState → Nat
  | .off => 0
  | .castingOn => 1
  | .running => 2
  | .bindingOff => 3
  | .fault => 4

/-- A function's record as `PAGE_STAT` shows it. -/
def FnRec.word (r : FnRec) : Nat := r.code % 256 * 2 ^ 8 + (if r.pendRun then 8 else 0) + r.st.code

/-- `PAGE_ID`, `PAGE_CAP` and `PAGE_STAT` of a page (R32, R33, R37, R48).  DESIGN CHOICE: BLOCK_CAP, no bit of which any
chapter defines, reads 0 (log entry 18). -/
def State.headerWord (s : State) (b : Block) (page off : Nat) : Nat :=
  if off = 0x000 then b.type * 2 ^ 16 + b.inst * 2 ^ 8 + b.layout
  else if off = 0x004 then
    page * 2 ^ 28 + (b.pages - 1) * 2 ^ 24 + (if b.runctl ∧ page = 0 then 2 ^ 23 else 0)
      + (if b.snapPages.contains page then 2 ^ 22 else 0)
  else
    match fnOfBlock b with
    | some f => (s.fn f).word
    | none => FState.running.code

/-- What a read of a mapped, powered register returns, before anything is popped or cleared (R28). -/
def State.busWord (s : State) (addr : Nat) : Word :=
  if pageHasSnap addr && decide (0x800 ≤ addr % 0x1000) then SMap.get (fun _ => 0) s.snapView addr
  else
    match blockOf addr with
    | none => 0
    | some b =>
      let off := addr % 0x1000
      let page := (addr - b.base) / 0x1000
      if off = 0x000 ∨ off = 0x004 ∨ off = 0x00C then BitVec.ofNat 32 (s.headerWord b page off)
      else if addr = Pg.SEC + 0x040 then BitVec.ofNat 32 s.protectWord
      else if Pg.SEC + 0x080 ≤ addr ∧ addr < Pg.SEC + 0x090 then BitVec.ofNat 32 (s.rollbackCount ((addr - Pg.SEC - 0x080) / 4))
      else if addr = Pg.DEV + 0x140 then BitVec.ofNat 32 s.featOffer
      else if addr = Pg.TIME + 0x048 then BitVec.ofNat 32 s.clock.inc
      else if addr = Pg.TIME + 0x04C then BitVec.ofNat 32 (s.clock.inc / 2 ^ 32)
      else s.rd addr

/-! ### Which accesses are let through (R25, R26, R34, R35, R411, R550) -/

/-- Whether a register, an RSV header word or a snapshot view lies at an offset (R32, R34, R42).  DESIGN CHOICE: an offset at
which R48 counts a register that no chapter describes is UNMAPPED (log entry 18). -/
def mapped (addr : Nat) : Bool :=
  (rowOf addr).isSome || (pageHasSnap addr && decide (0x800 ≤ addr % 0x1000))
    || decide (0x28 ≤ addr % 0x1000 ∧ addr % 0x1000 < 0x40)

/-- The host operations of `SKEIN` (R393) lie at 0x280 to 0x297. -/
def skeinHostOp (addr : Nat) : Bool := decide (Pg.SKEIN + 0x280 ≤ addr ∧ addr < Pg.SKEIN + 0x298)

/-- Whether PF1 or a VF reaches a page at all (R411); a VF's own map has been applied before. -/
def dataFnReaches (isPf1 : Bool) (addr : Nat) : Bool :=
  decide (addr < 0x1000) || decide (Pg.HQ ≤ addr ∧ addr < Pg.HQ + 0x2000)
    || decide (Pg.TIME ≤ addr ∧ addr < Pg.TIME + 0x1000) || decide (Pg.SKEIN ≤ addr ∧ addr < Pg.SKEIN + 0x1000)
    || decide (Pg.MARK ≤ addr ∧ addr < Pg.MARK + 0x8000)
    || (isPf1 && decide (Pg.TSQ ≤ addr ∧ addr < Pg.TSQ + 0x1000))

/-- Whether R411 gives PF1 and the VFs this register as read only. -/
def dataFnReadOnly (addr : Nat) : Bool :=
  decide (addr < 0x1000) || decide (Pg.TIME ≤ addr ∧ addr < Pg.TIME + 0x1000)
    || (decide (Pg.SKEIN ≤ addr ∧ addr < Pg.SKEIN + 0x1000) && !skeinHostOp addr)
    || (decide (Pg.TSQ ≤ addr ∧ addr < Pg.TSQ + 0x1000) &&
        match rowOf addr with
        | some r => decide (r.w1c = 0)
        | none => true)

/-- The time correction modes (R273), as `TIME.STAT.MODE` encodes them. -/
def modeFree : Nat := 0
def modeFirmware : Nat := 1
def modeHost : Nat := 2
def modeTension : Nat := 3

/-- Whether an engine is a customer engine (R166): `NDLn.CFG.ROLE` is 1. -/
def State.ndlCustomer (s : State) (base : Nat) : Bool := decide (s.get base NDL.CFG_ROLE = 1)

/-- Whether a source may write a register of a class; `base` is the base of the register's block. -/
def State.mayWrite (s : State) (src : Source) (base : Nat) : WClass → Bool
  | .any => true
  | .mbx => true
  | .pf0 => decide (src = .pf0)
  | .fw => src.isHook
  | .pf0fw => decide (src = .pf0) || src.isHook
  | .inc =>
    let m := s.get Pg.TIME TIME0.STAT_MODE
    (decide (m = modeFirmware) && src.isHook) || (decide (m = modeHost) && decide (src = .pf0))
  | .step =>
    let m := s.get Pg.TIME TIME0.STAT_MODE
    (decide (m = modeFirmware) && src.isHook) || (decide (m = modeHost) && decide (src = .pf0))
      || (decide (m = modeTension) && src.isHook && !s.bit Pg.TIME TIME0.STAT_VALID)
  | .ndl => src.isHook || (decide (src = .pf0) && s.ndlCustomer base)

/-- Whether register access over JTAG is granted (R60). -/
def State.debugOpen (s : State) : Bool := decide (s.fuses.debug = 0) || s.bit Pg.SEC SEC0.PROTECT_DEBUG_ACTIVE

/-- An access that reaches its register, or where it is recorded and under which reason (R34, R550). -/
inductive Access where
  | ok (addr : Nat)
  | rejected (page : Nat) (r : Reason)
deriving DecidableEq, Repr

/-- The checks every access meets before its register's own, in the order of R550; `PAGE_CTRL` of an engine is writable as
its `KICK` is (R166).  DESIGN CHOICE: a write by PF1 or a VF to
a snapshot view of a page it may only read is recorded under R411 as any write of that page (log entry 18). -/
def State.access (s : State) (src : Source) (addr : Nat) (write : Bool) : Access :=
  match src.target addr with
  | none => .rejected Pg.DEV .unmapped
  | some a =>
    match blockOf a with
    | none => .rejected Pg.DEV .unmapped
    | some b =>
      let page := a - a % 0x1000
      let dataFn : Bool := match src with
        | .pf1 => true
        | .vf _ => true
        | _ => false
      if s.domIsOff b.dom then .rejected Pg.DEV .poweredOff
      else if !mapped a then .rejected page .unmapped
      else if dataFn && !dataFnReaches (decide (src = .pf1)) a then .rejected Pg.DEV .privilege
      else if dataFn && write && dataFnReadOnly a then .rejected Pg.DEV .privilege
      else if decide (src = .jtag) && !s.debugOpen then .rejected page .privilege
      else if decide (b.type = 0x07) && decide (0x40 ≤ a % 0x1000) &&
          !decide (src = if a < 0x9000 then Source.pf0 else Source.mgmt) then .rejected page .privilege
      else
        match rowOf a with
        | some r =>
          let wclass := if decide (b.type = 0x28) && decide (a = b.base + HDR.PAGE_CTRL.off) then WClass.ndl else r.wclass
          if write && !s.mayWrite src b.base wclass then .rejected page .privilege else .ok a
        | none => .ok a

/-- The checks on an access to a register given by its place in the directory. -/
def State.accessReg (s : State) (src : Source) (a : Nat) (write : Bool) : Access := s.access src (src.bar a) write

/-- What the source of a refused read gets: all ones from a powered-off page, else 0 (R25, R26, R35). -/
def Reason.readValue : Reason → Word
  | .poweredOff => 0xFFFFFFFF
  | _ => 0

/-- A refused access: recorded, and a read answered (R34). -/
def State.refuse (s : State) (src : Source) (page : Nat) (r : Reason) (write : Bool) (addr : Nat) : State :=
  let s := s.reject page src r write (addr % 0x1000)
  if write then s else { s with rdata := r.readValue }

/-! ### Latches and staging registers (R29 to R31) -/

/-- The key of a source's latch or staging register in a page. -/
def latchKey (addr : Nat) (src : Source) : Nat := addr / 0x1000 * 512 + src.num

/-- A latch or a staging register after the reset of its page. -/
def latchReset : Nat → LoLatch := fun _ => ⟨none, 0⟩
def stageReset : Nat → Stage := fun _ => ⟨none, 0⟩

/-- Whether capture-and-clear is armed or periodic (R44). -/
def State.captureClear (s : State) : Bool := s.snap.pending && s.snap.clear

/-- Whether a live read clears an RC register at an offset (R44). -/
def State.readClears (s : State) (addr : Nat) (r : RegRow) : Bool :=
  decide (r.rc ≠ 0) && !(r.ctr && pageHasSnap addr && s.captureClear)

/-- The low half that a commit of the `_HI` register at an offset takes (R30): the staged one, or the one in force. -/
def State.stagedLo (s : State) (src : Source) (addr : Nat) : Word :=
  let g := SMap.get stageReset s.staging (latchKey addr src)
  if g.lo = some (addr % 0x1000 - 4) then g.val else s.busWord (addr - 4)

/-- A source's staging register after a commit of its page (R30). -/
def State.endStage (s : State) (src : Source) (addr : Nat) : State :=
  { s with staging := SMap.set stageReset s.staging (latchKey addr src) ⟨none, 0⟩ }

/-- The bits a write stores at a register (R28): RW bits as written, W1C bits cleared, W1S bits set. -/
def RegRow.store (r : RegRow) (old v : Word) : Word :=
  let rw := BitVec.ofNat 32 r.rw
  let w1c := BitVec.ofNat 32 r.w1c
  let w1s := BitVec.ofNat 32 r.w1s
  (((old &&& ~~~ rw) ||| (v &&& rw)) &&& ~~~ (v &&& w1c)) ||| (v &&& w1s)

/-- A write carried out at a mapped register by its access codes alone (R28). -/
def State.storeReg (s : State) (addr : Nat) (v : Word) : State :=
  match rowOf addr with
  | some r => s.wr addr (r.store (s.rd addr) v)
  | none => s

/-- Both halves of a pair committed in one cycle (R30). -/
def State.commitPair (s : State) (src : Source) (hiAddr : Nat) (hi : Word) : State :=
  let lo := s.stagedLo src hiAddr
  ((s.storeReg (hiAddr - 4) lo).storeReg hiAddr hi).endStage src hiAddr

/-- Whether a register written in full lies in OFF-only configuration while its function is not in OFF (R40). -/
def State.offOnlyStops (s : State) (addr : Nat) : Bool :=
  match rowOf addr, blockOf addr with
  | some r, some b =>
    match fnOfBlock b with
    | some f => decide (r.offOnly ≠ 0) && !s.fnIs f .off
    | none => false
  | _, _ => false

/-! ### Meanings -/

/-- SIZE_VIOLATION_ACCESS (R26, R550): recorded in the page accessed with reason SIZE, whoever may reach it, unless a reason
that comes first applies; an access that is 32-bit and aligned is no violation. -/
def execSizeViolationAccess (src : Source) (addr : BitVec 24) (bytes : Nat) (write : Bool) (s : State) :
    Host.Outcome State Fault Refusal :=
  if bytes = 4 ∧ addr.toNat % 4 = 0 then .next s
  else
    .next (match s.access src (addr.toNat - addr.toNat % 4) write with
      | .rejected p .poweredOff => s.refuse src p .poweredOff write addr.toNat
      | .rejected p .unmapped => s.refuse src p .unmapped write addr.toNat
      | _ =>
        let a := (src.target (addr.toNat - addr.toNat % 4)).getD 0
        s.refuse src (a - a % 0x1000) .size write addr.toNat)

end Sys2Proof.Machine
end

