-- ==== Sys2Proof/Machine/Skein.lean ====
section
/-!
DEFINITION. Machine/Skein.lean: the buffer pool manager (R375 to R389, R392, R393).
-/

namespace Sys2Proof.Machine

/-! ### Arrays held out of use (R401) -/

namespace Arr
def eqContext : Nat := 2
def rule : Nat := 3
def node : Nat := 4
def policer : Nat := 5
def rss : Nat := 6
def pattern : Nat := 7
def bitmap : Nat := 8
def tag : Nat := 9
end Arr

/-- Whether an entry of an array is held out of use until it is rewritten. -/
def State.isBad (s : State) (arr n : Nat) : Bool := SMap.get (fun _ => false) s.mem.bad (arr * 2 ^ 32 + n)

/-- An entry taken out of use, or rewritten. -/
def State.setBad (s : State) (arr n : Nat) (b : Bool) : State :=
  { s with mem := { s.mem with bad := SMap.set (fun _ => false) s.mem.bad (arr * 2 ^ 32 + n) b } }

/-- A pool no command has touched. -/
def poolReset : Nat → PoolSt := fun _ => ⟨false, false, [], []⟩

/-- What Skein keeps of a pool. -/
def State.pool (s : State) (p : Nat) : PoolSt := SMap.get poolReset s.skein.pools p

/-- The same, replaced. -/
def State.setPool (s : State) (p : Nat) (x : PoolSt) : State :=
  { s with skein := { s.skein with pools := SMap.set poolReset s.skein.pools p x } }

/-- Whether a pool is enabled. -/
def State.poolEn (s : State) (p : Nat) : Bool := s.bit Pg.SKEIN (SKEIN.POOL_CTRL_EN p)

/-- COUNT and FREE of a pool, and its buffer size S in bytes. -/
def State.poolCount (s : State) (p : Nat) : Nat := s.get Pg.SKEIN (SKEIN.POOL_COUNT p)
def State.poolFree (s : State) (p : Nat) : Nat := s.get Pg.SKEIN (SKEIN.POOL_FREE p)
def State.poolSize (s : State) (p : Nat) : Nat := 256 * 2 ^ s.get Pg.SKEIN (SKEIN.POOL_CTRL_SIZE p)

/-- Byte address of buffer 0 of a pool. -/
def State.poolBase (s : State) (p : Nat) : Nat :=
  s.get Pg.SKEIN (SKEIN.POOL_BASE_LO p) * 2 ^ 12 + s.get Pg.SKEIN (SKEIN.POOL_BASE_HI p) * 2 ^ 32

/-- The footprint of a pool (R376): COUNT x (S + 2) bytes, rounded up to 4 KiB. -/
def State.footprint (s : State) (p : Nat) : Nat := (s.poolCount p * (s.poolSize p + 2) + 4095) / 4096 * 4096

/-- Bytes of usable LPDDR5X, and of the firmware region (R390, R391). -/
def usableMem : Nat := 24995904 * 2048
def firmwareRegion : Nat := 0x40000000

/-- Two intervals given by start and length overlap. -/
def overlaps (a n b m : Nat) : Bool := decide (max a b < min (a + n) (b + m))

/-- The checks of R377 on a pool as its registers stand; PF0 may not enter the firmware region (R391). -/
def State.poolFits (s : State) (p : Nat) (src : Source) : Bool :=
  let loc := s.bit Pg.SKEIN (SKEIN.POOL_CTRL_LOC p)
  let base := s.poolBase p
  let len := s.footprint p
  let leaf := s.get Pg.SKEIN (SKEIN.POOL_CTRL_BM_BASE p) * 16384
  decide (s.get Pg.SKEIN (SKEIN.POOL_CTRL_SIZE p) ≤ 6) && decide (1 ≤ s.poolCount p) && decide (s.poolCount p ≤ 16777216)
    && (if loc then decide (base + len ≤ usableMem) && !(decide (src = .pf0) && overlaps base len 0 firmwareRegion)
        else decide (0x00800000 ≤ base ∧ base + len ≤ 0x02000000))
    && decide (leaf + s.poolCount p ≤ 16777216)
    && (List.range 16).all (fun o =>
        decide (o = p) || !(s.poolEn o || (s.pool o).draining)
          || !((decide (s.bit Pg.SKEIN (SKEIN.POOL_CTRL_LOC o) = loc) && overlaps base len (s.poolBase o) (s.footprint o))
               || overlaps leaf (s.poolCount p) (s.get Pg.SKEIN (SKEIN.POOL_CTRL_BM_BASE o) * 16384) (s.poolCount o)))

/-- FREE of a pool set, and MIN_FREE kept the lowest. -/
def State.setPoolFree (s : State) (p n : Nat) : State :=
  let s := s.set Pg.SKEIN (SKEIN.POOL_FREE p) n
  if n < s.get Pg.SKEIN (SKEIN.POOL_MIN_FREE p) then s.set Pg.SKEIN (SKEIN.POOL_MIN_FREE p) n else s

/-! ### Results (R383, R387, R393) -/

namespace Skr
def ok : Nat := 0
def empty : Nat := 1
def disabled : Nat := 2
def notPermitted : Nat := 3
def freeOfFree : Nat := 4
def notOwner : Nat := 5
def stale : Nat := 6
def badHandle : Nat := 7
end Skr

/-- A handle from its parts (R379), and its parts. -/
def mkHandle (pool index gen : Nat) : Nat := pool * 2 ^ 32 + index * 2 ^ 8 + gen
def handlePool (h : Nat) : Nat := h / 2 ^ 32 % 16
def handleIndex (h : Nat) : Nat := h / 2 ^ 8 % 2 ^ 24
def handleGen (h : Nat) : Nat := h % 256

/-- The lowest index that a rising list of keys does not hold. -/
def lowestGap : List Nat → Nat → Nat
  | [], k => k
  | a :: as, k => if a = k then lowestGap as (k + 1) else k

/-- One allocation from a pool for an owner (R380, R383): RESULT and handle. -/
def State.alloc1 (s : State) (p owner : Nat) : Nat × Nat × State :=
  if !s.poolEn p || (s.pool p).draining then (Skr.disabled, 0, s)
  else if s.poolFree p = 0 then (Skr.empty, 0, s.inc Pg.SKEIN (SKEIN.EMPTY p))
  else
    let x := s.pool p
    let i := lowestGap (x.used.map (fun kv => kv.1)) 0
    let g := SMap.get (fun _ => 0) x.gens i
    (Skr.ok, mkHandle p i g,
      (s.setPool p { x with used := SMap.set (fun _ => none) x.used i (some (owner, g)) }).setPoolFree p (s.poolFree p - 1))

/-- The check of a free or handover (R387), and the OWNER of the tag where VIOL_INFO names it (R388). -/
def State.checkHandle (s : State) (caller h : Nat) : Nat × Nat :=
  let p := handlePool h
  let x := s.pool p
  if 2 ^ 36 ≤ h ∨ (s.poolEn p || x.draining) = false ∨ s.poolCount p ≤ handleIndex h then (Skr.badHandle, 0)
  else
    match SMap.get (fun _ => none) x.used (handleIndex h) with
    | none => (Skr.freeOfFree, 0)
    | some (o, g) =>
      if g ≠ handleGen h then (Skr.stale, o)
      else if o ≠ caller then (Skr.notOwner, o)
      else (Skr.ok, o)

/-- A violation counted, signalled and recorded (R388). -/
def State.violation (s : State) (res caller owner h : Nat) (handover : Bool) : State :=
  let s :=
    if res = Skr.freeOfFree then (s.inc Pg.SKEIN SKEIN.FREE_OF_FREE).evt Pg.SKEIN 8
    else if res = Skr.notOwner then (s.inc Pg.SKEIN SKEIN.FREE_NOT_OWNER).evt Pg.SKEIN 9
    else if res = Skr.stale then (s.inc Pg.SKEIN SKEIN.STALE_HANDLE).evt Pg.SKEIN 10
    else (s.inc Pg.SKEIN SKEIN.BAD_HANDLE).evt Pg.SKEIN 11
  (s.wr (Pg.SKEIN + SKEIN.VIOL_INFO.off)
    (BitVec.ofNat 32 (res * 2 ^ 28 + (if handover then 2 ^ 24 else 0) + caller * 2 ^ 16 + owner % 64 * 2 ^ 8 + handlePool h))).wr
    (Pg.SKEIN + SKEIN.VIOL_INDEX.off) (BitVec.ofNat 32 h)

/-- Whether a buffer is held from allocation until its pool is enabled again: by its bitmap word or its tag (R399, R401). -/
def State.heldBuf (s : State) (p i : Nat) : Bool :=
  s.isBad Arr.bitmap ((s.get Pg.SKEIN (SKEIN.POOL_CTRL_BM_BASE p) * 16384 + i) / 32) || s.isBad Arr.tag (p * 2 ^ 24 + i)

/-- The owner of a buffer that is held so: nobody. -/
def heldOwner : Nat := 64

/-- A buffer made free with GEN advanced (R380); a held one stays as allocated. -/
def State.putFree (s : State) (h : Nat) : State :=
  let p := handlePool h
  let x := s.pool p
  let i := handleIndex h
  if s.heldBuf p i then
    s.setPool p { x with used := SMap.set (fun _ => none) x.used i (some (heldOwner, (handleGen h + 1) % 256)) }
  else
    (s.setPool p { x with used := SMap.erase x.used i, gens := SMap.set (fun _ => 0) x.gens i ((handleGen h + 1) % 256) }).setPoolFree
      p (s.poolFree p + 1)

/-- A free by a caller (R387, R388): RESULT and the state after. -/
def State.freeBuf (s : State) (caller h : Nat) : Nat × State :=
  let c := s.checkHandle caller h
  if c.1 = Skr.ok then (Skr.ok, s.putFree h) else (c.1, s.violation c.1 caller c.2 h false)

/-- A handover by a caller (R380, R387, R388). -/
def State.handOver (s : State) (caller h to_ : Nat) : Nat × State :=
  let c := s.checkHandle caller h
  if c.1 = Skr.ok then
    let x := s.pool (handlePool h)
    (Skr.ok, s.setPool (handlePool h)
      { x with used := SMap.set (fun _ => none) x.used (handleIndex h) (some (to_, handleGen h)) })
  else (c.1, s.violation c.1 caller c.2 h true)

/-! ### Producers (R386) -/

/-- The entry of a producer in `SKEIN.PROD`. -/
def State.prod (s : State) (n : Nat) : Nat :=
  if n % 2 = 0 then s.get Pg.SKEIN (SKEIN.PROD_EVEN (n / 2)) else s.get Pg.SKEIN (SKEIN.PROD_ODD (n / 2))

/-- Producer n acts as owner n, firmware (producer 9) as owner 10. -/
def prodOwner (n : Nat) : Nat := if n = 9 then 10 else n

/-- An allocation by a producer from one pool, with the spill bucket for LOC 1 (R386), which is charged for the bytes that
a buffer takes (R23). -/
def State.allocFrom (s : State) (n p left : Nat) : Nat × Nat × State :=
  let bytes := min left (s.poolSize p)
  if n < 9 ∧ s.bit Pg.SKEIN (SKEIN.POOL_CTRL_LOC p) = true ∧ s.poolEn p = true ∧ s.skein.tokens < bytes then
    (Skr.empty, 0, (s.inc Pg.SKEIN SKEIN.SPILL_REFUSED).inc Pg.SKEIN (SKEIN.EMPTY p))
  else
    match s.alloc1 p (prodOwner n) with
    | (0, h, t) =>
      if n < 9 ∧ s.bit Pg.SKEIN (SKEIN.POOL_CTRL_LOC p) = true then
        (0, h, ({ t with skein := { t.skein with tokens := t.skein.tokens - bytes } } : State).add64 Pg.SKEIN SKEIN.SPILL_BYTES_LO bytes)
      else (0, h, t)
    | r => r

/-- An allocation by a producer: the primary pool, then on EMPTY its spill pool (R386). -/
def State.allocProd (s : State) (n bytes : Nat) : Nat × Nat × State :=
  let e := s.prod n
  match s.allocFrom n (e % 16) bytes with
  | (1, h, t) => if e / 2 ^ 15 % 2 = 1 then t.allocFrom n (e / 16 % 16) bytes else (1, h, t)
  | r => r

/-- Buffers freed by the unit that holds them. -/
def State.freeAll (s : State) (caller : Nat) (hs : List (Nat × Nat × Nat)) : State :=
  hs.foldl (fun s h => (s.freeBuf caller (mkHandle h.1 h.2.1 h.2.2)).2) s

/-- Buffers for so many bytes, taken one after another; none when one allocation fails, those taken freed again.
The number of rounds bounds the buffers a frame may need. -/
def State.allocRun (s : State) (n : Nat) : Nat → Nat → List (Nat × Nat × Nat) → Option (List (Nat × Nat × Nat)) × State
  | 0, _, acc => (some acc, s)
  | k + 1, left, acc =>
    match s.allocProd n left with
    | (0, h, t) =>
      let acc := acc ++ [(handlePool h, handleIndex h, handleGen h)]
      let size := t.poolSize (handlePool h)
      if left ≤ size then (some acc, t) else t.allocRun n k (left - size) acc
    | (_, _, t) => (none, t.freeAll (prodOwner n) acc)

/-- The buffers of a frame for a receiving unit (R18): each as large as its pool's buffers are. -/
def State.allocFrame (s : State) (n bytes : Nat) : Option (List (Nat × Nat × Nat)) × State :=
  s.allocRun n (bytes / 256 + 1) bytes []

/-- A frame's buffers handed over to owner 9 when it enters `CLS` (R382). -/
def State.toPath (s : State) (n : Nat) (hs : List (Nat × Nat × Nat)) : State :=
  hs.foldl (fun s h => (s.handOver (prodOwner n) (mkHandle h.1 h.2.1 h.2.2) 9).2) s

/-- The packet path frees the buffers of a frame that leaves or is dropped (R382). -/
def State.freePkt (s : State) (k : Pkt) : State := s.freeAll 9 k.bufs

/-! ### Host operations (R392, R393) -/

/-- The owner ID a source acts under (R392); none where the operations are refused. -/
def State.skeinOwner (s : State) (src : Source) : Option Nat :=
  match src with
  | .hook _ => some 10
  | _ =>
    match src.func with
    | none => none
    | some f =>
      if s.feat 17 then
        ((List.range 32).find? (fun k => decide
          ((s.rd (Pg.SKEIN + (SKEIN.HOST_OWNER (k / 4)).off)).toNat / 2 ^ (8 * (k % 4)) % 256 = f))).map (fun k => 32 + k)
      else none

/-- A register kept per source (R31): its value for the source, 0 where it has written none. -/
def State.srcReg (s : State) (addr : Nat) (src : Source) : Word := SMap.get (fun _ => 0) s.perSrc (addr * 512 + src.num)

/-- The same, replaced. -/
def State.setSrcReg (s : State) (addr : Nat) (src : Source) (w : Word) : State :=
  { s with perSrc := SMap.set (fun _ => 0) s.perSrc (addr * 512 + src.num) w }

/-- The read of `ALLOC_LO` (R393). -/
def State.allocLoRead (s : State) (src : Source) (addr : Nat) : State :=
  match s.accessReg src addr false with
  | .rejected p r => s.refuse src p r false addr
  | .ok a =>
    let r : Nat × Nat × State :=
      match s.skeinOwner src with
      | none => (Skr.notPermitted, 0, s)
      | some o => s.alloc1 ((s.srcReg (Pg.SKEIN + SKEIN.ALLOC_SEL.off) src).toNat % 16) o
    let hi : Word := BitVec.ofNat 32 (r.1 * 2 ^ 28 + handlePool r.2.1)
    let t := r.2.2
    { t with rdata := BitVec.ofNat 32 r.2.1,
             latches := SMap.set latchReset t.latches (latchKey a src) ⟨some (a % 0x1000), hi⟩ }

/-- The commit of `FREE_HI` (R393). -/
def State.freeHiWrite (s : State) (src : Source) (addr : Nat) (hi : Word) : State :=
  match s.accessReg src addr true with
  | .rejected p r => s.refuse src p r true addr
  | .ok a =>
    let h := (s.stagedLo src a).toNat + hi.toNat % 16 * 2 ^ 32
    let t := s.endStage src a
    let r : Nat × State :=
      match s.skeinOwner src with
      | none => (Skr.notPermitted, t)
      | some o => t.freeBuf o h
    r.2.setSrcReg (Pg.SKEIN + SKEIN.FREE_RSP.off) src (BitVec.ofNat 32 r.1)

/-! ### Meanings -/

/-- Everything that holds buffers of a pool is over when it is enabled again (R399, R401). -/
def State.clearHeld (s : State) (p : Nat) : State :=
  let leaf := s.get Pg.SKEIN (SKEIN.POOL_CTRL_BM_BASE p) * 16384
  let ours := fun (k : Nat) =>
    (decide (k / 2 ^ 32 = Arr.bitmap) && decide (leaf / 32 ≤ k % 2 ^ 32 ∧ k % 2 ^ 32 * 32 < leaf + s.poolCount p))
      || (decide (k / 2 ^ 32 = Arr.tag) && decide (k % 2 ^ 32 / 2 ^ 24 = p))
  { s with mem := { s.mem with bad := SMap.drop ours s.mem.bad } }

/-- A write of `POOL[p].CTRL` (R377, R378). -/
def State.poolCtrl (s : State) (src : Source) (p : Nat) (val : Word) : State :=
  let a := Pg.SKEIN + (SKEIN.POOL_CTRL p).off
  let en := decide (2 ^ 31 ≤ val.toNat)
  let same := decide ((SKEIN.POOL_CTRL_LOC p).get val = s.get Pg.SKEIN (SKEIN.POOL_CTRL_LOC p))
    && decide ((SKEIN.POOL_CTRL_SIZE p).get val = s.get Pg.SKEIN (SKEIN.POOL_CTRL_SIZE p))
    && decide ((SKEIN.POOL_CTRL_BM_BASE p).get val = s.get Pg.SKEIN (SKEIN.POOL_CTRL_BM_BASE p))
  match s.accessReg src a true with
  | .rejected pg r => s.refuse src pg r true a
  | .ok _ =>
    let locked := s.poolEn p || (s.pool p).draining
    if locked && !same then s.refuse src Pg.SKEIN .locked true a
    else
      let was := s.poolEn p
      let t := (s.storeReg a val).set Pg.SKEIN (SKEIN.POOL_CTRL_EN p) 0
      if en then
        if was then s
        else if t.poolFits p src then
          let t := t.clearHeld p
          (((t.set Pg.SKEIN (SKEIN.POOL_CTRL_EN p) 1).setPool p ⟨false, true, [], []⟩).set Pg.SKEIN (SKEIN.POOL_FREE p) 0).set
            Pg.SKEIN (SKEIN.POOL_MIN_FREE p) 0
        else t.evt Pg.SKEIN 12
      else if was && decide (t.poolFree p < t.poolCount p) then t.setPool p { t.pool p with draining := true }
      else t

/-- POOL_ENABLE (R376 to R378). -/
def execPoolEnable (src : Source) (pool : Fin 16) (val : Word) (s : State) : Host.Outcome State Fault Refusal :=
  .next (s.poolCtrl src pool.val val)

/-- POOL_DISABLE (R378). -/
def execPoolDisable (src : Source) (pool : Fin 16) (val : Word) (s : State) : Host.Outcome State Fault Refusal :=
  .next (s.poolCtrl src pool.val val)

/-- POOL_INIT_DONE (R377). -/
def execPoolInitDone (pool : Fin 16) (s : State) : Host.Outcome State Fault Refusal :=
  let p := pool.val
  .next (
    if (s.pool p).init then
      ((s.setPool p { s.pool p with init := false }).set Pg.SKEIN (SKEIN.POOL_FREE p) (s.poolCount p)).set Pg.SKEIN
        (SKEIN.POOL_MIN_FREE p) (s.poolCount p)
    else s)

/-- POOL_DRAIN_END (R378). -/
def execPoolDrainEnd (pool : Fin 16) (s : State) : Host.Outcome State Fault Refusal :=
  let p := pool.val
  .next (
    if (s.pool p).draining && decide (s.poolFree p = s.poolCount p) then s.setPool p { s.pool p with draining := false } else s)

/-- ALLOCATION (R383 to R386): the answer is kept in `skein.answer`. -/
def execAllocation (producer : Fin 10) (bytes : Fin 16385) (s : State) : Host.Outcome State Fault Refusal :=
  let r := s.allocProd producer.val bytes.val
  .next { r.2.2 with skein := { r.2.2.skein with answer := (r.1, r.2.1) } }

/-- SPILL_TICK (R386). -/
def execSpillTick (s : State) : Host.Outcome State Fault Refusal :=
  .next { s with skein := { s.skein with tokens := min 65536 (s.skein.tokens + 51200) } }

/-- ALLOC_LO_READ (R392, R393). -/
def execAllocLoRead (src : Source) (s : State) : Host.Outcome State Fault Refusal :=
  .next (s.allocLoRead src (Pg.SKEIN + SKEIN.ALLOC_LO.off))

/-- FREE_HI_WRITE (R392, R393). -/
def execFreeHiWrite (src : Source) (val : Word) (s : State) : Host.Outcome State Fault Refusal :=
  .next (s.freeHiWrite src (Pg.SKEIN + SKEIN.FREE_HI.off) val)

end Sys2Proof.Machine
end

