-- ==== Sys2Proof/Config.lean ====
section
/-!
DEFINITION. Config.lean: what the spec leaves open, as constants without a body.

Nothing in Lean can evaluate one of these or prove a value of it, so a statement that is proved holds whatever they
are.  Each is named in a log entry.
-/

namespace Sys2Proof.Config

/-- Free value: whether a quotient that is not whole is rounded up, where the spec states no rounding.  The first
operand names the place. -/
opaque roundsUp : Nat → Int → Int → Bool

/-- Free value: a quotient whose divisor is 0.  The first operand names the place. -/
opaque divZero : Nat → Int → Int

/-- Free value: the filter of R283 and R274, from the last filtered offset and the new raw one, in 2^-8 ns. -/
opaque offsetFilter : Option Int → Int → Int

/-- Free value: the filter that gives the o of `TWIN_OFFSET` (R514), from the last filtered o and the new one, in 2^-16 ns. -/
opaque twinFilter : Option Int → Int → Int

/-- Free value: firmware's estimate of the increment that keeps the counter at the reference's frequency, in 2^-40 ns. -/
opaque freqEstimate : Nat → Nat

/-- Free value: the increment firmware picks to slew an offset out, before the limit of R284, in 2^-40 ns. -/
opaque slewIncrement : Nat → Int → Nat

/-- Free value: the increment of the held frequency (R285), in 2^-40 ns. -/
opaque heldIncrement : Nat → Nat

/-- Free value: the estimated error bound sent in ToD field 7 (R289), in ns. -/
opaque errorBound : Nat → Nat

/-- Free values: the cutoffs of the repetition count test and of the adaptive proportion test (R87), which NIST
SP 800-90B leaves to the entropy that a source is credited with. -/
opaque repetitionCutoff : Nat
opaque proportionCutoff : Nat

/-- Free value: a byte of host memory, at an address, as a transfer reads it (R78). -/
opaque hostByte : Nat → Nat → Byte

/-- Free value: the case temperature in degrees when FUSE_PROGRAM is asked for by a write of GO (R57), and whether its
read-back passes. -/
opaque caseTemp : Nat → Int
opaque fuseReadBack : Nat → Bool

/-- Free value: the bytes of the measurement log (R76, R77, R79), whose format the spec does not give. -/
opaque measLogBytes : List (Nat × List Byte) → List Byte

/-- Free value: the bytes of the boot and update log (R79), whose format the spec does not give. -/
opaque bootLogBytes : List (Nat × Nat) → List Byte

/-- Free value: the response words of GET_INFO (R79) for a firmware VERSION, a bank and a STAGE. -/
opaque infoWords : Nat → Nat → Nat → List Word

/-- Free value: the response word of UPDATE_STATUS (R79) for a phase, 0 IDLE to 5 ROLLED_BACK, and a core. -/
opaque updateWord : Nat → Nat → Word

/-- Free value: the bytes of `SEC.PROTECT` and the straps that MEAS0 is extended over (R54, R76). -/
opaque meas0Bytes : Nat → Nat → Nat → List Byte

/-- Free value: the nonce of a debug challenge (R60). -/
opaque challengeNonce : Nat → List Byte

/-- Free value: whether a fuse bit took in a FUSE_PROGRAM whose read-back failed (R57). -/
opaque fuseTakes : Nat → Nat → Bool

/-- Free value: the laser-on lead that the calibration of a port's BOSA calls for, in symbols (R241). -/
opaque bosaLead : Nat → Nat

/-- Free value: whether F2 optics are fitted on a port (R159, R233). -/
opaque f2Fitted : Nat → Bool

/-- Free value: a byte of the memory of a port's BOSA (R163, R262): it is no part of the LB880. -/
opaque bosaByte : Nat → Nat → Byte

/-- Free value: the draw that gives the discovery delay D (R240). -/
opaque discoveryDraw : Nat → Nat

/-- Free value: the status of a send dropped for a cause R426 gives no status (packet numbers used up). -/
opaque dropStatus : Nat → Nat

/-- Free value: whether C is set by a borrow (else by its absence) after SUB and CMP of a Needle engine (R181). -/
opaque subBorrowSetsC : Bool

/-- Free value: a Needle flag, word or address the spec leaves open.  The first operand names the place: 1 C of a shift
by 0; 2 the result of a shift by more than 15; 3 its C; 4 C of DIVS; 5 the cycles a move to or from the external window
takes; 6 the PC after a RET with no call; 7 how often a LOOP or a REP of count 0 runs. -/
opaque ndlFree : Nat → Nat → Nat

/-- Free value: what the vendor kernel set of a digest holds for an engine (R165, R189), whose body the spec does not lay out:
0 the program, 1 X, 2 Y, 3 C, and 4 the entry, OPMODE and MAX_CYCLES. -/
opaque vendorKernel : List Byte → Nat → Nat → List Nat

/-- Free value: the upper bits of a wider register that MOV writes from a narrower one (R181), for the value moved. -/
opaque movUpper : Nat → Nat

/-- Free value: the word read from ST of a Needle engine (R170), whose layout the spec does not give, from Z, N, C, SAT,
CIRC_RELEN and AOV. -/
opaque stWord : Bool → Bool → Bool → Bool → Bool → Nat → BitVec 16

/-- Free value: the flags that a write of ST sets: Z, N, C, SAT, CIRC_RELEN, and AOV. -/
opaque stFlag : BitVec 16 → Nat → Bool
opaque stAov : BitVec 16 → Nat

/-- Free value: a word of the coefficient store that nothing has written since it was powered (R175). -/
opaque coefWord : Nat → BitVec 16

/-- Free value: the 16-bit words of a channel-estimate record (R150) for an estimate and for a noise variance, whose
scale the spec does not give. -/
opaque estWord : Int → BitVec 16
opaque noiseWord : Nat → BitVec 16

/-- Free value: a quotient of the Gauge's model whose divisor is zero (R308 to R310). -/
opaque overZero : Rat → Rat

/-- Free value: the standard deviation of DL in ps/nm (R312) that the positions of the nulls, in 1/16 subcarrier, lead to. -/
opaque dlSpread : List Int → Rat

/-- Free value: the Subsystem Vendor ID and Subsystem ID of a boot configuration image (R408), whose layout the spec does not
give, from its digest. -/
opaque subsystemIds : List Byte → Nat × Nat

/-- Free value: 0 in decibels (R306, R312), in units of 10^-6 dB. -/
opaque dbZero : Int

/-- Free value: the fourth power of the λ0 at which a BOUNDED fit takes the terms of LAMBDA_TOL and reports λ0 (R312),
from those of its two limits. -/
opaque boundedL0 : Rat → Rat → Rat

/-- Free value: a parity bit of a codeword of the LDPC mother code (R93, R120, R213), whose matrix the spec does not give,
from the information bits of the codeword. -/
opaque ldpcParity : List Bool → Nat → Bool

/-- Free values: the taps of the 31-tap Hilbert filter (R148), in units of 2^-60, and what one DAC code counts for in the
|x_a| of the DPD, in units of 2^-60. -/
opaque hilbertTap : Nat → Int
opaque dpdUnit : Int

/-- Free value: how far a soft value lies from the decision, before it is scaled by the inverse of the noise variance
(R132, R134): for a loading, a bit of it, and the equalised value. -/
opaque softDistance : Nat → Nat → Int × Int → Int

/-- Free values: the Fladon-1 receiver (R156): a sample resampled from the ADC's at a phase, the slicer's levels, the gain of
the timing loop, and the scale of its soft values. -/
opaque resample : List Int → Int → Nat → Int
opaque nrzLevel : Nat
opaque timingGain : Int
opaque nrzScale : Int

/-- Free value: the smoothed SNR of a data subcarrier (R143), in 0.1 dB, that the vendor kernel forms from the estimates and
the noise variances of a capture; and that of an upstream subcarrier, from the head end's distortion report. -/
opaque smoothedSnr : List (Int × Int) → List Nat → Nat → Int
opaque upstreamSnr : List Byte → Nat → Int

/-- Free value: a block of raw samples of the noise source (R87, R88), one bit each. -/
opaque noiseBlock : Nat → List Bool

/-- Free value: how many of a burst's DAC samples had left when it was ended early (R155, R161). -/
opaque cutPoint : Nat → Nat

end Sys2Proof.Config

namespace Sys2Proof

/-- A quotient where the spec states no rounding: either whole number next to it (log entry 8); a free value where the
divisor is 0.  `place` names the
rule's number. -/
def divFree (place : Nat) (n d : Int) : Int :=
  if d = 0 then Config.divZero place n
  else if n % d = 0 then n / d else if Config.roundsUp place n d then n / d + 1 else n / d

end Sys2Proof
end

