-- ==== Sys2Proof/Machine/Time.lean ====
section
/-!
DEFINITION. Machine/Time.lean: the time counter, its correction, the offset of a port, the time states and the timing
pins (chapter 9).  The alignment instant itself is in Machine/Align.lean.
-/

namespace Sys2Proof.Machine

/-! ### The counter (R265, R266) -/

/-- One second in units of 2^-40 ns. -/
def secUnit : Nat := 10 ^ 9 * 2 ^ 40

/-- The counter's range: 2^48 seconds. -/
def clockMod : Nat := 2 ^ 48 * secUnit

/-- The nominal increment, 2.0 ns (R266). -/
def incNominal : Nat := 2 * 2 ^ 40

/-- SEC of a stamp. -/
def secOf (t : Nat) : Nat := t / secUnit % 2 ^ 48

/-- NS of a stamp. -/
def nsOf (t : Nat) : Nat := t % secUnit / 2 ^ 40

/-- FRAC of a stamp: the upper 32 bits of the 40-bit fraction. -/
def fracOf (t : Nat) : Nat := t % 2 ^ 40 / 2 ^ 8

/-- A stamp from its parts. -/
def stampOf (sec ns frac : Nat) : Nat := sec * secUnit + ns * 2 ^ 40 + frac * 2 ^ 8

/-- A stamp as the words FRAC, NS, SEC_LO, SEC_HI. -/
def stampWords (t : Nat) : List Word :=
  [BitVec.ofNat 32 (fracOf t), BitVec.ofNat 32 (nsOf t), BitVec.ofNat 32 (secOf t), BitVec.ofNat 32 (secOf t / 2 ^ 32)]

/-- The whole seconds plus OFFSET that the outputs PPS_OUT0 and PPS_OUT1 have passed when the counter advances by its
increments to `c` (R287). -/
def State.ppsPassed (s : State) (c : Nat) : SMap (Option Nat) :=
  [0, 1].foldl (fun m n =>
    let off := s.getSigned Pg.TIME (TIME1.PPS_OUT_OFFSET n) * 2 ^ 32
    let k := ((c : Int) - off) / (secUnit : Nat)
    if ((s.clock.cnt : Int) - off) / (secUnit : Nat) < k then SMap.set (fun _ => none) m n (some k.toNat) else m) s.servo.ppsDue

/-- The trigger times passed when the counter advances by its increments to `c` (R292): the time written, and in periodic
mode every PERIOD_NS after it. -/
def State.evtPassed (s : State) (c : Nat) : SMap (Option Nat) :=
  s.servo.evtArm.foldl (fun m kv =>
    match kv.2 with
    | none => m
    | some (first, base) =>
      let p := max 200 (s.get Pg.TIME (TIME1.EVT_PERIOD_NS kv.1)) * 2 ^ 40
      let t : Int := if s.get Pg.TIME (TIME1.EVT_CTRL_MODE kv.1) = 3 then base + ((c : Int) - base) / (p : Nat) * (p : Nat) else first
      if (s.clock.cnt : Int) < t ∧ (first : Int) ≤ t ∧ t ≤ (c : Int) then SMap.set (fun _ => none) m kv.1 (some t.toNat) else m)
    s.servo.evtDue

/-- The counter advanced by `n` cycles of `ck_time` with the increment in force (R265), with the instants of outputs that it
passes (R287, R292). -/
def State.tick (s : State) (n : Nat) : State :=
  let c := s.clock.cnt + n * s.clock.inc
  { s with clock := { s.clock with cnt := c % clockMod, phase := s.clock.phase + n, cycles := s.clock.cycles + n },
           servo := { s.servo with ppsDue := s.ppsPassed c, evtDue := s.evtPassed c } }

/-- A step applied to the counter: a signed amount, modulo its range (R270). -/
def stepped (cnt : Nat) (neg : Bool) (mag : Nat) : Nat :=
  if neg then (cnt + clockMod - mag % clockMod) % clockMod else (cnt + mag) % clockMod

/-! ### Timers and pins of this chapter -/

namespace Tm
def jumpArm : Nat := 1
def prefer : Nat := 2
def lockQualify : Nat := 3
def noSelection : Nat := 4
def holdover : Nat := 5
def tod : Nat := 6
def ptm : Nat := 7
def ptmPeriod : Nat := 8
def refAge (p : Port) : Nat := 10 + p.num
def ppsWidth (n : Nat) : Nat := 12 + n
def evtWidth (n : Nat) : Nat := 16 + n
end Tm

namespace Pin
def ppsOut (n : Nat) : Nat := n
def clk10 : Nat := 2
def evt (n : Nat) : Nat := 8 + n
/-- LA_BEN and LB_BEN. -/
def ben (p : Port) : Nat := 16 + p.num
def mainEn : Nat := 20
def serveOut : Nat := 21
/-- SITEn_TX_DISABLE low: the module's transmitter is enabled. -/
def siteTx (n : Nat) : Nat := 24 + n
end Pin

/-- Level of an output pin: whether it is active. -/
def State.pin (s : State) (n : Nat) : Bool := SMap.get (fun _ => false) s.pins n

/-- An output pin driven. -/
def State.setPin (s : State) (n : Nat) (b : Bool) : State := { s with pins := SMap.set (fun _ => false) s.pins n b }

/-- One millisecond and one second in ns. -/
def ms : Nat := 10 ^ 6
def sec : Nat := 10 ^ 9

/-- Cycles of `ck_time` in a duration of ns, at the nominal 2.0 ns. -/
def cyclesOf (ns : Nat) : Nat := ns / 2

/-- An event that a page sets at most once per millisecond. -/
def State.evtMs (s : State) (base b : Nat) : State :=
  let k := base / 0x1000 * 32 + b
  let due := match SMap.get (fun _ => none) s.evtAt k with
    | some c => decide (c + cyclesOf ms ≤ s.clock.cycles)
    | none => true
  if due then ({ s with evtAt := SMap.set (fun _ => none) s.evtAt k (some s.clock.cycles) } : State).evt base b else s

/-! ### Increments and steps (R267, R270 to R274) -/

/-- An increment committed: in force from the next alignment instant (R267). -/
def State.commitInc (s : State) (inc : Nat) : State := { s with clock := { s.clock with incPend := some (inc % 2 ^ 48) } }

/-- A step accepted: applied at the second alignment instant (R267). -/
def State.acceptStep (s : State) (neg : Bool) (mag : Nat) : State :=
  ({ s with clock := { s.clock with step := some ⟨neg, mag, 2⟩ } } : State).set Pg.TIME TIME0.STAT_STEP_PEND 1

/-- JUMP_ARMED cleared (R272); `CTRL.JUMP_ARM` reads it too. -/
def State.disarmJump (s : State) : State :=
  ((s.set Pg.TIME TIME0.STAT_JUMP_ARMED 0).set Pg.TIME TIME0.CTRL_JUMP_ARM 0).stopTimer Tm.jumpArm

/-- A committed step checked against `JUMP_LIMIT` (R271). -/
def State.checkStep (s : State) (neg : Bool) (mag : Nat) : State :=
  if !s.bit Pg.TIME TIME0.STAT_VALID then s.acceptStep neg mag
  else if mag ≤ s.get Pg.TIME TIME0.JUMP_LIMIT * 2 ^ 40 then s.acceptStep neg mag
  else if s.bit Pg.TIME TIME0.STAT_JUMP_ARMED then (s.acceptStep neg mag).disarmJump
  else (s.evt Pg.TIME 8).inc Pg.TIME TIME1.JUMP_REFUSED

/-- The magnitude staged for a step, with its high seconds as written (R270), in 2^-40 ns. -/
def State.stepMag (s : State) (secLo hi : Word) : Nat :=
  stampOf (secLo.toNat + hi.toNat % 2 ^ 16 * 2 ^ 32) (s.get Pg.TIME TIME0.STEP_NS) (s.get Pg.TIME TIME0.STEP_FRAC)

/-- A write of `STEP_SEC_HI` (R270, R271). -/
def State.stepCommit (s : State) (src : Source) (hi : Word) : State :=
  let a := Pg.TIME + TIME0.STEP_SEC_HI.off
  match s.accessReg src a true with
  | .rejected p r => s.refuse src p r true a
  | .ok _ =>
    if s.bit Pg.TIME TIME0.STAT_STEP_PEND ∨ 999999999 < s.get Pg.TIME TIME0.STEP_NS then
      s.refuse src Pg.TIME .badCommand true a
    else
      let lo := s.stagedLo src a
      let mag := s.stepMag lo hi
      (s.commitPair src a hi).checkStep (decide (2 ^ 31 ≤ hi.toNat)) mag

/-- A write of `INC_HI` (R267). -/
def State.incCommit (s : State) (src : Source) (hi : Word) : State :=
  let a := Pg.TIME + TIME0.INC_HI.off
  match s.accessReg src a true with
  | .rejected p r => s.refuse src p r true a
  | .ok _ =>
    let lo := s.stagedLo src a
    (s.commitInc ((hi.toNat % 2 ^ 16) * 2 ^ 32 + lo.toNat)).endStage src a

/-- A write of `TIME.CTRL` (R272): JUMP_ARM from PF0 only; the disarm acts after the arm. -/
def State.timeCtrl (s : State) (src : Source) (arm disarm : Bool) : State :=
  let a := Pg.TIME + TIME0.CTRL.off
  match s.accessReg src a true with
  | .rejected p r => s.refuse src p r true a
  | .ok _ =>
    if arm && !decide (src = .pf0) then s.refuse src Pg.TIME .privilege true a
    else
      let s := if arm && !s.bit Pg.TIME TIME0.STAT_JUMP_ARMED then
          ((s.set Pg.TIME TIME0.STAT_JUMP_ARMED 1).set Pg.TIME TIME0.CTRL_JUMP_ARM 1).startTimer Tm.jumpArm (10 * sec)
        else s
      if disarm then s.disarmJump else s

/-- One update of the Tension servo with an error in 2^-8 ns (R274).  y is in 2^-32 of a part in 10^9. -/
def State.tensionUpdate (s : State) (err : Int) : State :=
  let kp := s.get Pg.TIME TIME0.TENSION_CFG_KP_SHIFT
  let ki := s.get Pg.TIME TIME0.TENSION_CFG_KI_SHIFT
  let e := err * 2 ^ 24
  let i := s.servo.tensionI + e / 2 ^ ki
  let lim : Int := s.get Pg.TIME TIME0.TENSION_CFG_MAX_PPB * 2 ^ 32
  let y := clampInt (-lim) lim (e / 2 ^ kp + i)
  let fbase := s.getSigned Pg.TIME TIME0.TENSION_CFG_FBASE
  let inc := divFree 274 (2 ^ 41 * (10 ^ 9 * 2 ^ 32 - y) * (10 ^ 10 + fbase)) (10 ^ 9 * 2 ^ 32 * 10 ^ 10)
  ({ s with servo := { s.servo with tensionI := i } } : State).commitInc inc.toNat

/-! ### Offsets, selection and time states (R276 to R285) -/

/-- What firmware keeps of a port's time transfer. -/
def State.tport (s : State) : Port → TimePort
  | .portA => s.servo.portA
  | .portB => s.servo.portB

/-- The same, replaced. -/
def State.setTport (s : State) (p : Port) (t : TimePort) : State :=
  match p with
  | .portA => { s with servo := { s.servo with portA := t } }
  | .portB => { s with servo := { s.servo with portB := t } }

/-- The number of the registration state WORK (R263). -/
def regWork : Nat := 4

/-- The asymmetry source of a port (R279): 1 the Gauge, 2 configured, 0 none; and ASYM in 2^-8 ns. -/
def State.asymSource (s : State) (p : Port) : Nat × Int :=
  let i := p.num
  if s.feat 5 && decide (s.get (Pg.LFR p) LFR0.DS_CTRL_GEN = 0) && !s.bit Pg.TIME (TIME0.PORT_CTRL_FORCE_CFG i)
      && s.bit (Pg.GAUGE p) GAUGE.STAT_VALID then
    (1, s.getSigned (Pg.GAUGE p) GAUGE.ASYM)
  else if s.bit Pg.TIME (TIME0.PORT_CTRL_ASYM_VALID i) then (2, s.getSigned Pg.TIME (TIME0.PORT_ASYM_CFG i))
  else (0, 0)

/-- Whether a port is in time (R280). -/
def State.inTime (s : State) (p : Port) : Bool :=
  let t := s.tport p
  decide (s.get (Pg.LFR p) LFR2.REG_STAT_STATE = regWork) && t.rtd.isSome && decide ((s.asymSource p).1 ≠ 0)
    && s.running (Tm.refAge p)
    && (!s.servo.cfg.requireTraceable || decide ((t.ref.map RefInfo.quality) = some 0))

/-- Bits of `TIME.PORT[p].STAT` brought up to date. -/
def State.refreshPort (s : State) (p : Port) : State :=
  (s.setBit Pg.TIME (TIME0.PORT_STAT_IN_TIME p.num) (s.inTime p)).set Pg.TIME (TIME0.PORT_STAT_ASYM_SRC p.num)
    (s.asymSource p).1

/-- The time state (R281). -/
def State.tstate (s : State) : Nat := s.get Pg.TIME TIME0.STAT_STATE
def stFreeRun : Nat := 0
def stAcquiring : Nat := 1
def stLocked : Nat := 2
def stHoldover : Nat := 3

/-- The time state moved, with TSTATE_CHANGE and the timers of R281. -/
def State.moveTime (s : State) (st : Nat) : State :=
  if s.tstate = st then s
  else
    let s := (s.set Pg.TIME TIME0.STAT_STATE st).evt Pg.TIME 12
    let s := { s with servo := { s.servo with lockedAt := if st = stLocked then some s.clock.cycles else none, stepDue := false } }
    let s := if st = stAcquiring then s else s.stopTimer Tm.lockQualify
    if st = stHoldover then s.startTimer Tm.holdover (s.servo.cfg.holdoverS * sec) else s.stopTimer Tm.holdover

/-- Whether a disagreement stops firmware's correction (R283). -/
def State.correctionHeld (s : State) : Bool := s.servo.disagree && s.servo.cfg.disagreeHold

/-- A frequency estimate made in LOCKED, kept for 64 s of it (R285). -/
def State.logFreq (s : State) (f : Nat) : State :=
  if s.tstate = stLocked then
    { s with servo := { s.servo with
        freqLog := (s.clock.cycles, f) :: s.servo.freqLog.filter (fun x => decide (s.clock.cycles < x.1 + cyclesOf (64 * sec))) } }
  else s

/-- The increment of HOLDOVER (R285): the mean of the estimates of the last 64 s of LOCKED; open where there was none. -/
def State.heldIncrement (s : State) : Nat :=
  match s.servo.freqLog with
  | [] => Config.heldIncrement s.free
  | l => (divFree 285 ((l.map (fun x => x.2)).sum : Nat) l.length).toNat

/-- HOLDOVER entered; firmware commits the held increment where it writes increments at all (R273, R285). -/
def State.enterHoldover (s : State) : State :=
  let s := s.moveTime stHoldover
  if s.get Pg.TIME TIME0.STAT_MODE = modeFirmware then (s.commitInc s.heldIncrement).takeFree else s

/-- Whether an offset in 2^-8 ns exceeds `JUMP_LIMIT`. -/
def State.beyondLimit (s : State) (off : Int) : Bool := decide (s.get Pg.TIME TIME0.JUMP_LIMIT * 256 < off.natAbs)

/-- A slew (R284): within MAX_SLEW about the frequency estimate, and at MAX_SLEW after a refused step. -/
def State.slew (s : State) (off : Int) : State :=
  let est := Config.freqEstimate s.free
  let f : Int := est
  let d := f * s.servo.cfg.maxSlew / 10 ^ 9
  let full := s.servo.refused && s.beyondLimit off
  let inc := if full then (if 0 < off then f - d else f + d) else clampInt (f - d) (f + d) (Config.slewIncrement s.free off)
  let s : State := { s with servo := { s.servo with refused := full } }
  ((s.logFreq est).commitInc inc.toNat).takeFree

/-- The correction firmware makes for an offset in 2^-8 ns (R281, R284): a step for the first offset after the state has
left FREE_RUN, unless VALID is 1 and the offset is within the limit, else a slew; in TENSION mode the servo takes the
error, after a step while VALID is 0 (R273). -/
def State.correct (s : State) (off : Int) : State :=
  let mode := s.get Pg.TIME TIME0.STAT_MODE
  let valid := s.bit Pg.TIME TIME0.STAT_VALID
  let steps := s.servo.stepDue && !s.bit Pg.TIME TIME0.STAT_STEP_PEND && (!valid || s.beyondLimit off)
  let taken : State := { s with servo := { s.servo with stepDue := false } }
  let step := fun (_ : Unit) =>
    ({ taken with servo := { taken.servo with refused := valid && !s.bit Pg.TIME TIME0.STAT_JUMP_ARMED } } : State).checkStep
      (decide (0 < off)) (off.natAbs * 2 ^ 32)
  if s.correctionHeld then s
  else if mode = modeTension then (if steps && !valid then step () else taken.tensionUpdate off)
  else if mode ≠ modeFirmware then s
  else if steps then step ()
  else if s.servo.stepDue && s.bit Pg.TIME TIME0.STAT_STEP_PEND then s.slew off
  else taken.slew off

/-- The port that `TIME.STAT.SELECTED` names. -/
def State.selected (s : State) : Option Port :=
  match s.get Pg.TIME TIME0.STAT_SELECTED with
  | 1 => some .portA
  | 2 => some .portB
  | _ => none

/-- The twin as time source (R515): link ACTIVE in FALLBACK use, no line port in time and the twin's report good. -/
def State.twinUsable (s : State) : Bool := decide (s.twin.use = 2) && s.twin.timeGood && !s.inTime .portA && !s.inTime .portB

/-- Whether the preferred port still has to wait: it came into time while the other was selected, and 60 s have not passed or
REVERT is 0 (R282). -/
def State.preferWaits (s : State) : Bool :=
  let q := s.servo.cfg.prefer.other
  s.servo.revertWait && decide (s.selected = some q) && s.inTime q && (s.running Tm.prefer || !s.servo.cfg.revert)

/-- The selection R282 gives as things stand: 0 none, 1 A, 2 B, 3 the twin. -/
def State.choose (s : State) : Nat :=
  let p := s.servo.cfg.prefer
  let q := p.other
  if s.inTime p && !s.preferWaits then p.num + 1
  else if s.inTime q then q.num + 1
  else if s.twinUsable then 3
  else 0

/-- A new selection put in force (R281, R282): SOURCE_CHANGE, and the timer of no selection. -/
def State.select (s : State) (sel : Nat) : State :=
  if s.get Pg.TIME TIME0.STAT_SELECTED = sel then s
  else
    let s := (s.set Pg.TIME TIME0.STAT_SELECTED sel).evt Pg.TIME 17
    if sel = 0 then s.startTimer Tm.noSelection (2 * sec) else s.stopTimer Tm.noSelection

/-- The moves of the time state that a selection, or a disagreement that stops the correction, calls for (R281, R283).
DESIGN CHOICE: the state stays FREE_RUN while TREF_LOST is 1, and a disagreement leaves FREE_RUN as it is (log entry 54). -/
def State.settleTime (s : State) : State :=
  if s.get Pg.TIME TIME0.STAT_MODE = modeFree then s
  else if s.correctionHeld then (if s.tstate = stAcquiring ∨ s.tstate = stLocked then s.enterHoldover else s)
  else if s.get Pg.TIME TIME0.STAT_SELECTED = 0 ∨ s.bit Pg.TIME TIME0.STAT_TREF_LOST = true then s
  else if s.tstate = stFreeRun then
    let s := s.moveTime stAcquiring
    { s with servo := { s.servo with stepDue := true } }
  else if s.tstate = stHoldover then s.moveTime stAcquiring
  else s

/-- The wait of R282 brought up to date: it begins when the preferred port comes into time while the other is selected. -/
def State.revertNow (s : State) (was : Bool) : State :=
  let p := s.servo.cfg.prefer
  if decide (s.selected = some p.other) && s.inTime p then
    if s.servo.revertWait || was then s
    else ({ s with servo := { s.servo with revertWait := true } } : State).startTimer Tm.prefer (60 * sec)
  else ({ s with servo := { s.servo with revertWait := false } } : State).stopTimer Tm.prefer

/-- The selection taken afresh (SOURCE_CHANGE), and the time state with it (R281, R282). -/
def State.reselect (s : State) : State :=
  let was := s.bit Pg.TIME (TIME0.PORT_STAT_IN_TIME s.servo.cfg.prefer.num)
  let s := ((s.refreshPort .portA).refreshPort .portB).revertNow was
  ((s.select s.choose).revertNow true).settleTime

/-- The vote of R283: TIME_DISAGREE raised or cleared. -/
def State.vote (s : State) : State :=
  match s.servo.portA.filt, s.servo.portB.filt with
  | some a, some b =>
    if !(s.inTime .portA && s.inTime .portB) then s
    else if s.get Pg.TIME TIME0.VOTE_VOTE_NS * 2 ^ 8 < (a - b).natAbs then
      if s.servo.disagree then { s with servo := { s.servo with agreeRun := 0 } }
      else
        let s := ({ s with servo := { s.servo with disagree := true, agreeRun := 0 } } : State)
        ((s.evt Pg.TIME 10).inc Pg.TIME TIME1.DISAGREE).settleTime
    else if s.servo.disagree then
      if s.servo.agreeRun = 15 then ({ s with servo := { s.servo with disagree := false, agreeRun := 0 } } : State).settleTime
      else { s with servo := { s.servo with agreeRun := s.servo.agreeRun + 1 } }
    else s
  | _, _ => s

/-- The time state's moves on a new filtered offset of the selected port (R281). -/
def State.qualify (s : State) (f : Int) : State :=
  if s.tstate = stLocked ∧ 50 * 256 < f.natAbs then s.moveTime stAcquiring
  else if s.tstate = stAcquiring then
    if f.natAbs ≤ 5 * 256 then
      if s.running Tm.lockQualify then s else s.startTimer Tm.lockQualify (60 * sec)
    else s.stopTimer Tm.lockQualify
  else s

/-- The offset of R278 in units of 2^-40 ns: arrival less (reference plus downstream delay). -/
def offset40 (tArr tRef : Nat) (rtd rx tx asym : Int) : Int :=
  (tArr : Int) - ((tRef : Int) + (rtd - rx - tx + asym) * 2 ^ 31 + rx * 2 ^ 32)

/-- A big-endian field of a message. -/
def msgField (m : List Byte) (off n : Nat) : Nat := beNat ((m.drop off).take n)

/-- The CRC that ends a time message of 48 bytes (R275), in the byte order of R548. -/
def timeMsgCrcOk (m : List Byte) : Bool :=
  decide (m.length = 48) && decide (leNat ((m.drop 0x2C).take 4) = Crypto.crc32 (m.take 0x2C))

/-- A usable TIME_REF taken (R276, R278, R280 to R284), with the arrival stamp of its line frame. -/
def State.useTimeRef (s : State) (p : Port) (m : List Byte) (tArr : Nat) : State :=
  let flags := msgField m 1 1
  let q := msgField m 2 1
  let ref : RefInfo :=
    ⟨if q < 2 then q else 2, decide (flags % 2 = 1), decide (flags / 2 % 2 = 1), decide (flags / 4 % 2 = 1),
     toSigned 16 (msgField m 0x1C 2), msgField m 0x1E 2, s.clock.cycles⟩
  let tRef := stampOf (msgField m 0x0C 8 % 2 ^ 48) (msgField m 0x14 4) (msgField m 0x18 4)
  let s := s.inc Pg.TIME TIME1.TMSG_USED
  let s := (s.setTport p { s.tport p with ref := some ref }).startTimer (Tm.refAge p) (2 * sec)
  let s := s.set Pg.TIME (TIME0.PORT_STAT_QUALITY p.num) ref.quality
  let a := s.asymSource p
  match (s.tport p).rtd with
  | none => s.reselect
  | some rtd =>
    if a.1 = 0 then s.reselect
    else
      let raw := offset40 tArr tRef rtd (s.getSigned Pg.TIME (TIME0.PORT_RX_DELAY p.num))
        (s.getSigned Pg.TIME (TIME0.PORT_TX_DELAY p.num)) a.2 / 2 ^ 32
      let f := Config.offsetFilter (s.tport p).filt raw
      let s := s.set64 Pg.TIME (TIME0.PORT_OFFSET_LO p.num) (ofSigned 64 raw)
      let s := s.setTport p { s.tport p with filt := some f, asym := a.2 }
      let s := s.reselect.vote
      if s.selected = some p ∧ s.inTime p = true then
        let s := s.qualify f
        if s.get Pg.TIME TIME0.STAT_MODE = modeFree then s
        else s.correct f
      else s

/-- A time message of a port at Hook core 3 (R275, R276). -/
def State.timeMessage (s : State) (p : Port) (m : List Byte) : State :=
  if msgField m 0 1 ≠ 1 then s
  else
    let frame := msgField m 4 8 % 2 ^ 51
    match ((s.tport p).stamps.find? (fun x => decide (x.1 = frame))).bind (fun x => x.2) with
    | some t => if timeMsgCrcOk m then s.useTimeRef p m t else s.inc Pg.TIME TIME1.TMSG_DISCARD
    | none => s.inc Pg.TIME TIME1.TMSG_DISCARD

/-! ### Meanings: counter and servo -/

/-- INC_COMMIT (R267, R273). -/
def execIncCommit (src : Source) (hi : Word) (s : State) : Host.Outcome State Fault Refusal := .next (s.incCommit src hi)

/-- STEP_COMMIT (R270, R271, R273). -/
def execStepCommit (src : Source) (hi : Word) (s : State) : Host.Outcome State Fault Refusal := .next (s.stepCommit src hi)

/-- JUMP_ARM (R272). -/
def execJumpArm (src : Source) (disarm : Bool) (s : State) : Host.Outcome State Fault Refusal :=
  .next (s.timeCtrl src true disarm)

/-- JUMP_DISARM (R272). -/
def execJumpDisarm (src : Source) (s : State) : Host.Outcome State Fault Refusal := .next (s.timeCtrl src false true)

/-- JUMP_ARM_TIMEOUT (R272). -/
def execJumpArmTimeout (s : State) : Host.Outcome State Fault Refusal :=
  .next (if s.running Tm.jumpArm then s.disarmJump else s)

/-- The key of a source's record latch: its page, itself and the offset of the register that pops or latches. -/
def recKey (addr : Nat) (src : Source) : Nat := addr * 512 + src.num

/-- A record latched for a source (R269, R291, R296, R393, R479). -/
def State.latchRec (s : State) (addr : Nat) (src : Source) (ws : List Word) : State :=
  { s with recLatch := SMap.set (fun _ => []) s.recLatch (recKey addr src) ws }

/-- NOW_FRAC_READ (R269): the whole counter latched for the source, FRAC returned. -/
def execNowFracRead (src : Source) (s : State) : Host.Outcome State Fault Refusal :=
  let a := Pg.TIME + TIME0.NOW_FRAC.off
  .next (match s.accessReg src a false with
    | .rejected p r => s.refuse src p r false a
    | .ok a => { s.latchRec a src (stampWords s.clock.cnt) with rdata := BitVec.ofNat 32 (fracOf s.clock.cnt) })

/-- TENSION_ERR (R274): one servo update in TENSION mode, from firmware only. -/
def execTensionErr (src : Source) (err : Word) (s : State) : Host.Outcome State Fault Refusal :=
  let a := Pg.TIME + TIME0.TENSION_ERR.off
  .next (match s.accessReg src a true with
    | .rejected p r => s.refuse src p r true a
    | .ok _ => if s.get Pg.TIME TIME0.STAT_MODE = modeTension then s.tensionUpdate err.toInt else s)

/-- TIME_REF (R275, R276, R278 to R284). -/
def execTimeRef (p : Port) (msg : List Byte) (s : State) : Host.Outcome State Fault Refusal :=
  .next (s.timeMessage p msg)

/-- TIME_REF_AGE_EXPIRY (R280): the port leaves time; the selection is taken afresh. -/
def execTimeRefAgeExpiry (p : Port) (s : State) : Host.Outcome State Fault Refusal :=
  .next (if s.running (Tm.refAge p) then (s.stopTimer (Tm.refAge p)).reselect else s)

/-- PREFER_REVERT_TIMER (R282): the preferred port is selected again; its offset is slewed in (R284). -/
def execPreferRevertTimer (s : State) : Host.Outcome State Fault Refusal :=
  .next (
    let p := s.servo.cfg.prefer
    if s.running Tm.prefer then
      let t := (s.stopTimer Tm.prefer).reselect
      match (t.tport p).filt with
      | some f => if t.selected = some p ∧ s.selected ≠ some p ∧ t.get Pg.TIME TIME0.STAT_MODE ≠ modeFree then t.correct f else t
      | none => t
    else s)

/-- LOCK_QUALIFY_TIMER (R281). -/
def execLockQualifyTimer (s : State) : Host.Outcome State Fault Refusal :=
  .next (if s.running Tm.lockQualify && decide (s.tstate = stAcquiring) then s.moveTime stLocked else s)

/-- NO_SELECTION_TIMER (R281, R285): HOLDOVER with the held frequency. -/
def execNoSelectionTimer (s : State) : Host.Outcome State Fault Refusal :=
  .next (
    if s.running Tm.noSelection then
      let s := s.stopTimer Tm.noSelection
      if s.tstate = stAcquiring ∨ s.tstate = stLocked then s.enterHoldover else s
    else s)

/-- HOLDOVER_EXPIRY (R281). -/
def execHoldoverExpiry (s : State) : Host.Outcome State Fault Refusal :=
  .next (if s.running Tm.holdover && decide (s.tstate = stHoldover) then s.moveTime stFreeRun else s)

/-- TREF_LOST (R281, R286). -/
def execTrefLost (s : State) : Host.Outcome State Fault Refusal :=
  .next (((s.set Pg.TIME TIME0.STAT_TREF_LOST 1).evt Pg.TIME 13).moveTime stFreeRun)

/-- TREF_RESTORED (R281, R286). -/
def execTrefRestored (s : State) : Host.Outcome State Fault Refusal :=
  .next (s.set Pg.TIME TIME0.STAT_TREF_LOST 0).settleTime

/-! ### Meanings: timing pins (R287 to R292) -/

/-- Whether an output with GATE is let through: without GATE always, with it in LOCKED and HOLDOVER (R287). -/
def State.gateOpen (s : State) (gate : Bool) : Bool :=
  !gate || decide (s.tstate = stLocked) || decide (s.tstate = stHoldover)

/-- Whether the takeover role holds an output inactive (R518, R519): bit `k` of `TKO_GATE`, in every role but SOLO and
SERVING. -/
def State.tkoHolds (s : State) (k : Nat) : Bool :=
  let r := s.get Pg.PLY PLY.TKO_STAT_ROLE
  decide (r ≠ 0) && decide (r ≠ 3) && decide (s.get Pg.PLY PLY.TKO_GATE / 2 ^ k % 2 = 1)

/-- Whether CLK10_OUT runs (R288): enabled, its gate open, and not held by the takeover role; its level is `State.clk10Level`. -/
def State.clk10On (s : State) : Bool :=
  s.bit Pg.TIME TIME1.CLK10_CTRL_EN && s.gateOpen (s.bit Pg.TIME TIME1.CLK10_CTRL_GATE) && !s.tkoHolds 2

/-- The level of CLK10_OUT (R288): 50 ns high from every whole second plus `PPS_OUT[0].OFFSET` on, in periods of 100 ns.
After a step it keeps its old phase until the next alignment instant.  DESIGN CHOICE: it then takes that of the stepped
counter at once; how a pulse shorter than 40 ns is avoided the spec does not say (log entry 54). -/
def State.clk10Level (s : State) : Bool :=
  let t : Int := s.clock.cnt - s.servo.clk10Shift - s.getSigned Pg.TIME (TIME1.PPS_OUT_OFFSET 0) * 2 ^ 32
  s.pin Pin.clk10 && decide (t % (100 * 2 ^ 40 : Nat) < (50 * 2 ^ 40 : Nat))

/-- PPS_OUT_ASSERT (R287, R289): the output's whole second plus OFFSET has been passed by the counter's advance; an edge that
falls while the role holds the output is not produced (R520). -/
def execPpsOutAssert (n : Fin 2) (s : State) : Host.Outcome State Fault Refusal :=
  .next (
    match SMap.get (fun _ => none) s.servo.ppsDue n.val with
    | none => s
    | some second =>
    let s : State := { s with servo := { s.servo with ppsDue := SMap.set (fun _ => none) s.servo.ppsDue n.val none } }
    if !s.tkoHolds n.val && s.bit Pg.TIME (TIME1.PPS_OUT_CTRL_EN n.val) && s.gateOpen (s.bit Pg.TIME (TIME1.PPS_OUT_CTRL_GATE n.val)) then
      let width := max 100 (min 500000000 (s.get Pg.TIME (TIME1.PPS_OUT_WIDTH n.val)))
      let s := (s.setPin (Pin.ppsOut n.val) true).startTimer (Tm.ppsWidth n.val) width
      if n.val = 0 then
        ({ s with servo := { s.servo with ppsOut0 := some (second, s.tstate) } } : State).startTimer Tm.tod (10 * ms)
      else s
    else s)

/-- PPS_OUT_DEASSERT (R287). -/
def execPpsOutDeassert (n : Fin 2) (s : State) : Host.Outcome State Fault Refusal :=
  .next (if s.running (Tm.ppsWidth n.val) then (s.setPin (Pin.ppsOut n.val) false).stopTimer (Tm.ppsWidth n.val) else s)

/-- ASCII codes. -/
def ascii (c : Char) : Byte := BitVec.ofNat 8 c.toNat

/-- Decimal digits of a number, most significant first, no leading zeros; `n` bounds how many. -/
def decDigits : Nat → Nat → List Byte
  | 0, _ => []
  | n + 1, v => if v < 10 then [BitVec.ofNat 8 (48 + v)] else decDigits n (v / 10) ++ [BitVec.ofNat 8 (48 + v % 10)]

/-- A signed decimal number. -/
def decSigned (i : Int) : List Byte := (if i < 0 then [ascii '-'] else []) ++ decDigits 20 i.natAbs

/-- An upper-case hexadecimal digit. -/
def hexDigit (v : Nat) : Byte := BitVec.ofNat 8 (if v < 10 then 48 + v else 55 + v)

/-- The checksum of a ToD sentence: the exclusive or of its bytes. -/
def todXor (bs : List Byte) : Byte := bs.foldl (· ^^^ ·) 0

/-- The bytes of a ToD sentence between `$` and `*` (R289). -/
def State.todBody (s : State) (second st : Nat) : List Byte :=
  let ref := match s.selected with
    | some p => (s.tport p).ref
    | none => none
  let utc := match ref with
    | some r => if r.utcValid then decSigned r.utcOffset else []
    | none => []
  let leap := match ref with
    | some r => if r.leapAdd then ascii '1' else if r.leapDel then ascii '2' else ascii '0'
    | none => ascii '0'
  let state := if st = stFreeRun then ascii 'F' else if st = stAcquiring then ascii 'A'
    else if st = stLocked then ascii 'L' else ascii 'H'
  let src := match s.get Pg.TIME TIME0.STAT_SELECTED with
    | 1 => ascii 'A'
    | 2 => ascii 'B'
    | 3 => ascii 'T'
    | _ => ascii 'N'
  ("LBTOD,".toList.map ascii) ++ decDigits 20 second ++ [ascii ','] ++ utc ++ [ascii ',', leap, ascii ',', state,
    ascii ',', src, ascii ','] ++ decDigits 20 (Config.errorBound s.free)

/-- A ToD sentence (R289). -/
def State.todSentence (s : State) (second st : Nat) : List Byte :=
  let b := s.todBody second st
  let x := (todXor b).toNat
  [ascii '$'] ++ b ++ [ascii '*', hexDigit (x / 16), hexDigit (x % 16), 13, 10]

/-- TOD_SENTENCE (R289). -/
def execTodSentence (s : State) : Host.Outcome State Fault Refusal :=
  .next (
    if s.running Tm.tod then
      match s.servo.ppsOut0 with
      | some (second, st) =>
        let t := ({ s with servo := { s.servo with ppsOut0 := none } } : State).stopTimer Tm.tod
        let gate := s.bit Pg.TIME TIME1.TOD_CTRL_TX_GATE
        if !s.tkoHolds 3 && s.bit Pg.TIME TIME1.TOD_CTRL_TX_EN && (!gate || decide (st = stLocked) || decide (st = stHoldover)) then
          (t.emit (.tod (s.todSentence second st))).takeFree
        else t
      | none => s
    else s)

/-- A stamp taken `phase` steps of 62.5 ps into the present `ck_time` cycle (R16). -/
def State.stampAt (s : State) (phase : Fin 32) : Nat := (s.clock.cnt + phase.val * 2 ^ 36) % clockMod

/-- Stamps of a line port (R16): `n` ADC samples of 1/96 ns, or DAC samples of 1/64 ns, into the present cycle. -/
def State.stampRx (s : State) (n : Fin 192) : Nat := (s.clock.cnt + n.val * 2 ^ 40 / 96) % clockMod
def State.stampTx (s : State) (n : Fin 128) : Nat := (s.clock.cnt + n.val * 2 ^ 34) % clockMod

/-- A stamp less the nearest whole second, in 2^-8 ns. -/
def diffToSecond (t : Int) : Int :=
  let r := t % (secUnit : Nat)
  (if 2 * r < (secUnit : Nat) then r else r - (secUnit : Nat)) / 2 ^ 32

/-- PPS_IN_EDGE (R290). -/
def execPpsInEdge (n : Fin 2) (rising : Bool) (phase : Fin 32) (s : State) : Host.Outcome State Fault Refusal :=
  .next (
    if s.bit Pg.TIME (TIME1.PPS_IN_CTRL_EN n.val) && (rising != s.bit Pg.TIME (TIME1.PPS_IN_CTRL_EDGE n.val)) then
      let t := s.stampAt phase
      let d := diffToSecond ((t : Int) - s.getSigned Pg.TIME (TIME1.PPS_IN_DELAY n.val) * 2 ^ 32)
      let s := (s.set Pg.TIME (TIME1.PPS_IN_DIFF n.val) (ofSigned 32 d)).set Pg.TIME (TIME1.PPS_IN_SEC_LO n.val) 0
      let s := if n.val = 0 then { s with servo := { s.servo with ppsIn0 := some (t, s.clock.cycles) } } else s
      if s.bit Pg.TIME (TIME1.PPS_IN_CTRL_CHECK n.val) then
        let bad := decide (s.get Pg.TIME TIME0.VOTE_PPSIN_NS * 256 < d.natAbs)
        let dis := s.servo.ppsinDisagree.getD n.val false
        let run := s.servo.ppsinRun.getD n.val 0
        if bad then
          let s := if dis then s else s.evt Pg.TIME 11
          { s with servo := { s.servo with ppsinDisagree := s.servo.ppsinDisagree.set n.val true, ppsinRun := s.servo.ppsinRun.set n.val 0 } }
        else if dis then
          if run = 15 then
            { s with servo := { s.servo with ppsinDisagree := s.servo.ppsinDisagree.set n.val false, ppsinRun := s.servo.ppsinRun.set n.val 0 } }
          else { s with servo := { s.servo with ppsinRun := s.servo.ppsinRun.set n.val (run + 1) } }
        else s
      else s
    else s)

/-- The value of decimal digits, if they are digits and there is one. -/
def decValue (bs : List Byte) : Option Nat :=
  if bs = [] then none
  else bs.foldl (fun a b => a.bind (fun v => if 48 ≤ b.toNat ∧ b.toNat ≤ 57 then some (v * 10 + (b.toNat - 48)) else none)) (some 0)

/-- A byte list cut at commas. -/
def splitCommas (bs : List Byte) : List (List Byte) :=
  bs.foldr (fun b acc => if b = ascii ',' then [] :: acc else
    match acc with
    | [] => [[b]]
    | x :: xs => (b :: x) :: xs) [[]]

/-- The bytes between `$` and `*` of a received sentence, and whether its checksum is right. -/
def todParse (bs : List Byte) : List Byte × Bool :=
  let body := (bs.drop 1).takeWhile (fun b => b != ascii '*')
  let x := (todXor body).toNat
  (body, decide ((bs.drop (body.length + 1)).take 3 = [ascii '*', hexDigit (x / 16), hexDigit (x % 16)]))

/-- TOD_RX_SENTENCE (R290): it labels the PPS_IN0 edge of the last 900 ms. -/
def execTodRxSentence (chars : List Byte) (s : State) : Host.Outcome State Fault Refusal :=
  .next (
    if s.bit Pg.TIME TIME1.TOD_CTRL_RX_EN then
      let pr := todParse chars
      if !pr.2 then s.inc Pg.TIME TIME1.TOD_RX_ERR
      else
        let fs := splitCommas pr.1
        match s.servo.ppsIn0, decValue (fs.getD 1 []) with
        | some (_, c), some second =>
          if s.clock.cycles ≤ c + cyclesOf (900 * ms) ∧ fs.length = 7 ∧ fs.headD [] = "LBTOD".toList.map ascii
              ∧ chars.headD 0 = ascii '$' then
            s.set Pg.TIME (TIME1.PPS_IN_SEC_LO 0) second
          else s
        | _, _ => s
    else s)

/-- The stamps waiting at an event pin (R291). -/
def State.evtStamps (s : State) (pin : Nat) : List Nat := SMap.get (fun _ => []) s.servo.evtQ pin

/-- The same, replaced, with FILL. -/
def State.setEvtStamps (s : State) (pin : Nat) (q : List Nat) : State :=
  ({ s with servo := { s.servo with evtQ := SMap.set (fun _ => []) s.servo.evtQ pin q } } : State).set Pg.TIME
    (TIME1.EVT_CTRL_FILL pin) q.length

/-- EVT_CAPTURE (R291): an active edge in capture mode is stamped into the pin's queue of 16. -/
def execEvtCapture (pin : Fin 8) (rising : Bool) (phase : Fin 32) (s : State) : Host.Outcome State Fault Refusal :=
  .next (
    if s.feat 19 && decide (s.get Pg.TIME (TIME1.EVT_CTRL_MODE pin.val) = 1)
        && (rising != s.bit Pg.TIME (TIME1.EVT_CTRL_EDGE pin.val)) then
      let q := s.evtStamps pin.val
      if q.length < 16 then (s.setEvtStamps pin.val (q ++ [s.stampAt phase])).evt Pg.TIME 16
      else ((s.inc Pg.TIME TIME1.EVT_DROPS).set Pg.TIME (TIME1.EVT_CTRL_OVF pin.val) 1).evt Pg.TIME 16
    else s)

/-- EVT_FRAC_READ (R291): in capture mode the oldest stamp is popped into the source's latch. -/
def execEvtFracRead (src : Source) (pin : Fin 8) (s : State) : Host.Outcome State Fault Refusal :=
  let a := Pg.TIME + (TIME1.EVT_FRAC pin.val).off
  .next (match s.accessReg src a false with
    | .rejected p r => s.refuse src p r false a
    | .ok a =>
      if s.get Pg.TIME (TIME1.EVT_CTRL_MODE pin.val) = 1 then
        match s.evtStamps pin.val with
        | [] => { s.latchRec a src [0, 0, 0, 0] with rdata := 0 }
        | t :: q => { (s.setEvtStamps pin.val q).latchRec a src (stampWords t) with rdata := BitVec.ofNat 32 (fracOf t) }
      else { s with rdata := s.rd a })

/-- A trigger armed with its first time and that of its last firing, or disarmed. -/
def State.evtArmSet (s : State) (pin : Nat) (x : Option (Nat × Nat)) : State :=
  { s with servo := { s.servo with evtArm := SMap.set (fun _ => none) s.servo.evtArm pin x,
                                   evtDue := SMap.set (fun _ => none) s.servo.evtDue pin none } }

/-- The level of an event output (R292).  DESIGN CHOICE: CTRL[2] at 1 makes the active level low (log entry 54). -/
def State.evtLevel (s : State) (pin : Nat) : Bool := s.pin (Pin.evt pin) != s.bit Pg.TIME (TIME1.EVT_CTRL_EDGE pin)

/-- An event output fires at a time (R292): active for WIDTH_NS; single mode disarms, periodic mode goes on from this time. -/
def State.evtFire (s : State) (pin t : Nat) : State :=
  let width := max 20 (s.get Pg.TIME (TIME1.EVT_WIDTH_NS pin))
  let s := if s.tkoHolds (4 + pin) then s else (s.setPin (Pin.evt pin) true).startTimer (Tm.evtWidth pin) width
  let first := match SMap.get (fun _ => none) s.servo.evtArm pin with
    | some x => x.1
    | none => t
  let next := if s.get Pg.TIME (TIME1.EVT_CTRL_MODE pin) = 3 then some (first, t) else none
  s.evtArmSet pin next

/-- A write of `EVT[pin].SEC_HI` (R292): it arms the trigger, or fires at once with LATE when the time has passed. -/
def State.evtArmWrite (s : State) (src : Source) (pin : Nat) (hi : Word) : State :=
  let a := Pg.TIME + (TIME1.EVT_SEC_HI pin).off
  match s.accessReg src a true with
  | .rejected p r => s.refuse src p r true a
  | .ok a =>
    let s := s.commitPair src a hi
    let mode := s.get Pg.TIME (TIME1.EVT_CTRL_MODE pin)
    if s.feat 19 && (decide (mode = 2) || decide (mode = 3)) then
      let t := stampOf (s.get Pg.TIME (TIME1.EVT_SEC_LO pin) + s.get Pg.TIME (TIME1.EVT_SEC_HI pin) * 2 ^ 32)
        (s.get Pg.TIME (TIME1.EVT_NS pin)) (s.get Pg.TIME (TIME1.EVT_FRAC pin))
      let s := s.evtArmSet pin (some (t, t))
      if t ≤ s.clock.cnt then (s.set Pg.TIME (TIME1.EVT_CTRL_LATE pin) 1).evtFire pin t else s
    else s

/-- EVT_TRIGGER_ARM (R292). -/
def execEvtTriggerArm (src : Source) (pin : Fin 8) (hi : Word) (s : State) : Host.Outcome State Fault Refusal :=
  .next (s.evtArmWrite src pin.val hi)

/-- EVT_TRIGGER_FIRE (R292): the trigger's time has been passed by the counter's advance. -/
def execEvtTriggerFire (pin : Fin 8) (s : State) : Host.Outcome State Fault Refusal :=
  .next (match SMap.get (fun _ => none) s.servo.evtDue pin.val with
    | some t => if s.feat 19 then s.evtFire pin.val t else s.evtArmSet pin.val none
    | none => s)

/-- EVT_TRIGGER_END (R292). -/
def execEvtTriggerEnd (pin : Fin 8) (s : State) : Host.Outcome State Fault Refusal :=
  .next (if s.running (Tm.evtWidth pin.val) then (s.setPin (Pin.evt pin.val) false).stopTimer (Tm.evtWidth pin.val) else s)

/-! ### Meanings: PTM (R293) and the transmit time-stamp queues (R294 to R296) -/

/-- One PTM dialogue started: the request is stamped (R293). -/
def State.ptmStart (s : State) : State :=
  if s.feat 15 && s.pcie.ptmEn && s.servo.ptmT1.isNone then
    (({ s with servo := { s.servo with ptmT1 := some s.clock.cnt } } : State).emit .ptmRequest).startTimer Tm.ptm (10 * ms)
  else s

/-- PTM_NOW (R293). -/
def execPtmNow (src : Source) (s : State) : Host.Outcome State Fault Refusal :=
  let a := Pg.TIME + TIME1.PTM_CTRL.off
  .next (match s.accessReg src a true with
    | .rejected p r => s.refuse src p r true a
    | .ok _ => s.ptmStart)

/-- PTM_PERIOD_TIMER (R293). -/
def execPtmPeriodTimer (s : State) : Host.Outcome State Fault Refusal :=
  .next (if s.bit Pg.TIME TIME1.PTM_CTRL_AUTO then s.ptmStart else s)

/-- PTM_RESPONSE (R293): with T1 and T4 the counter at request and response, the master time at T1 is the master time
received less half of (round trip less propagation delay), the round trip being the previous dialogue's where there
was one. -/
def execPtmResponse (masterNs : Word64) (propNs : Word) (s : State) : Host.Outcome State Fault Refusal :=
  .next (match s.servo.ptmT1 with
    | none => s
    | some t1 =>
      let trip : Int := (s.clock.cnt : Int) - t1
      let rt := s.servo.ptmTrip.getD trip
      let atT1 := (masterNs.toNat : Int) * 2 ^ 41 - (rt - (propNs.toNat : Int) * 2 ^ 40)
      let off := (atT1 - 2 * (t1 : Int)) / 2 ^ 33
      let s := { s with servo := { s.servo with ptmT1 := none, ptmTrip := some trip } }
      let s := (s.stopTimer Tm.ptm).set64 Pg.TIME TIME1.PTM_OFFSET_LO (ofSigned 64 off)
      let s := (s.set Pg.TIME TIME1.PTM_AT_NS (nsOf t1)).set64 Pg.TIME TIME1.PTM_AT_SEC_LO (secOf t1)
      s.evt Pg.TIME 14)

/-- PTM_TIMEOUT (R293). -/
def execPtmTimeout (s : State) : Host.Outcome State Fault Refusal :=
  .next (if s.running Tm.ptm then
      ((({ s with servo := { s.servo with ptmT1 := none } } : State).stopTimer Tm.ptm).inc Pg.TIME TIME1.PTM_FAILS).evt Pg.TIME 15
    else s)

/-- The entries of a transmit time-stamp queue. -/
def State.tsqOf (s : State) (q : Nat) : List (Nat × Nat) := SMap.get (fun _ => []) s.servo.tsq q

/-- The same, replaced, with FILL. -/
def State.setTsq (s : State) (q : Nat) (es : List (Nat × Nat)) : State :=
  ({ s with servo := { s.servo with tsq := SMap.set (fun _ => []) s.servo.tsq q es } } : State).set Pg.TSQ
    (TSQ.Q_STAT_FILL q) es.length

/-- A transmit stamp placed in its egress's queue of 64 (R294, R295). -/
def State.tsqPush (s : State) (q id stamp : Nat) : State :=
  let es := s.tsqOf q
  if es.length < 64 then
    let s := s.setTsq q (es ++ [(id, stamp)])
    if es = [] then s.evt Pg.TSQ 9 else s
  else ((s.set Pg.TSQ (TSQ.Q_STAT_OVF q) 1).inc Pg.TSQ (TSQ.TSQ_DROPS q)).evt Pg.TSQ 8

/-- TSQ_POP (R296). -/
def execTsqPop (src : Source) (q : Fin 6) (s : State) : Host.Outcome State Fault Refusal :=
  let a := Pg.TSQ + (TSQ.Q_ENTRY0 q.val).off
  .next (match s.accessReg src a false with
    | .rejected p r => s.refuse src p r false a
    | .ok a =>
      match s.tsqOf q.val with
      | [] => { s.latchRec a src [0, 0, 0, 0] with rdata := 0 }
      | (id, t) :: es =>
        { (s.setTsq q.val es).latchRec a src (stampWords t) with rdata := BitVec.ofNat 32 (2 ^ 31 + id % 2 ^ 16) })

/-! ### The mailbox commands TIME_CONFIG and TIME_STATUS (R300, R301) -/

/-- Word `n` of a request's arguments, counting from word 1. -/
def argWord (args : List Word) (n : Nat) : Nat := (args.getD (n - 1) 0).toNat

/-- TIME_CONFIG served (R300): its status and the state after. -/
def mbxTimeConfig (args : List Word) (s : State) : Nat × List Word × State :=
  let w1 := argWord args 1
  let mode := w1 % 8
  let slew := argWord args 2 % 2 ^ 16
  if 3 < mode ∨ slew = 0 then (2, [], s)
  else if mode = modeTension ∧ !s.feat 13 then (3, [], s)
  else
    let cfg : TimeCfg := ⟨Port.ofNum (w1 / 16 % 2), decide (w1 / 32 % 2 = 1), decide (w1 / 64 % 2 = 1),
      decide (w1 / 128 % 2 = 1), slew, argWord args 3⟩
    let was := s.get Pg.TIME TIME0.STAT_MODE
    let t := (s.set Pg.TIME TIME0.STAT_MODE mode)
    let t := { t with servo := { t.servo with cfg := cfg,
                                              revertWait := t.servo.revertWait && decide (cfg.prefer = t.servo.cfg.prefer),
                                              tensionI := if mode = modeTension ∧ was ≠ modeTension then 0 else t.servo.tensionI } }
    let t := if mode = modeFree then t.moveTime stFreeRun else t
    (0, [], t.reselect)

/-- The age of a port's last used TIME_REF in ms, saturating (R301). -/
def State.refAgeMs (s : State) (p : Port) : Nat :=
  match (s.tport p).ref with
  | some r => min 0xFFFF ((s.clock.cycles - r.at_) / cyclesOf ms)
  | none => 0xFFFF

/-- TIME_STATUS served (R301). -/
def mbxTimeStatus (s : State) : Nat × List Word × State :=
  let st := s.get Pg.TIME TIME0.STAT_STATE
  let sel := s.get Pg.TIME TIME0.STAT_SELECTED
  let b := fun (x : Bool) (n : Nat) => if x then 2 ^ n else 0
  let w1 := st + sel * 4 + s.get Pg.TIME TIME0.STAT_MODE * 16 + s.get Pg.TIME TIME0.STAT_VALID * 128
    + b s.servo.disagree 8 + b (s.servo.ppsinDisagree.any id) 9 + s.get Pg.TIME TIME0.STAT_TREF_LOST * 2 ^ 10
  let filt := fun (p : Port) =>
    match s.inTime p, (s.tport p).filt with
    | true, some f => BitVec.ofNat 32 (ofSigned 32 f)
    | _, _ => 0x80000000
  let locked := match s.servo.lockedAt with
    | some c => if st = stLocked then (s.clock.cycles - c) / cyclesOf sec else 0
    | none => 0
  (0, [BitVec.ofNat 32 w1, filt .portA, filt .portB,
       BitVec.ofNat 32 (ofSigned 32 (s.asymSource .portA).2), BitVec.ofNat 32 (ofSigned 32 (s.asymSource .portB).2),
       BitVec.ofNat 32 (s.refAgeMs .portA + s.refAgeMs .portB * 2 ^ 16), BitVec.ofNat 32 (Config.errorBound s.free),
       BitVec.ofNat 32 locked], s.takeFree)

end Sys2Proof.Machine
end

