-- ==== Sys2Proof/Machine/HostCore.lean ====
section
/-!
DEFINITION. Machine/HostCore.lean: queue endpoints, completions and completion interrupts (R416 to R432).
-/

namespace Sys2Proof.Machine

/-! ### Functions behind the link -/

/-- A function's record before anything is written to it. -/
def fnHostReset : Nat → FnHost := fun _ =>
  ⟨0, 0, 0, false, 0, true, false, false, false, true, [], [], false, true, 0⟩

/-- MSI-X vectors of a function (R409). -/
def msixVectors (f : Nat) : Nat := if f < 2 then 2048 else 8

/-- Bytes of a function's BARs (R410); it has BAR0, BAR2 and BAR4. -/
def barSize (f bar : Nat) : Nat :=
  match bar with
  | 0 => if f < 2 then 2 ^ 24 else 2 ^ 16
  | 2 => if f < 2 then 2 ^ 24 else 2 ^ 19
  | 4 => if f < 2 then 2 ^ 28 else 2 ^ 24
  | _ => 0

/-- Where the MSI-X table and its PBA lie in BAR2 (R410). -/
def msixTable (f : Nat) : Nat := if f < 2 then 2 ^ 23 else 2 ^ 18
def msixPba (f : Nat) : Nat := msixTable f + if f < 2 then 2 ^ 15 else 2 ^ 12

/-- What the device holds of a PCIe function. -/
def State.fnHost (s : State) (f : Nat) : FnHost := SMap.get fnHostReset s.pcie.fns f

/-- The same, replaced. -/
def State.setFnHost (s : State) (f : Nat) (x : FnHost) : State :=
  { s with pcie := { s.pcie with fns := SMap.set fnHostReset s.pcie.fns f x } }

/-- An endpoint whose context is zero. -/
def epReset : Nat → Ep := fun _ =>
  ⟨0, 0, 0, 0, 0, 0, false, false, false, false, false, false, 0, 0, 0, 0, 0, 0, 0, false, 0, 0, [], 0, [], [], []⟩

/-- An endpoint. -/
def State.ep (s : State) (q : Nat) : Ep := SMap.get epReset s.pcie.eps q

/-- The same, replaced. -/
def State.setEp (s : State) (q : Nat) (e : Ep) : State := { s with pcie := { s.pcie with eps := SMap.set epReset s.pcie.eps q e } }

/-- The function whose range holds an endpoint (R416). -/
def State.epFn (s : State) (q : Nat) : Option Nat :=
  (s.pcie.fns.find? (fun kv => decide (kv.2.qbase ≤ q ∧ q < kv.2.qbase + kv.2.qcount))).map (fun kv => kv.1)

/-- The state of a PCIe function; PF0 is always in service (R37). -/
def State.hostFn (s : State) (f : Nat) : FState :=
  match Fn.ofFunc f with
  | some g => (s.fn g).st
  | none => .running

/-- Bits of the CTRL word of a context (R417). -/
def Ep.en (e : Ep) : Bool := decide (e.ctrl / 2 ^ 31 % 2 = 1)
def Ep.txEn (e : Ep) : Bool := decide (e.ctrl / 2 ^ 30 % 2 = 1)
def Ep.rxEn (e : Ep) : Bool := decide (e.ctrl / 2 ^ 29 % 2 = 1)
def Ep.dlDesc (e : Ep) : Bool := decide (e.ctrl / 2 ^ 28 % 2 = 1)
def Ep.tsOk (e : Ep) : Bool := decide (e.ctrl / 2 ^ 27 % 2 = 1)
def Ep.handleOk (e : Ep) : Bool := decide (e.ctrl / 2 ^ 26 % 2 = 1)

/-- Entries of a ring with a LOG (R417, R440). -/
def State.ringEntries (s : State) (log : Nat) : Nat := if s.feat 1 then 64 * 2 ^ log else 128 * 2 ^ log
def State.sqEntries (s : State) (e : Ep) : Nat := s.ringEntries (e.ctrl / 2 ^ 8 % 16)
def State.rqEntries (s : State) (e : Ep) : Nat := s.ringEntries (e.ctrl / 2 ^ 4 % 16)
def State.cqEntries (s : State) (e : Ep) : Nat := s.ringEntries (e.ctrl % 16)

/-- MOD_COUNT, where 0 acts as 1; IRQ_EN; VECTOR (R417), as they stood at the last completion (R418). -/
def Ep.modCount (e : Ep) : Nat := max 1 (e.irqNow % 2 ^ 16)
def Ep.irqEn (e : Ep) : Bool := decide (e.irqNow / 2 ^ 31 % 2 = 1)
def Ep.vector (e : Ep) : Nat := e.irqNow / 2 ^ 16 % 2 ^ 11

/-- The context of an endpoint as 16 words (R417). -/
def Ep.words (e : Ep) : List Word :=
  let b := fun (x : Bool) (n : Nat) => if x then 2 ^ n else 0
  [e.ctrl, e.irq, e.modTimer,
   b e.sqErr 0 + b e.rqErr 1 + b e.armed 2 + b e.pend 3 + b e.phase 4 + b e.idle 5,
   e.sqBase, e.sqBase / 2 ^ 32, e.rqBase, e.rqBase / 2 ^ 32, e.cqBase, e.cqBase / 2 ^ 32,
   e.sqTail * 2 ^ 16 + e.sqHead, e.rqTail * 2 ^ 16 + e.rqHead, e.cqHead * 2 ^ 16 + e.cqTail, 0, 0, 0].map (BitVec.ofNat 32)

/-- The moderation timer of an endpoint. -/
def Tm.moderate (q : Nat) : Nat := 0x100000 + q

/-! ### What goes over the link -/

/-- Something sent over the PCIe link: at L0 it leaves; in L1 the exit starts and it waits, as it does while the link is
down (R431). -/
def State.sendPcie (s : State) (e : Emission) : State :=
  match s.pcie.link with
  | .l0 => s.emit e
  | .l1 => { s with pcie := { s.pcie with link := .exiting, held := s.pcie.held ++ [e] } }
  | _ => { s with pcie := { s.pcie with held := s.pcie.held ++ [e] } }

/-- Whether a vector of a function is masked, by itself or by Function Mask (R432). -/
def FnHost.hides (x : FnHost) (v : Nat) : Bool := x.fnMask || SMap.get (fun _ => false) x.masked v

/-- The MSI-X message of a vector (R432): discarded while MSI-X is not enabled, held in the PBA while masked. -/
def State.sendMsix (s : State) (f v : Nat) : State :=
  let x := s.fnHost f
  if !x.msixEn then s
  else if x.hides v then s.setFnHost f { x with pba := SMap.set (fun _ => false) x.pba v true }
  else s.sendPcie (.msix f v)

/-- Whether an endpoint's interrupt condition holds (R430). -/
def Ep.condition (e : Ep) : Bool := decide (e.modCount ≤ e.n) || (decide (1 ≤ e.n) && e.timeUp)

/-- The interrupt of an endpoint, when its condition holds with IRQ_EN and ARMED (R430 to R432). -/
def State.irqTry (s : State) (q : Nat) : State :=
  let e := s.ep q
  if e.irqEn && e.armed && e.condition then
    match s.epFn q with
    | none => s
    | some f =>
      let x := s.fnHost f
      if x.d3 then
        if e.pend then s
        else
          let s := (s.setEp q { e with pend := true }).inc Pg.HQ HQ1.IRQ_HELD
          if x.pmeEn then
            ((s.setFnHost f { x with pmeStatus := true }).sendPcie (.pme f)).inc Pg.HQ HQ1.PME_SENT
          else s
      else if s.pcie.link = .l0 then
        let s := (s.sendMsix f e.vector).setEp q { e with armed := false, n := 0, timeUp := false, pend := false }
        let s := s.stopTimer (Tm.moderate q)
        if x.msixEn && !x.hides e.vector then s.inc Pg.HQ HQ1.IRQ_SENT else s
      else
        let link := if s.pcie.link = .l1 then LinkState.exiting else s.pcie.link
        { s with pcie := { s.pcie with link := link,
                                       irqWait := if s.pcie.irqWait.contains q then s.pcie.irqWait else s.pcie.irqWait ++ [q] } }
  else s

/-! ### Completions (R425 to R429) -/

/-- Whether a completion ring has room (R428). -/
def State.cqRoom (s : State) (e : Ep) : Bool := decide ((e.cqTail + 1) % s.cqEntries e ≠ e.cqHead)

/-- T of R430 judged at a completion, by MOD_TIMER as it stands (R418): it has run out, or its timer runs on. -/
def State.moderate (s : State) (q : Nat) : State :=
  let e := s.ep q
  let us := e.modTimer % 2 ^ 16
  let t := (s.clock.cycles - e.firstAt) * 2
  if us = 0 then (s.setEp q { e with timeUp := false }).stopTimer (Tm.moderate q)
  else if us * 1000 ≤ t then (s.setEp q { e with timeUp := true }).stopTimer (Tm.moderate q)
  else (s.setEp q { e with timeUp := false }).startTimer (Tm.moderate q) (us * 1000 - t)

/-- One completion written at TAIL with PHASE, counted, and its interrupt taken up (R424, R429, R430, R441). -/
def State.cplWrite (s : State) (q : Nat) (c : Cpl) : State :=
  let e := s.ep q
  let entry := c.bytes.take 15 ++ [if e.phase then 0x80 else 0]
  let s := s.sendPcie (.dmaWrite (e.cqBase + 16 * e.cqTail) entry)
  let tail := (e.cqTail + 1) % s.cqEntries e
  let s := (s.setEp q { e with cqTail := tail, phase := if tail = 0 then !e.phase else e.phase, n := e.n + 1, irqNow := e.irq,
                               firstAt := if e.n = 0 then s.clock.cycles else e.firstAt }).moderate q
  let s :=
    if c.rx then (s.add64 Pg.HQ HQ1.RX_FRAMES_LO 1).add64 Pg.HQ HQ1.RX_BYTES_LO c.length
    else if c.ok then (s.add64 Pg.HQ HQ1.TX_FRAMES_LO 1).add64 Pg.HQ HQ1.TX_BYTES_LO c.length
    else s
  s.irqTry q

/-- Waiting completions written while the ring has room and the function is not in D3hot; the number bounds them. -/
def State.cplFlush (s : State) (q : Nat) : Nat → State
  | 0 => s
  | k + 1 =>
    let e := s.ep q
    match e.wait with
    | [] => s
    | c :: cs =>
      let d3 := match s.epFn q with
        | some f => (s.fnHost f).d3
        | none => false
      if s.cqRoom e && !d3 then ((s.setEp q { e with wait := cs }).cplWrite q c).cplFlush q k else s

/-- A completion of an endpoint: written now, or it waits for room (R428). -/
def State.complete (s : State) (q : Nat) (c : Cpl) : State :=
  let e := s.ep q
  let s := (s.setEp q { e with wait := e.wait ++ [c] }).cplFlush q (e.wait.length + 1)
  if (s.ep q).wait = [] then s else s.inc Pg.HQ HQ1.CQ_WAITS

/-! Send statuses (R426). -/
namespace Snd
def ok : Nat := 0x00
def notAdmitted : Nat := 0x01
def late : Nat := 0x02
def launchRefused : Nat := 0x03
def launchExpired : Nat := 0x04
def queueFull : Nat := 0x05
def policed : Nat := 0x06
def clsDrop : Nat := 0x07
def stallDrop : Nat := 0x08
def lineLost : Nat := 0x09
def bufErr : Nat := 0x0A
def badDesc : Nat := 0x0B
def tooLong : Nat := 0x0C
def dmaErr : Nat := 0x0D
def poisoned : Nat := 0x0E
def flushed : Nat := 0x0F
end Snd

/-- A send completion entry without PHASE (R425). -/
def sendEntry (d : Send) (status : Nat) (dropped : Bool) : Cpl :=
  ⟨leBytes 2 d.index ++ leBytes 1 status ++ leBytes 1 ((if dropped then 2 else 0) + (d.ndesc - 1) * 16) ++ leBytes 4 d.length
    ++ leBytes 8 0, false, decide (status = Snd.ok), d.length⟩

/-- One fewer frame of an endpoint in flight; IDLE when it is disabled and none is left (R418). -/
def State.landed (s : State) (q : Nat) : State :=
  let e := s.ep q
  let n := e.inFlight - 1
  s.setEp q { e with inFlight := n, idle := e.idle || (!e.en && decide (n = 0)) }

/-- A host send settled (R426, R427): its completion is written, once for the whole of a TSO frame; nothing for a frame
whose function has been frogged since (R436). -/
def State.sendDone (s : State) (d : Send) (status : Nat) (dropped : Bool) : State :=
  match s.epFn d.ep with
  | none => s
  | some f =>
    if (s.fnHost f).epoch ≠ d.epoch then s
    else if d.tso then
      let e := s.ep d.ep
      match SMap.get (fun _ => (0, 0, false)) e.tso d.index with
      | (left, st, dr) =>
        let st' := if st = Snd.ok then status else st
        let dr' := if st = Snd.ok then dropped else dr
        if 1 < left then s.setEp d.ep { e with tso := SMap.set (fun _ => (0, 0, false)) e.tso d.index (left - 1, st', dr') }
        else
          ((s.setEp d.ep { e with tso := SMap.erase e.tso d.index }).landed d.ep).complete d.ep (sendEntry d st' dr')
    else (s.landed d.ep).complete d.ep (sendEntry d status dropped)

/-- The send of a frame settled, where it has one. -/
def State.pktDone (s : State) (k : Pkt) (status : Nat) (dropped : Bool) : State :=
  match k.send with
  | some d => s.sendDone d status dropped
  | none => s

/-- A frame dropped inside the packet path: its buffers freed and its send reported (R382, R427). -/
def State.dropPkt (s : State) (k : Pkt) (status : Nat) : State := (s.freePkt k).pktDone k status true

/-! ### Receive delivery (R423, R424) -/

/-- Receive descriptors, up to 16, that cover a frame. -/
def rxCover : Nat → List (Nat × Nat) → Nat → Option Nat
  | 0, _, left => if left = 0 then some 0 else none
  | _, [], left => if left = 0 then some 0 else none
  | k + 1, (_, n) :: ds, left => if left ≤ n then some 1 else (rxCover k ds (left - n)).map (· + 1)

/-- Whether 16 descriptors are there and cannot cover a frame. -/
def rxTooLong (ds : List (Nat × Nat)) (len : Nat) : Bool :=
  decide (16 ≤ ds.length) && decide (((ds.take 16).map (fun d => d.2)).sum < len)

/-- The frame's bytes laid over receive descriptors. -/
def rxWrites : List (Nat × Nat) → List Byte → List Emission
  | [], _ => []
  | (a, n) :: ds, bs => Emission.dmaWrite a (bs.take n) :: rxWrites ds (bs.drop n)

/-- Whether an endpoint receives (R345, R418, R428, R432). -/
def State.rxServes (s : State) (q : Nat) : Bool :=
  let e := s.ep q
  e.en && e.rxEn && !e.rqErr && decide (e.wait = []) &&
    match s.epFn q with
    | some f => decide (s.hostFn f = .running) && !(s.fnHost f).d3
    | none => false

/-- Whether egress 128 can take a frame of `len` bytes for a queue (R345, R423): its descriptors cover it, or no 16 do. -/
def State.rxTakes (s : State) (q len : Nat) : Bool :=
  s.rxServes q && ((rxCover 16 (s.ep q).rxd len).isSome || rxTooLong (s.ep q).rxd len)

/-- A frame delivered to endpoint q: data, then its completion (R423 to R425). -/
def State.rxDeliver (s : State) (q : Nat) (bytes : List Byte) (hash tag info : Nat) : State :=
  let e := s.ep q
  match rxCover 16 e.rxd bytes.length with
  | none => s
  | some n =>
    let first := (e.rqHead + s.rqEntries e - e.rxd.length % s.rqEntries e) % s.rqEntries e
    let s := (rxWrites (e.rxd.take n) bytes).foldl (fun s w => s.sendPcie w) s
    let s := s.setEp q { e with rxd := e.rxd.drop n }
    s.complete q ⟨leBytes 2 first ++ leBytes 1 0 ++ leBytes 1 (1 + (n - 1) * 16) ++ leBytes 4 bytes.length ++ leBytes 4 hash
      ++ leBytes 2 tag ++ leBytes 1 info ++ [0], true, true, bytes.length⟩

end Sys2Proof.Machine
end

