-- ==== Sys2Proof/Machine/Lpddr.lean ====
section
/-!
DEFINITION. Machine/Lpddr.lean: the words of LPDDR5X (R395 to R399): reads, writes, errors found and demand write-backs,
with what a poisoned word means for buffers and for the row it lies in (R402, R404).
-/

namespace Sys2Proof.Machine

/-! ### Words (R396) -/

/-- A byte of LPDDR5X. -/
def State.memByte (s : State) (a : Nat) : Byte := SMap.get (fun _ => 0) s.mem.data a

/-- Bytes of LPDDR5X. -/
def State.memBytes (s : State) (a n : Nat) : List Byte := SMap.getList (fun _ => 0) s.mem.data a n

/-- Bytes stored into LPDDR5X. -/
def State.memPut (s : State) (a : Nat) (bs : List Byte) : State :=
  { s with mem := { s.mem with data := SMap.setList (fun _ => 0) s.mem.data a bs } }

/-- Whether a 64-bit word of LPDDR5X is poisoned. -/
def State.poisoned (s : State) (w : Nat) : Bool := SMap.get (fun _ => false) s.mem.poison w

/-- The last LPDDR5X error recorded: word address, TYPE and SOURCE. -/
def State.memErr (s : State) (w type source : Nat) : State :=
  (s.set64 Pg.MEM MEM0.ERR_ADDR_LO (w * 8)).wr (Pg.MEM + MEM0.ERR_INFO.off)
    (BitVec.ofNat 32 (type * 2 ^ 28 + source * 2 ^ 24 + w / 256 % 16 * 2 ^ 16))

/-- The words that a run of bytes touches. -/
def wordsTouched (a n : Nat) : List Nat := if n = 0 then [] else (List.range ((a + n - 1) / 8 - a / 8 + 1)).map (· + a / 8)

/-! ### Buffers that bad words lie in (R399, R401) -/

/-- A buffer of a pool belongs to no one until its word is repaired. -/
def PoolSt.hold (x : PoolSt) (i : Nat) : PoolSt :=
  { x with used := SMap.set (fun _ => none) x.used i (some (heldOwner, SMap.get (fun _ => 0) x.gens i)) }

/-- A buffer that is free is held from allocation. -/
def State.holdBuf (s : State) (p i : Nat) : State :=
  if i < s.poolCount p ∧ (SMap.get (fun _ => none) (s.pool p).used i).isNone = true then
    (s.setPool p ((s.pool p).hold i)).setPoolFree p (s.poolFree p - 1)
  else s

/-- Buffers held from allocation. -/
def State.holdBufs (s : State) (p : Nat) (idx : List Nat) : State := idx.foldl (fun s i => s.holdBuf p i) s

/-- Frame data of a buffer is poisoned: its frame is dropped at its egress (R399). -/
def State.poisonBuf (s : State) (p i : Nat) : State :=
  let k := fun (x : Pkt) => if x.bufs.any (fun b => decide (b.1 = p ∧ b.2.1 = i)) then { x with poison := true } else x
  let c := fun (x : CPkt) => { x with pkt := k x.pkt }
  let q := fun (x : QFrame) => { x with c := c x.c }
  { s with cls := { s.cls with inq := s.cls.inq.map (fun e => (e.1, e.2.map k)), outq := s.cls.outq.map c }
           sched := { s.sched with queues := s.sched.queues.map (fun e => (e.1, e.2.map q))
                                   lanes := s.sched.lanes.map (fun e => (e.1, e.2.map q)) }
           siteWake := s.siteWake.map (fun e => (e.1, e.2.map (fun w => { w with pkt := k w.pkt }))) }

/-- A poisoned word among a pool's tags: its four tags are bad and their buffers held (R401). -/
def State.poisonTags (s : State) (p i : Nat) : State :=
  let idx := [i, i + 1, i + 2, i + 3]
  (idx.foldl (fun s i => s.setBad Arr.tag (p * 2 ^ 24 + i) true) s).holdBufs p idx

/-- What a poisoned word does to one pool, where the pool lies over it. -/
def State.poisonPool (s : State) (lpddr : Bool) (addr p : Nat) : State :=
  let base := s.poolBase p
  let data := s.poolCount p * s.poolSize p
  if (s.poolEn p || (s.pool p).draining) && decide (s.bit Pg.SKEIN (SKEIN.POOL_CTRL_LOC p) = lpddr)
      && decide (base ≤ addr ∧ addr < base + data + 2 * s.poolCount p) then
    if addr < base + data then s.poisonBuf p ((addr - base) / s.poolSize p)
    else s.poisonTags p ((addr - base - data) / 2)
  else s

/-- A word of packet SRAM or of LPDDR5X has become poisoned: what Skein and the frames in it see. -/
def State.poisonWord (s : State) (lpddr : Bool) (addr : Nat) : State :=
  (List.range 16).foldl (fun s p => s.poisonPool lpddr addr p) s

/-! ### Rows and spares (R402 to R404) -/

/-- Spares, and the first row that is one. -/
def spares : Nat := 4096
def firstSpare : Nat := 24995904

/-- A row is to be copied into the next unused spare, and stands in the darning record. -/
def Mem.startCopy (m : Mem) (row : Nat) (auto : Bool) : Mem :=
  { m with copy := some (row, m.used, auto), used := m.used + 1, record := m.record ++ [row] }

/-- A copy of a row into the next unused spare begins (R402, R403). -/
def State.darnStart (s : State) (row : Nat) (auto : Bool) : State :=
  ({ s with mem := s.mem.startCopy row auto }.set Pg.DARN DARN.STAT_BUSY 1).set Pg.DARN DARN.STAT_USED (s.mem.used + 1)

/-- A row that R404 darns: at once, after the copy in progress, or
not at all when the table is full or the copy in progress is of the row itself. -/
def State.autoDarn (s : State) (row : Nat) : State :=
  if !s.bit Pg.DARN DARN.CTRL_AUTO then s
  else if spares ≤ s.mem.used then (s.inc Pg.DARN DARN.DARN_FULL).evt Pg.DARN 9
  else if s.mem.copy.any (fun c => decide (c.1 = row)) then s
  else if s.mem.copy.isSome then { s with mem := { s.mem with autoDue := s.mem.autoDue ++ [row] } }
  else s.darnStart row true

/-! ### Words in error (R396, R404) -/

/-- The row of the array that serves a row: itself, or its spare (R402). -/
def State.arrayRow (s : State) (row : Nat) : Nat :=
  match SMap.get (fun _ => 0) s.mem.darned row with
  | 0 => row
  | k + 1 => firstSpare + k

/-- Bits in error of a word. -/
def State.flipsAt (s : State) (w : Nat) : Nat := SMap.get (fun _ => 0) s.mem.flips w

/-- A word's bits in error set. -/
def State.setFlips (s : State) (w n : Nat) : State :=
  { s with mem := { s.mem with flips := SMap.set (fun _ => 0) s.mem.flips w n } }

/-- One or two bits in error: corrected, counted, and judged against THRESH of its row of the array. -/
def State.wordCorrected (s : State) (w bits source : Nat) : State :=
  let r := s.arrayRow (w / 256)
  let s := ((s.inc Pg.MEM (MEM1.CE (r % 16))).evtMs Pg.MEM 8).memErr w bits source
  let n := SMap.get (fun _ => 0) s.mem.corrected r + 1
  let s : State := { s with mem := { s.mem with corrected := SMap.set (fun _ => 0) s.mem.corrected r n } }
  if n = max 1 (s.get Pg.DARN DARN.CTRL_THRESH) then s.autoDarn (w / 256) else s

/-- Three bits or more: the word is rewritten with its poison bit set, and its row is darned. -/
def State.wordLost (s : State) (w source : Nat) : State :=
  let s := ((s.inc Pg.MEM (MEM1.UE (s.arrayRow (w / 256) % 16))).evt Pg.MEM 9).memErr w 3 source
  let s : State := { s with mem := { s.mem with poison := SMap.set (fun _ => false) s.mem.poison w true } }
  ((s.setFlips w 0).poisonWord true (w * 8)).autoDarn (w / 256)

/-- The corrected bytes of a word wait to be written back while DEMAND_SCRUB is 1 (R396, R397). -/
def State.holdBack (s : State) (w : Nat) : State :=
  if s.bit Pg.MEM MEM0.ECC_CTRL then
    { s with mem := { s.mem with
        writeBack := s.mem.writeBack.filter (fun e => !decide (e.1 = w)) ++ [(w, s.memBytes (w * 8) 8)] } }
  else s

/-- What a read finds in a word, and what the LB880 does about it (R396); the correction waits to be written back. -/
def State.wordRead (s : State) (w source : Nat) : State :=
  let n := s.flipsAt w
  if 3 ≤ n then s.wordLost w source
  else
    let s := if n = 0 then s else (s.wordCorrected w n source).holdBack w
    if n = 0 && s.poisoned w then (s.inc Pg.MEM MEM1.POISON_READ).memErr w 4 source else s

/-- The demand write-backs that are held are carried out (R396). -/
def State.writeBacks (s : State) : State :=
  s.mem.writeBack.foldl (fun s e => (s.memPut (e.1 * 8) e.2).setFlips e.1 0)
    { s with mem := { s.mem with writeBack := [] } }

/-! ### Reads and writes by consumers -/

/-- A read of LPDDR5X by a consumer: its bytes and whether any word is poisoned (R396). -/
def State.memRead (s : State) (a n source : Nat) : List Byte × Bool × State :=
  let t := (wordsTouched a n).foldl (fun s w => s.wordRead w source) s
  (s.memBytes a n, (wordsTouched a n).any t.poisoned, t)

/-- What a write does to the words it touches, beside their bytes (R396 to R398): a whole word loses its poison and its
errors, part of a word is read, merged and written, and a poisoned word stays so; a write-back that waits is discarded. -/
def State.wordWritten (s : State) (w source : Nat) (whole : Bool) : State :=
  let s : State := { s with mem := { s.mem with writeBack := s.mem.writeBack.filter (fun e => !decide (e.1 = w)) } }
  if whole then (({ s with mem := { s.mem with poison := SMap.erase s.mem.poison w } } : State)).setFlips w 0
  else
    let n := s.flipsAt w
    let s := if 3 ≤ n then s.wordLost w source else if n = 0 then s else (s.wordCorrected w n source).setFlips w 0
    if s.poisoned w then s.inc Pg.MEM MEM1.PARTIAL_POISON else s

/-- A write to LPDDR5X (R396 to R398). -/
def State.memWrite (s : State) (a : Nat) (bs : List Byte) (source : Nat) : State :=
  (wordsTouched a bs.length).foldl (fun s w => s.wordWritten w source (decide (a ≤ w * 8 ∧ w * 8 + 8 ≤ a + bs.length)))
    (s.memPut a bs)

end Sys2Proof.Machine
end

