-- ==== Sys2Proof/Machine/HostIf.lean ====
section
/-!
DEFINITION. Machine/HostIf.lean: commands of the host interface apart from descriptor fetching and function resets
(chapter 14).
-/

namespace Sys2Proof.Machine

/-! ### Feature negotiation (R413 to R415) -/

/-- GO written to `FEAT_COMMIT`: the code of the first refusal (R414). -/
def State.featRefusal (s : State) : Nat :=
  let pf0 := s.fnHost 0
  if (s.rd (Pg.DEV + 0x150)).toNat % 2 = 0 then 1
  else if s.bit Pg.DEV DEV.FEAT_STAT_COMMITTED then 2
  else if s.fnIs .pf1 .off = false ∨
      s.pcie.eps.any (fun kv => decide (pf0.qbase ≤ kv.1 ∧ kv.1 < pf0.qbase + pf0.qcount) && kv.2.en) = true then 3
  else 0

/-- The commit itself (R414). -/
def State.featCommit (s : State) : State :=
  let e := s.featRefusal
  if e ≠ 0 then s.set Pg.DEV DEV.FEAT_STAT_ERR e
  else
    let s := s.wr (Pg.DEV + 0x170) (s.rd (Pg.DEV + 0x150) &&& BitVec.ofNat 32 s.featOffer)
    let s := ((s.wr (Pg.DEV + 0x174) 0).wr (Pg.DEV + 0x178) 0).wr (Pg.DEV + 0x17C) 0
    (s.set Pg.DEV DEV.FEAT_STAT_COMMITTED 1).set Pg.DEV DEV.FEAT_STAT_ERR 0

/-- FEAT_COMMIT (R413 to R415). -/
def execFeatCommit (src : Source) (val : Word) (s : State) : Host.Outcome State Fault Refusal :=
  let a := Pg.DEV + DEV.FEAT_COMMIT.off
  .next (match s.accessReg src a true with
    | .rejected p r => s.refuse src p r true a
    | .ok _ => if val.toNat % 2 = 1 then s.featCommit else s)

/-! ### Endpoint ranges and contexts (R416 to R418) -/

/-- The function that `FN_SEL` names; 254 and 255 act as 0. -/
def State.fnSel (s : State) : Nat := let f := s.get Pg.HQ HQ0.FN_SEL; if f < 254 then f else 0

/-- The function whose range a source's endpoint commands address (R418). -/
def State.epRange (s : State) (src : Source) : Nat :=
  match src with
  | .pf1 => 1
  | .vf n => 2 + n.val
  | _ => s.fnSel

/-- Whether every endpoint of a function has EN 0. -/
def State.epsOff (s : State) (f : Nat) : Bool :=
  let x := s.fnHost f
  s.pcie.eps.all (fun kv => !(decide (x.qbase ≤ kv.1 ∧ kv.1 < x.qbase + x.qcount) && kv.2.en))

/-- Whether a function's range may be written now (R416). -/
def State.rangeOpen (s : State) (f : Nat) : Bool := if f = 0 then s.epsOff 0 else decide (s.hostFn f = .off)

/-- Whether a pair may be committed for a function (R416). -/
def State.rangeFits (s : State) (f base count : Nat) : Bool :=
  decide (count ≤ (if f < 2 then 131072 else 4096)) && decide (base + count ≤ 131072)
    && s.pcie.fns.all (fun kv => decide (kv.1 = f) || !overlaps base count kv.2.qbase kv.2.qcount)

/-- FN_QCOUNT_WRITE (R416). -/
def execFnQcountWrite (src : Source) (val : Word) (s : State) : Host.Outcome State Fault Refusal :=
  let a := Pg.HQ + HQ0.FN_QCOUNT.off
  .next (match s.accessReg src a true with
    | .rejected p r => s.refuse src p r true a
    | .ok _ =>
      let f := s.fnSel
      let x := s.fnHost f
      let n := HQ0.FN_QCOUNT_COUNT.get val
      if !s.rangeOpen f then s.refuse src Pg.HQ .offOnly true a
      else if s.rangeFits f x.qbaseStaged n then s.setFnHost f { x with qbase := x.qbaseStaged, qcount := n, qerr := false }
      else s.setFnHost f { x with qerr := true })

/-- The endpoint that a source's `EP_SEL` names, where its range has one (R418). -/
def State.epSelected (s : State) (src : Source) : Option Nat :=
  let x := s.fnHost (s.epRange src)
  let i := (s.srcReg (Pg.HQ + HQ0.EP_SEL.off) src).toNat % 2 ^ 17
  if i < x.qcount then some (x.qbase + i) else none

/-- The RESULT of a source's `EP_CMD` set. -/
def State.epResult (s : State) (src : Source) (r : Nat) : State :=
  s.setSrcReg (Pg.HQ + HQ0.EP_CMD.off) src (BitVec.ofNat 32 (r * 2 ^ 8))

/-- A source's staged words for an indexed table (R353, R418). -/
def State.staged (s : State) (a : Nat) (src : Source) (n : Nat) : List Word :=
  (List.range n).map (fun k => s.srcReg (a + 4 * k) src)

/-- The same, replaced. -/
def State.setStaged (s : State) (a : Nat) (src : Source) : List Word → State
  | [] => s
  | w :: ws => (s.setSrcReg a src w).setStaged (a + 4) src ws

/-- The written fields of a context from its words. -/
def epFields (ws : List Word) : Nat × Nat × Nat × Nat × Nat × Nat :=
  let w := fun n => (ws.getD n 0).toNat
  ((ws.getD 0 0 &&& 0xFC000FFF).toNat, (ws.getD 1 0 &&& 0x87FFFFFF).toNat, w 2 % 2 ^ 16,
   w 4 + w 5 * 2 ^ 32, w 6 + w 7 * 2 ^ 32, w 8 + w 9 * 2 ^ 32)

/-- A context written (R418): its result and the state after. -/
def State.epWrite (s : State) (f q : Nat) (ws : List Word) : Nat × State :=
  match epFields ws with
  | (ctrl, irq, tim, sq, rq, cq) =>
    let e := s.ep q
    let en := decide (2 ^ 31 ≤ ctrl)
    let lim := if s.feat 1 then 10 else 9
    if e.en && !(decide (ctrl % 2 ^ 31 = e.ctrl % 2 ^ 31) && decide (sq = e.sqBase) && decide (rq = e.rqBase)
        && decide (cq = e.cqBase)) then (1, s)
    else if en && decide (msixVectors f ≤ irq / 2 ^ 16 % 2 ^ 11) then (3, s)
    else if en && (decide (lim < ctrl / 2 ^ 8 % 16) || decide (lim < ctrl / 2 ^ 4 % 16) || decide (lim < ctrl % 16)
        || decide (sq % 4096 ≠ 0) || decide (rq % 4096 ≠ 0) || decide (cq % 4096 ≠ 0)) then (4, s)
    else
      let e' := { e with ctrl := ctrl, irq := irq, modTimer := tim, sqBase := sq, rqBase := rq, cqBase := cq }
      if en && !e.en then
        (0, s.setEp q { e' with sqTail := 0, sqHead := 0, rqTail := 0, rqHead := 0, cqHead := 0, cqTail := 0, phase := true,
                                sqErr := false, rqErr := false, idle := false, rxd := [] })
      else if !en && e.en then (0, s.setEp q { e' with idle := decide (e.inFlight = 0) })
      else (0, s.setEp q e')

/-- A write of `EP_CMD` (R418, R440): OP 1 reads the context, OP 2 writes it, and no other does anything. -/
def State.epCmd (s : State) (src : Source) (val : Word) : State :=
  let a := Pg.HQ + HQ0.EP_CMD.off
  let op := val.toNat % 4
  match s.accessReg src a true with
  | .rejected p r => s.refuse src p r true a
  | .ok _ =>
    if op ≠ 1 ∧ op ≠ 2 then s
    else
      match s.epSelected src with
      | none => s.epResult src 2
      | some q =>
        if op = 1 then (s.setStaged (Pg.HQ + (HQ0.EP_DATA 0).off) src (s.ep q).words).epResult src 0
        else
          let r := s.epWrite (s.epRange src) q (s.staged (Pg.HQ + (HQ0.EP_DATA 0).off) src 16)
          r.2.epResult src r.1

/-- EP_READ (R417, R418). -/
def execEpRead (src : Source) (val : Word) (s : State) : Host.Outcome State Fault Refusal := .next (s.epCmd src val)

/-- EP_WRITE (R417, R418, R440). -/
def execEpWrite (src : Source) (val : Word) (s : State) : Host.Outcome State Fault Refusal := .next (s.epCmd src val)

/-! ### Doorbells (R419) -/

/-- A doorbell write ignored as out of range: counted and signalled. -/
def State.dbErr (s : State) : State := (s.inc Pg.HQ HQ1.DB_ERR).evtMs Pg.HQ 11

/-- The endpoint of a function's doorbell block, where its range has it. -/
def State.dbEp (s : State) (f k : Nat) : Option Nat :=
  let x := s.fnHost f
  if k < x.qcount then some (x.qbase + k) else none

/-- Whether doorbells of a function are dropped now. -/
def State.dbDrops (s : State) (f : Nat) (e : Ep) : Bool :=
  decide (s.hostFn f = .off) || decide (s.hostFn f = .fault) || !e.en

/-- SQ_TAIL_DOORBELL (R419). -/
def execSqTailDoorbell (func : Fin 254) (k : Fin 131072) (val : Word) (s : State) : Host.Outcome State Fault Refusal :=
  .next (match s.dbEp func.val k.val with
    | none => s
    | some q =>
      let e := s.ep q
      let i := val.toNat % 2 ^ 16
      if s.dbDrops func.val e then s.inc Pg.HQ HQ1.DB_DROP
      else if s.sqEntries e ≤ i then s.dbErr
      else s.setEp q { e with sqTail := i })

/-- RQ_TAIL_DOORBELL (R419). -/
def execRqTailDoorbell (func : Fin 254) (k : Fin 131072) (val : Word) (s : State) : Host.Outcome State Fault Refusal :=
  .next (match s.dbEp func.val k.val with
    | none => s
    | some q =>
      let e := s.ep q
      let i := val.toNat % 2 ^ 16
      if s.dbDrops func.val e then s.inc Pg.HQ HQ1.DB_DROP
      else if s.rqEntries e ≤ i then s.dbErr
      else s.setEp q { e with rqTail := i })

/-- CQ_HEAD_DOORBELL (R419, R428, R430). -/
def execCqHeadDoorbell (func : Fin 254) (k : Fin 131072) (val : Word) (s : State) : Host.Outcome State Fault Refusal :=
  .next (match s.dbEp func.val k.val with
    | none => s
    | some q =>
      let e := s.ep q
      let n := s.cqEntries e
      let i := val.toNat % 2 ^ 16
      if s.dbDrops func.val e then s.inc Pg.HQ HQ1.DB_DROP
      else if n ≤ i ∨ (e.cqTail + n - e.cqHead) % n < (i + n - e.cqHead) % n then s.dbErr
      else
        let s := s.setEp q { e with cqHead := i, armed := e.armed || decide (2 ^ 31 ≤ val.toNat) }
        (s.cplFlush q e.wait.length).irqTry q)

/-! ### Interrupts and the link (R430 to R432) -/

/-- MOD_TIMER_EXPIRY (R430). -/
def execModTimerExpiry (ep : Fin 131072) (s : State) : Host.Outcome State Fault Refusal :=
  let q := ep.val
  .next (
    if s.running (Tm.moderate q) then ((s.stopTimer (Tm.moderate q)).setEp q { s.ep q with timeUp := true }).irqTry q else s)

/-- The link at L0: what waited leaves in order, then the interrupts (R431). -/
def State.linkUp (s : State) : State :=
  let held := s.pcie.held
  let qs := s.pcie.irqWait
  let s := ({ s with pcie := { s.pcie with link := .l0, held := [], irqWait := [] } } : State).emits held
  qs.foldl (fun s q => s.irqTry q) s

/-- LINK_L1_EXIT_DONE (R431). -/
def execLinkL1ExitDone (s : State) : Host.Outcome State Fault Refusal :=
  .next (if s.pcie.link = .l1 ∨ s.pcie.link = .exiting then s.linkUp else s)

/-- ASPM_L1_ENTRY (R431): only an idle link at L0. -/
def execAspmL1Entry (s : State) : Host.Outcome State Fault Refusal :=
  .next (if s.pcie.link = .l0 then { s with pcie := { s.pcie with link := .l1 } } else s)

/-- LINK_TRAINING_COMPLETE (R8): the link reaches L0 at one of the speeds and widths of R8; it trains to no other. -/
def execLinkTrainingComplete (speed width : Nat) (s : State) : Host.Outcome State Fault Refusal :=
  .next (
    if speed ∈ [25, 50, 80, 160] ∧ width ∈ [1, 2, 4, 8, 16] ∧ s.pcie.link = .down then
      ({ s with pcie := { s.pcie with speed := speed, width := width } } : State).linkUp
    else s)

/-- PERST_DEASSERTION (R64): the PCIe reset ends. -/
def execPerstDeassertion (s : State) : Host.Outcome State Fault Refusal :=
  .next (if s.pcie.link = .reset then { s with pcie := { s.pcie with link := .down } } else s)

/-- Endpoints of a function. -/
def State.epsOf (s : State) (f : Nat) : List Nat :=
  let x := s.fnHost f
  (s.pcie.eps.map (fun kv => kv.1)).filter (fun q => decide (x.qbase ≤ q ∧ q < x.qbase + x.qcount))

/-! ### BAR4 (R412) -/

/-- BAR4_ACCESS (R396, R398, R399, R412); an access of no byte, of more than one transfer's 64, or beyond the BAR is none
of BAR4's. -/
def execBar4Access (func : Fin 254) (offset : Nat) (bytes : Fin 65) (write : Option (List Byte)) (s : State) :
    Host.Outcome State Fault Refusal :=
  let n := match write with
    | some bs => bs.length
    | none => bytes.val
  let a := (s.fnHost func.val).win + offset
  if barSize func.val 4 < offset + n ∨ n = 0 ∨ 64 < n then .next s
  else if a < firmwareRegion ∨ usableMem < a + n then .next { s with pcie := { s.pcie with bar4 := (1, []) } }
  else
    match write with
    | some bs =>
      let t := s.memWrite a bs 3
      .next { t with pcie := { t.pcie with bar4 := (0, []) } }
    | none =>
      let r := s.memRead a n 3
      .next { r.2.2 with pcie := { r.2.2.pcie with bar4 := (if r.2.1 then 2 else 0, r.1) } }

end Sys2Proof.Machine
end

