-- ==== Sys2Proof/Machine/Parse.lean ====
section
/-!
DEFINITION. Machine/Parse.lean: the header parser of the classifier (R320 to R323), and what is done to a frame at the
headers it finds: checksums and segmentation (R422).
-/

namespace Sys2Proof.Machine

/-- The headers of R320. -/
inductive Hdr where
  | eth | vlan | mpls | ip4 | ip6 | ext | frag6 | tcp | udp | sctp | icmp | gre | vxlan | geneve | ptp
deriving DecidableEq, Repr

/-- What the parser expects next. -/
inductive Next where
  | eth
  | etype (v : Nat)
  | mpls
  | nibble
  | proto (v6 : Bool) (v : Nat)
  | udpPort (v : Nat)
  | stop
deriving DecidableEq, Repr

/-- How the parser judges a frame (R321). -/
inductive ParseEnd where
  | normal | deep | conflict
deriving DecidableEq, Repr

/-- The fields of the headers before the first tunnel, or after it (R327, R328, R333). -/
structure Layer where
  dmac : List Byte
  smac : List Byte
  vlan1 : Option Nat
  vlan2 : Option Nat
  etype : Nat
  mpls : Option Nat
  /-- 0 none, 1 IPv4, 2 IPv6. -/
  l3 : Nat
  proto : Nat
  tos : Nat
  flow : Nat
  opts : Bool
  frag : Bool
  src : List Byte
  dst : List Byte
  sport : Nat
  dport : Nat
  tcpFlags : Nat
  /-- PTP messageType. -/
  ptp : Option Nat
deriving DecidableEq, Repr

/-- A layer without headers. -/
def Layer.none : Layer := ⟨[], [], .none, .none, 0, .none, 0, 0, 0, 0, false, false, [], [], 0, 0, 0, .none⟩

/-- What the parser finds in a frame. -/
structure Parsed where
  judged : ParseEnd
  outer : Layer
  inner : Layer
  /-- Tunnels passed. -/
  tunnels : Nat
  tunType : Nat
  tunId : Nat
  /-- Headers with their offsets, in order. -/
  hdrs : List (Hdr × Nat)
deriving DecidableEq, Repr

/-- Big-endian field of a frame; bytes beyond its end read 0. -/
def be (bs : List Byte) (off n : Nat) : Nat := beNat ((List.range n).map (fun k => bs.getD (off + k) 0))

/-- The header that `next` stands for, if it is one of R320. -/
def recognise (bs : List Byte) (pos : Nat) : Next → Option Hdr
  | .eth => some .eth
  | .etype v =>
    if v = 0x8100 ∨ v = 0x88A8 then some .vlan
    else if v = 0x8847 ∨ v = 0x8848 then some .mpls
    else if v = 0x0800 then some .ip4
    else if v = 0x86DD then some .ip6
    else if v = 0x88F7 then some .ptp
    else none
  | .mpls => some .mpls
  | .nibble =>
    if bs.length ≤ pos then none
    else if be bs pos 1 / 16 = 4 then some .ip4
    else if be bs pos 1 / 16 = 6 then some .ip6
    else none
  | .proto v6 v =>
    if v6 && (v = 0 || v = 43 || v = 60) then some .ext
    else if v6 && v = 44 then some .frag6
    else if v = 6 then some .tcp
    else if v = 17 then some .udp
    else if v = 132 then some .sctp
    else if v = 1 ∨ v = 58 then some .icmp
    else if v = 47 then some .gre
    else none
  | .udpPort v =>
    if v = 4789 then some .vxlan
    else if v = 6081 then some .geneve
    else if v = 319 ∨ v = 320 then some .ptp
    else none
  | .stop => none

/-- Length of a header at an offset (R320). -/
def Hdr.len (bs : List Byte) (pos : Nat) : Hdr → Nat
  | .eth => 14
  | .vlan => 4
  | .mpls => 4
  | .ip4 => be bs pos 1 % 16 * 4
  | .ip6 => 40
  | .ext => (be bs (pos + 1) 1 + 1) * 8
  | .frag6 => 8
  | .tcp => be bs (pos + 12) 1 / 16 * 4
  | .udp => 8
  | .sctp => 12
  | .icmp => 4
  | .gre =>
    let f := be bs pos 2
    4 + 4 * (f / 2 ^ 15 % 2 + f / 2 ^ 13 % 2 + f / 2 ^ 12 % 2)
  | .vxlan => 8
  | .geneve => 8 + be bs pos 1 % 64 * 4
  | .ptp => 34

/-- Whether the header fails with LEN_CONFLICT (R322); `lim` is the end of the payload that the enclosing IP length
declares. -/
def Hdr.conflict (bs : List Byte) (pos lim : Nat) (h : Hdr) : Bool :=
  let stop := pos + h.len bs pos
  decide (bs.length < stop) ||
    match h with
    | .ip4 =>
      let ihl := be bs pos 1 % 16
      let tot := be bs (pos + 2) 2
      decide (ihl < 5) || decide (tot < ihl * 4) || decide (bs.length < pos + tot) || decide (lim < pos + tot)
    | .ip6 =>
      let n := be bs (pos + 4) 2
      decide (bs.length < pos + 40 + n) || decide (lim < pos + 40 + n)
    | .tcp => decide (be bs (pos + 12) 1 / 16 < 5) || decide (lim < stop)
    | .udp => decide (be bs (pos + 4) 2 < 8) || decide (lim < stop)
    | .ext | .frag6 | .sctp | .icmp | .gre | .vxlan | .geneve => decide (lim < stop)
    | .eth | .vlan | .mpls | .ptp => false

/-- What a header adds to the fields of its layer. -/
def Hdr.fields (bs : List Byte) (pos : Nat) (l : Layer) : Hdr → Layer
  | .eth => { l with dmac := (bs.drop pos).take 6, smac := (bs.drop (pos + 6)).take 6, etype := be bs (pos + 12) 2 }
  | .vlan =>
    let t := be bs pos 2
    { l with vlan1 := if l.vlan1.isNone then some t else l.vlan1,
             vlan2 := if l.vlan1.isSome && l.vlan2.isNone then some t else l.vlan2, etype := be bs (pos + 2) 2 }
  | .mpls => { l with mpls := if l.mpls.isNone then some (be bs pos 4) else l.mpls }
  | .ip4 =>
    { l with l3 := 1, proto := be bs (pos + 9) 1, tos := be bs (pos + 1) 1, opts := l.opts || decide (5 < be bs pos 1 % 16),
             frag := l.frag || decide (be bs (pos + 6) 2 % 2 ^ 13 ≠ 0), src := (bs.drop (pos + 12)).take 4,
             dst := (bs.drop (pos + 16)).take 4 }
  | .ip6 =>
    { l with l3 := 2, proto := be bs (pos + 6) 1, tos := be bs pos 2 / 16 % 256, flow := be bs pos 4 % 2 ^ 20,
             src := (bs.drop (pos + 8)).take 16, dst := (bs.drop (pos + 24)).take 16 }
  | .ext => { l with proto := be bs pos 1, opts := true }
  | .frag6 => { l with proto := be bs pos 1, opts := true, frag := l.frag || decide (be bs (pos + 2) 2 / 8 ≠ 0) }
  | .tcp => { l with sport := be bs pos 2, dport := be bs (pos + 2) 2, tcpFlags := be bs (pos + 13) 1 }
  | .udp => { l with sport := be bs pos 2, dport := be bs (pos + 2) 2 }
  | .sctp => { l with sport := be bs pos 2, dport := be bs (pos + 2) 2 }
  | .ptp => { l with ptp := some (be bs pos 1 % 16) }
  | .icmp | .gre | .vxlan | .geneve => l

/-- What follows a header (R320, R323). -/
def Hdr.next (bs : List Byte) (pos : Nat) : Hdr → Next
  | .eth => .etype (be bs (pos + 12) 2)
  | .vlan => .etype (be bs (pos + 2) 2)
  | .mpls => if be bs pos 4 / 2 ^ 8 % 2 = 1 then .nibble else .mpls
  | .ip4 => if be bs (pos + 6) 2 % 2 ^ 13 ≠ 0 then .stop else .proto false (be bs (pos + 9) 1)
  | .ip6 => .proto true (be bs (pos + 6) 1)
  | .ext => .proto true (be bs pos 1)
  | .frag6 => if be bs (pos + 2) 2 / 8 ≠ 0 then .stop else .proto true (be bs pos 1)
  | .udp => .udpPort (be bs (pos + 2) 2)
  | .gre =>
    let p := be bs (pos + 2) 2
    if p = 0x6558 then .eth else if p = 0x0800 ∨ p = 0x86DD then .etype p else .stop
  | .vxlan => .eth
  | .geneve => if be bs (pos + 2) 2 = 0x6558 then .eth else .stop
  | .tcp | .sctp | .icmp | .ptp => .stop

/-- The end of the payload a header declares for what it encloses. -/
def Hdr.limit (bs : List Byte) (pos lim : Nat) : Hdr → Nat
  | .ip4 => pos + be bs (pos + 2) 2
  | .ip6 => pos + 40 + be bs (pos + 4) 2
  | _ => lim

/-- TUN_TYPE and TUN_ID of a tunnel header (R320, R333). -/
def Hdr.tunnel (bs : List Byte) (pos : Nat) : Hdr → Option (Nat × Nat)
  | .vxlan => some (1, be bs (pos + 4) 3)
  | .geneve => some (2, be bs (pos + 4) 3)
  | .gre =>
    let f := be bs pos 2
    some (3, if f / 2 ^ 13 % 2 = 1 then be bs (pos + 4 + 4 * (f / 2 ^ 15 % 2)) 4 % 2 ^ 24 else 0)
  | _ => none

/-- The parser's walk (R320, R321); `k` headers may still be taken, 12 at the start. -/
def parseFrom (bs : List Byte) : Nat → Nat → Nat → Next → Parsed → Parsed
  | k, pos, lim, nx, r =>
    match recognise bs pos nx with
    | none => r
    | some h =>
      match k with
      | 0 => { r with judged := .deep }
      | k + 1 =>
        if 256 < pos + h.len bs pos then { r with judged := .deep }
        else if h.conflict bs pos lim then { r with judged := .conflict }
        else
          let r := { r with outer := if r.tunnels = 0 then h.fields bs pos r.outer else r.outer,
                            inner := if r.tunnels = 1 then h.fields bs pos r.inner else r.inner,
                            hdrs := r.hdrs ++ [(h, pos)] }
          let r := match h.tunnel bs pos with
            | some (t, i) => { r with tunnels := r.tunnels + 1, tunType := if r.tunnels = 0 then t else r.tunType,
                                      tunId := if r.tunnels = 0 then i else r.tunId }
            | none => r
          parseFrom bs k (pos + h.len bs pos) (h.limit bs pos lim) (h.next bs pos) r

/-- A frame parsed. -/
def parse (bs : List Byte) : Parsed := parseFrom bs 12 0 bs.length .eth ⟨.normal, .none, .none, 0, 0, 0, []⟩

/-! ### Checksums (R422, R425) -/

/-- The one's-complement sum of a byte list, taken as 16-bit words. -/
def sum16 : List Byte → Nat
  | [] => 0
  | [a] => a.toNat * 256
  | a :: b :: bs => a.toNat * 256 + b.toNat + sum16 bs

/-- The Internet checksum of a sum. -/
def fold16 (n : Nat) : Nat :=
  let a := n % 65536 + n / 65536
  let b := a % 65536 + a / 65536
  let c := b % 65536 + b / 65536
  65535 - c % 65536

/-- Bytes written over a frame at an offset. -/
def patch (bs : List Byte) (off : Nat) (new : List Byte) : List Byte :=
  bs.take off ++ new ++ bs.drop (off + new.length)

/-- The innermost IPv4 header, and the innermost L4 header with the IP header before it. -/
def Parsed.ip4At (r : Parsed) : Option Nat := ((r.hdrs.reverse.find? (fun h => decide (h.1 = .ip4)))).map (fun h => h.2)
def Parsed.l4At (r : Parsed) : Option (Hdr × Nat × Hdr × Nat) :=
  match r.hdrs.reverse.find? (fun h => decide (h.1 = .tcp) || decide (h.1 = .udp) || decide (h.1 = .sctp)) with
  | none => none
  | some (h, p) =>
    match (r.hdrs.filter (fun x => decide (x.2 < p))).reverse.find? (fun x => decide (x.1 = .ip4) || decide (x.1 = .ip6)) with
    | none => none
    | some (i, q) => some (h, p, i, q)

/-- End of the payload that the IP header at an offset declares. -/
def ipEnd (bs : List Byte) (i : Hdr) (q : Nat) : Nat := Hdr.limit bs q bs.length i

/-- The sum over the pseudo header of an L4 header. -/
def pseudoSum (bs : List Byte) (i : Hdr) (q p proto : Nat) : Nat :=
  let len := ipEnd bs i q - p
  if i = .ip4 then sum16 ((bs.drop (q + 12)).take 8) + proto + len
  else sum16 ((bs.drop (q + 8)).take 32) + proto + len

/-- The checksum of the innermost IPv4 header written (R422). -/
def writeL3 (bs : List Byte) : List Byte :=
  match (parse bs).ip4At with
  | none => bs
  | some q =>
    let z := patch bs (q + 10) [0, 0]
    patch bs (q + 10) (beBytes 2 (fold16 (sum16 ((z.drop q).take (Hdr.len bs q .ip4)))))

/-- The L4 checksum of a frame as it should be: where it stands and its bytes. -/
def l4Checksum (bs : List Byte) : Option (Nat × List Byte) :=
  match (parse bs).l4At with
  | none => none
  | some (h, p, i, q) =>
    let stop := ipEnd bs i q
    match h with
    | .sctp =>
      let z := patch bs (p + 8) [0, 0, 0, 0]
      some (p + 8, leBytes 4 (Crypto.crc32c ((z.drop p).take (stop - p))))
    | .tcp =>
      let z := patch bs (p + 16) [0, 0]
      some (p + 16, beBytes 2 (fold16 (sum16 ((z.drop p).take (stop - p)) + pseudoSum bs i q p 6)))
    | _ =>
      let z := patch bs (p + 6) [0, 0]
      let c := fold16 (sum16 ((z.drop p).take (stop - p)) + pseudoSum bs i q p 17)
      some (p + 6, beBytes 2 (if c = 0 then 65535 else c))

/-- The L4 checksum written (R422). -/
def writeL4 (bs : List Byte) : List Byte :=
  match l4Checksum bs with
  | some (at_, c) => patch bs at_ c
  | none => bs

/-- CSUM_CHECKED, L3_OK and L4_OK of a received frame, in bits 3 to 5 (R425). -/
def rxCsum (bs : List Byte) : Nat :=
  let r := parse bs
  let l3 := match r.ip4At with
    | some q => decide (fold16 (sum16 ((bs.drop q).take (Hdr.len bs q .ip4))) = 0)
    | none => false
  let l4 := match l4Checksum bs with
    | some (at_, c) => decide ((bs.drop at_).take c.length = c)
    | none => false
  if r.ip4At.isSome || r.l4At.isSome then 8 + (if l3 then 16 else 0) + (if l4 then 32 else 0) else 0

/-! ### Segmentation (R422) -/

/-- A payload cut into pieces. -/
def pieces (mss : Nat) : Nat → List Byte → List (List Byte)
  | 0, _ => []
  | k + 1, bs => if bs.length ≤ mss then [bs] else bs.take mss :: pieces mss k (bs.drop mss)

/-- Headers up to the first TCP header, and where it stands. -/
def tsoTcp (r : Parsed) : Option Nat := (r.hdrs.find? (fun h => decide (h.1 = .tcp))).map (fun h => h.2)

/-- The lengths of the IP and UDP headers before the TCP header brought to a segment's length, and the IPv4
identification advanced. -/
def segLengths (r : Parsed) (n len : Nat) (tcp : Nat) (bs : List Byte) : List Byte :=
  (r.hdrs.filter (fun h => decide (h.2 < tcp))).foldl (fun bs h =>
    match h.1 with
    | .ip4 =>
      let bs := patch bs (h.2 + 2) (beBytes 2 (len - h.2))
      let bs := patch bs (h.2 + 4) (beBytes 2 ((be bs (h.2 + 4) 2 + n) % 65536))
      let z := patch bs (h.2 + 10) [0, 0]
      patch bs (h.2 + 10) (beBytes 2 (fold16 (sum16 ((z.drop h.2).take (Hdr.len bs h.2 .ip4)))))
    | .ip6 => patch bs (h.2 + 4) (beBytes 2 (len - h.2 - 40))
    | .udp => patch bs (h.2 + 4) (beBytes 2 (len - h.2))
    | _ => bs) bs

/-- The checksums of the UDP headers before the TCP header, where they are in use, brought up to date. -/
def fixUdp (r : Parsed) (tcp : Nat) (bs : List Byte) : List Byte :=
  (r.hdrs.filter (fun h => decide (h.1 = .udp) && decide (h.2 < tcp))).foldl (fun bs h =>
    if be bs (h.2 + 6) 2 = 0 then bs
    else
      match (r.hdrs.filter (fun x => decide (x.2 < h.2))).reverse.find? (fun x => decide (x.1 = .ip4) || decide (x.1 = .ip6)) with
      | none => bs
      | some (i, q) =>
        let z := patch bs (h.2 + 6) [0, 0]
        let c := fold16 (sum16 ((z.drop h.2).take (ipEnd bs i q - h.2)) + pseudoSum bs i q h.2 17)
        patch bs (h.2 + 6) (beBytes 2 (if c = 0 then 65535 else c))) bs

/-- The segments of a TSO frame (R422). -/
def segments (bs : List Byte) (mss : Nat) : List (List Byte) :=
  let r := parse bs
  match tsoTcp r with
  | none => [bs]
  | some p =>
    let hl := p + Hdr.len bs p .tcp
    let parts := pieces mss (bs.length - hl + 1) (bs.drop hl)
    let seq := be bs (p + 4) 4
    let flags := be bs (p + 13) 1
    (List.range parts.length).map (fun n =>
      let part := parts.getD n []
      let first := decide (n = 0)
      let last := decide (n + 1 = parts.length)
      let keep := 0xFF - (if first then 0 else 0x80) - (if last then 0 else 0x09)
      let seg := bs.take hl ++ part
      let seg := segLengths r n seg.length p seg
      let seg := patch seg (p + 4) (beBytes 4 ((seq + n * mss) % 2 ^ 32))
      let seg := patch seg (p + 13) [BitVec.ofNat 8 flags &&& BitVec.ofNat 8 keep]
      fixUdp r p (writeL4 seg))

end Sys2Proof.Machine
end

