-- ==== Sys2Proof/Machine/Security.lean ====
section
/-!
DEFINITION. Machine/Security.lean: fuses, images, flash, boot records, measurements, attestation, debug and the random
source (chapter 3).  Functions named `mbx…` serve one mailbox command: status, response words and the state after.
-/

namespace Sys2Proof.Machine

/-! ### Mailbox status codes (R81) -/

namespace Sts
def ok : Nat := 0
def unknownCmd : Nat := 1
def badArg : Nat := 2
def notPermitted : Nat := 3
def busy : Nat := 4
def authFail : Nat := 5
def rollback : Nat := 6
def flashError : Nat := 7
def notReady : Nat := 8
def timeout : Nat := 9
def fuseFail : Nat := 10
def dmaError : Nat := 11
def entropyFail : Nat := 12
end Sts

/-- Response words of data of at most 124 bytes. -/
def wordsOf (bs : List Byte) : List Word := leWords ((bs.length + 3) / 4) bs

/-- Data answered by a command (R78): in the response up to 124 bytes; longer data by DMA on channel 0, by chunks on
channel 1. -/
def State.answerData (s : State) (ch : Chan) (dest : Nat) (bs : List Byte) : Nat × List Word × State :=
  if bs.length ≤ 124 then (Sts.ok, wordsOf bs, s)
  else
    match ch with
    | .ch0 => (Sts.ok, [], s.emit (.dmaWrite dest bs))
    | .ch1 => (Sts.ok, wordsOf ((bs.drop dest).take 124), s)

/-- The response to a request (R78): DONE and MBX_DONE; `mute` when it is discarded (R439). -/
def State.respond (s : State) (ch : Chan) (tag : Byte) (mute : Bool) (status : Nat) (words : List Word) : State :=
  let b := Pg.HOOK ch
  let s := s.set b HOOK.MBX_STAT_BUSY 0
  if mute then s
  else
    let ws := words.take 31
    let w0 := BitVec.ofNat 32 (tag.toNat * 2 ^ 24 + 4 * ws.length * 2 ^ 16 + status)
    ((s.wrWords (b + 0x100) (w0 :: ws)).set b HOOK.MBX_STAT_DONE 1).evt b 9

/-- A line of the boot and update log (R79): step and result; it goes out on the debug UART as well (R62). -/
def State.bootLog (s : State) (step result : Nat) : State :=
  ({ s with boot := { s.boot with log := s.boot.log ++ [(step, result)] } } : State).emit
    (.uart (Config.bootLogBytes [(step, result)]))

/-- A chunk put at its place (R78, R191). -/
def putChunk (have_ : List Byte) (off : Nat) (bs : List Byte) : List Byte :=
  have_.take off ++ List.replicate (off - have_.length) 0 ++ bs ++ have_.drop (off + bs.length)

/-! ### Fuses (R55 to R59) -/

/-- A fuse bit. -/
def State.fuse (s : State) (n : Nat) : Bool := SMap.get (fun _ => false) s.fuses.bits n

/-- A run of fuse bits as bytes, the lowest bit first in each byte. -/
def State.fuseBytes (s : State) (bit n : Nat) : List Byte :=
  (List.range n).map (fun k => BitVec.ofNat 8 ((List.range 8).foldl (fun a j => a + if s.fuse (bit + 8 * k + j) then 2 ^ j else 0) 0))

/-- Whether every bit of a run is blank. -/
def State.fuseBlank (s : State) (bit n : Nat) : Bool := (List.range n).all (fun k => !s.fuse (bit + k))

/-- Fuse bits programmed: a programmed bit stays programmed. -/
def State.fuseSet (s : State) (bits : List Nat) : State :=
  { s with fuses := { s.fuses with bits := bits.foldl (fun m k => SMap.set (fun _ => false) m k true) s.fuses.bits } }

/-- The serial number (R55): DESIGN CHOICE, bits 0 to 127 of the manufacturing record (log entry 31). -/
def State.serial (s : State) : List Byte := s.fuseBytes 0 16

/-- The identity seed (R55, R74): DESIGN CHOICE, the lowest 456 bits of its region (log entry 31). -/
def State.identitySeed (s : State) : List Byte := s.fuseBytes 512 57

/-- The identity public key (R74). -/
def State.identityKey (s : State) : List Byte := Crypto.ed448Public s.identitySeed

/-- Where a key slot's digest lies in the fuses: vendor 0x00 to 0x03, owner 0x10 and 0x11 (R55, R67). -/
def keySlotBit (slot : Nat) : Option Nat :=
  if slot < 4 then some (1280 + 512 * slot)
  else if 0x10 ≤ slot ∧ slot < 0x12 then some (3392 + 512 * (slot - 0x10))
  else none

/-- Whether a key slot is programmed and not revoked (R55, R68). -/
def State.keySlotUsable (s : State) (slot : Nat) : Bool :=
  match keySlotBit slot with
  | some b => !s.fuseBlank b 512 && !(decide (slot < 4) && s.fuse (3328 + slot))
  | none => false

/-- Whether SHAKE256 of a public key is the digest of a slot. -/
def State.keyMatches (s : State) (slot : Nat) (pk : List Byte) : Bool :=
  match keySlotBit slot with
  | some b => decide (Crypto.shake256 64 pk = s.fuseBytes b 64)
  | none => false

/-! ### Images (R67, R68) -/

/-- A little-endian field of a header. -/
def hdrField (h : List Byte) (off n : Nat) : Nat := leNat ((h.drop off).take n)

/-- The signed digest of an image (R76): SHAKE256 of header bytes 0x000 to 0x0BF. -/
def signedDigest (h : List Byte) : List Byte := Crypto.shake256 64 (h.take 0xC0)

/-- TYPE, KEY_SLOT and BODY_LENGTH of a header (R67). -/
def hdrType (h : List Byte) : Nat := hdrField h 8 1
def hdrSlot (h : List Byte) : Nat := hdrField h 9 1
def hdrBodyLength (h : List Byte) : Nat := hdrField h 0x10 4

/-- Checks 1 to 5 of R68 on a header that is to be of a type; the code of the first that fails. -/
def State.headerCheck (s : State) (type : Nat) (h : List Byte) : Option Nat :=
  if h.length < 0x140 ∨ (h.take 4) ≠ [0x4C, 0x42, 0x49, 0x4D] ∨ hdrField h 4 2 ≠ 1 ∨ hdrField h 6 2 ≠ 0x140
      ∨ hdrType h ≠ type ∨ type = 0 ∨ 4 < type then some 1
  else if !s.keySlotUsable (hdrSlot h) ∨ ((type = 1 ∨ type = 2) ∧ 4 ≤ hdrSlot h)
      ∨ (type = 3 ∧ !s.fuses.userKernels) then some 2
  else if !s.keyMatches (hdrSlot h) ((h.drop 0x80).take 57) then some 3
  else if !Crypto.ed448Verify ((h.drop 0x80).take 57) (signedDigest h) ((h.drop 0xC0).take 114) then some 4
  else if hdrField h 0xA 1 < s.rollbackCount (type - 1) then some 5
  else none

/-- Check 6 of R68. -/
def bodyCheck (h body : List Byte) : Option Nat :=
  if Crypto.shake256 64 body = (h.drop 0x40).take 64 then none else some 6

/-- All checks of R68 over a whole image. -/
def State.imageCheck (s : State) (type : Nat) (img : List Byte) : Option Nat :=
  match s.headerCheck type (img.take 0x140) with
  | some c => some c
  | none => bodyCheck (img.take 0x140) ((img.drop 0x140).take (hdrBodyLength img))

/-- What is kept of an image that runs. -/
def imgInfo (h : List Byte) : ImgInfo := ⟨hdrField h 0xC 4, hdrField h 0xA 1, signedDigest h⟩

/-- The mailbox status of a failed check (R68, R81). -/
def checkStatus (code : Nat) : Nat := if code = 5 then Sts.rollback else Sts.authFail

/-! ### Flash (R69) and boot records (R70 to R72) -/

/-- What an unlisted byte of the flash reads as: erased. -/
def flashErased : Nat → Byte := fun _ => 0xFF

/-- Bytes of the flash. -/
def State.flashBytes (s : State) (off n : Nat) : List Byte := SMap.getList flashErased s.flash off n

/-- Bytes written to the flash. -/
def State.flashPut (s : State) (off : Nat) (bs : List Byte) : State :=
  { s with flash := SMap.setList flashErased s.flash off bs }

/-- Where a bank starts (R69). -/
def bankBase : Bank → Nat
  | .bankA => 0x00100000
  | .bankB => 0x01000000

/-- Where a region of FLASH_ERASE and FLASH_WRITE starts, and how long it is. -/
def regionBase : FlashRegion → Nat × Nat
  | .bank b => (bankBase b, 0xF00000)
  | .config => (0x01F00000, 0x100000)

/-- The header of the Hook firmware image of a bank. -/
def State.bankHeader (s : State) (b : Bank) : List Byte := s.flashBytes (bankBase b) 0x140

/-- Where the image after the firmware image starts in a bank: the next 4 KiB boundary (R69). -/
def State.bankSecond (s : State) (b : Bank) : Nat :=
  bankBase b + (0x140 + hdrBodyLength (s.bankHeader b) + 0xFFF) / 0x1000 * 0x1000

/-- Whether an image's MAGIC stands at a place of the flash. -/
def State.flashMagic (s : State) (off : Nat) : Bool := decide (s.flashBytes off 4 = [0x4C, 0x42, 0x49, 0x4D])

/-- Where the boot configuration image starts in a bank (R69): the next 4 KiB boundary after the kernel set. -/
def State.bankThird (s : State) (b : Bank) : Nat :=
  let off := s.bankSecond b
  if s.flashMagic off then off + (0x140 + hdrBodyLength (s.flashBytes off 0x140) + 0xFFF) / 0x1000 * 0x1000 else off + 0x1000

/-- A whole image in the flash; where no MAGIC stands, the bytes in the place of its header. -/
def State.flashImage (s : State) (off : Nat) : List Byte :=
  let h := s.flashBytes off 0x140
  if s.flashMagic off then h ++ s.flashBytes (off + 0x140) (hdrBodyLength h) else h

/-- The boot record of a slot, when its CHECK is valid (R70, R71). -/
def State.bootRecord (s : State) (slot : Nat) : Option (List Byte) :=
  let r := s.flashBytes (0x1000 * slot) 80
  if (Crypto.shake256 64 (r.take 64)).take 16 = r.drop 64 then some r else none

/-- SEQUENCE of a boot record. -/
def recSeq (r : List Byte) : Nat := hdrField r 4 4

/-- The record in force and the slot that holds the older or invalid one (R71); DESIGN CHOICE: with equal SEQUENCEs slot 0
is in force (log entry 30). -/
def State.recordInForce (s : State) : Option (List Byte) × Nat :=
  match s.bootRecord 0, s.bootRecord 1 with
  | some a, some b => if recSeq b ≤ recSeq a then (some a, 1) else (some b, 0)
  | some a, none => (some a, 1)
  | none, some b => (some b, 0)
  | none, none => (none, 0)

/-- A new boot record (R70, R71): one SEQUENCE further, in the slot that holds the older or invalid record; DESIGN CHOICE:
with no valid record it takes SEQUENCE 1 and slot 0 (log entry 30). -/
def State.writeRecord (s : State) (b : Bank) (trial : Bool) (tries : Nat) : State :=
  let cur := s.recordInForce
  let seq := match cur.1 with
    | some r => recSeq r + 1
    | none => 1
  let body : List Byte := [0x4C, 0x42, 0x42, 0x52] ++ leBytes 4 seq ++ leBytes 1 b.num ++ [if trial then 1 else 0]
    ++ leBytes 1 tries ++ List.replicate 53 0
  s.flashPut (0x1000 * cur.2) (body ++ (Crypto.shake256 64 body).take 16)

/-! ### Measurements (R76) -/

/-- Words as bytes, least significant byte first. -/
def bytesOfWords (ws : List Word) : List Byte := (ws.map (fun w => leBytes 4 w.toNat)).flatten

/-- The 64 bytes of a measurement register. -/
def State.meas (s : State) (n : Nat) : List Byte := bytesOfWords (s.rdWords (Pg.SEC + 0x1040 + 0x40 * n) 16)

/-- A measurement register extended (R76), and the extend logged. -/
def State.measExtend (s : State) (n : Nat) (input : List Byte) : State :=
  let v := Crypto.shake256 64 (s.meas n ++ input)
  let s := s.wrWords (Pg.SEC + 0x1040 + 0x40 * n) (leWords 16 v)
  { s with security := { s.security with measLog := s.security.measLog ++ [(n, input)] } }

/-! ### Mailbox commands of this chapter -/

/-! STAGE values of `DEV.BOOT_STAT` (R66). -/
namespace Stg
def fuseLoad : Nat := 0
def rom : Nat := 1
def imageLoad : Nat := 2
def fwStart : Nat := 3
def fwReady : Nat := 4
def recovery : Nat := 5
def halted : Nat := 6
end Stg

/-- STAGE. -/
def State.stage (s : State) : Nat := s.get Pg.DEV DEV.BOOT_STAT_STAGE

/-- Whether firmware runs (R63, R65). -/
def State.fwIsReady (s : State) : Bool := decide (s.stage = Stg.fwReady)

/-- Whether a live update is in progress (R86). -/
def State.updating (s : State) : Bool :=
  match s.upd.phase with
  | .verifying => true
  | .moving _ => true
  | .waitCaston => true
  | _ => false

/-- The bank booted. -/
def State.bootedBank (s : State) : Bank := if s.bit Pg.DEV DEV.BOOT_STAT_BANK then .bankB else .bankA

/-- GET_INFO (R79). -/
def mbxGetInfo (s : State) : Nat × List Word × State :=
  (Sts.ok, Config.infoWords ((s.boot.fw.map ImgInfo.version).getD 0) s.bootedBank.num s.stage, s)

/-- GET_BOOT_LOG (R79). -/
def mbxGetBootLog (ch : Chan) (dest : Nat) (s : State) : Nat × List Word × State :=
  s.answerData ch dest (Config.bootLogBytes s.boot.log)

/-- FLASH_READ (R79). -/
def mbxFlashRead (ch : Chan) (off len dest : Nat) (s : State) : Nat × List Word × State :=
  if 0x2000000 < off + len then (Sts.badArg, [], s) else s.answerData ch dest (s.flashBytes off len)

/-- FLASH_ERASE (R79, R86), in 64 KiB sectors of a region. -/
def mbxFlashErase (r : FlashRegion) (sector count : Nat) (s : State) : Nat × List Word × State :=
  if s.updating then (Sts.busy, [], s)
  else if (regionBase r).2 < (sector + count) * 0x10000 then (Sts.badArg, [], s)
  else
    let a := (regionBase r).1 + sector * 0x10000
    (Sts.ok, [], { s with flash := SMap.drop (fun k => decide (a ≤ k) && decide (k < a + count * 0x10000)) s.flash })

/-- FLASH_WRITE (R78, R79, R86): on channel 1 a request brings one chunk of at most 124 bytes, at its own offset. -/
def mbxFlashWrite (ch : Chan) (r : FlashRegion) (off : Nat) (data : List Byte) (s : State) : Nat × List Word × State :=
  if s.updating then (Sts.busy, [], s)
  else if (regionBase r).2 < off + data.length ∨ (ch = .ch1 ∧ 124 < data.length) then (Sts.badArg, [], s)
  else (Sts.ok, [], s.flashPut ((regionBase r).1 + off) data)

/-- The checks of R68 over an image that may follow in a bank. -/
def State.followCheck (s : State) (type off : Nat) : Option Nat :=
  if s.flashMagic off then s.imageCheck type (s.flashImage off) else none

/-- The checks of R68 over a bank: its firmware image, and the kernel set and the boot configuration where they follow. -/
def State.bankCheck (s : State) (b : Bank) : Option Nat :=
  match s.imageCheck 1 (s.flashImage (bankBase b)) with
  | some c => some c
  | none =>
    match s.followCheck 2 (s.bankSecond b) with
    | some c => some c
    | none => s.followCheck 4 (s.bankThird b)

/-- The boot configuration image of a bank verified and put in use (R68, R69, R73); the spec gives its body no contents. -/
def State.loadConfig (s : State) (b : Bank) : State :=
  let img := s.flashImage (s.bankThird b)
  if s.imageCheck 4 img = none then { s with boot := { s.boot with config := some (imgInfo (img.take 0x140)) } } else s

/-- IMAGE_VERIFY (R79). -/
def mbxImageVerify (b : Bank) (s : State) : Nat × List Word × State :=
  match s.bankCheck b with
  | some c => (checkStatus c, [], s)
  | none => (Sts.ok, [], s)

/-- BANK_SELECT (R72, R79, R86). -/
def mbxBankSelect (b : Bank) (m : BankMode) (s : State) : Nat × List Word × State :=
  if s.updating then (Sts.busy, [], s)
  else
    match m with
    | .confirm => (Sts.ok, [], s.writeRecord b false 0)
    | .trial n => (Sts.ok, [], s.writeRecord b true n.val)

/-- The running image of a type (R73); `t` is TYPE - 1. -/
def State.runningImage (s : State) (t : Nat) : Option ImgInfo :=
  if t = 0 then s.boot.fw else if t = 1 then s.boot.kernels else if t = 2 then s.boot.customer else s.boot.config

/-- ROLLBACK_COMMIT (R73): the type's counter programmed up to the running image's index. -/
def mbxRollbackCommit (t : Nat) (s : State) : Nat × List Word × State :=
  match s.runningImage t with
  | none => (Sts.badArg, [], s)
  | some i => (Sts.ok, [], s.fuseSet ((List.range (min 128 i.rollback)).map (fun k => 4416 + 128 * t + k)))

/-- Steps of the boot and update log: an update started from a bank, done, and rolled back; a bank's number is the step
of its rejection. -/
def updateStep : Nat := 0x10
def updateDoneStep : Nat := 0x11
def updateBackStep : Nat := 0x12

/-- UPDATE_START (R82, R86): LIVE_UPDATE in force, no update in progress, the bank accepted under R68 and the running
VERSION at least its HANDOVER_FROM. -/
def mbxUpdateStart (s : State) : Nat × List Word × State :=
  if !s.feat 20 then (Sts.notPermitted, [], s)
  else if s.updating then (Sts.busy, [], s)
  else
    let b := s.bootedBank.other
    match s.bankCheck b with
    | some c => (checkStatus c, [], { s with upd := ⟨.idle, none, none, [], false, false⟩ })
    | none =>
      let h := s.bankHeader b
      if (s.boot.fw.map ImgInfo.version).getD 0 < hdrField h 0x18 4 then
        (Sts.notPermitted, [], { s with upd := ⟨.idle, none, none, [], false, false⟩ })
      else (Sts.ok, [], ({ s with upd := ⟨.verifying, some b, some (imgInfo h), [], false, false⟩ } : State).bootLog
        updateStep b.num)

/-- The number of an update phase and its core, for the free response word. -/
def UpdPhase.num : UpdPhase → Nat × Nat
  | .idle => (0, 0)
  | .verifying => (1, 0)
  | .moving c => (2, c)
  | .waitCaston => (3, 0)
  | .done => (4, 0)
  | .rolledBack => (5, 0)

/-- UPDATE_STATUS (R79). -/
def mbxUpdateStatus (s : State) : Nat × List Word × State :=
  (Sts.ok, [Config.updateWord s.upd.phase.num.1 s.upd.phase.num.2], s)

/-- Every moved core returns to the old image (R85). -/
def State.updateRollBack (s : State) : State :=
  ({ s with upd := ⟨.rolledBack, none, none, [], false, false⟩ } : State).bootLog updateBackStep s.upd.moved.length

/-- UPDATE_ABORT (R79): the update is abandoned before the next core move; a move in progress ends first. -/
def mbxUpdateAbort (s : State) : Nat × List Word × State :=
  match s.upd.phase with
  | .verifying => (Sts.ok, [], s.updateRollBack)
  | .waitCaston => (Sts.ok, [], s.updateRollBack)
  | .moving _ =>
    if s.upd.active then (Sts.ok, [], { s with upd := { s.upd with aborting := true } }) else (Sts.ok, [], s.updateRollBack)
  | _ => (Sts.ok, [], s)

/-- The length of the DER element at the head of a byte list. -/
def derLength (bs : List Byte) : Nat :=
  match bs with
  | _ :: l :: rest =>
    if l.toNat < 0x80 then 2 + l.toNat
    else
      let n := l.toNat - 0x80
      2 + n + beNat (rest.take n)
  | _ => bs.length

/-- Whether `p` occurs in a byte list; `n` bounds the places looked at. -/
def occurs (p : List Byte) : Nat → List Byte → Bool
  | 0, bs => decide (bs.take p.length = p)
  | n + 1, bs => decide (bs.take p.length = p) || occurs p n (bs.drop 1)

/-- A copy of the certificate chain: three DER certificates (R75). -/
def State.chainCopy (s : State) (k : Nat) : List Byte :=
  let area := s.flashBytes (0x10000 + 0x8000 * k) 0x8000
  let l1 := derLength area
  let l2 := derLength (area.drop l1)
  let l3 := derLength (area.drop (l1 + l2))
  area.take (l1 + l2 + l3)

/-- Whether a copy's device certificate holds the identity public key (R75). -/
def State.chainHolds (s : State) (k : Nat) : Bool :=
  let c := s.chainCopy k
  let d := c.take (derLength c)
  decide (d.take 1 = [0x30]) && occurs s.identityKey d.length d

/-- The chain CERT_READ returns, if any (R75). -/
def State.chain (s : State) : Option (List Byte) :=
  if s.chainHolds 0 then some (s.chainCopy 0) else if s.chainHolds 1 then some (s.chainCopy 1) else none

/-- CERT_READ (R75). -/
def mbxCertRead (ch : Chan) (dest : Nat) (s : State) : Nat × List Word × State :=
  match s.chain with
  | some c => s.answerData ch dest c
  | none => (Sts.flashError, [], s)

/-- The signed part of a QUOTE response (R77), from the counter's seconds and nanoseconds. -/
def State.quoteBody (s : State) (nonce : List Byte) (sec ns : Nat) : List Byte :=
  [0x4C, 0x42, 0x51, 0x54] ++ leBytes 2 1 ++ leBytes 2 0x0302 ++ s.serial ++ nonce ++ leBytes 4 s.boot.count
    ++ leBytes 4 ((s.boot.fw.map ImgInfo.version).getD 0) ++ leBytes 8 sec ++ leBytes 4 ns ++ leBytes 4 s.protectWord
    ++ ((List.range 8).map s.meas).flatten ++ Crypto.shake256 64 (Config.measLogBytes s.security.measLog)

/-- QUOTE (R77). -/
def mbxQuote (ch : Chan) (nonce : List Byte) (dest : Nat) (s : State) : Nat × List Word × State :=
  let unit := 10 ^ 9 * 2 ^ 40
  let b := s.quoteBody nonce (s.clock.cnt / unit % 2 ^ 48) (s.clock.cnt % unit / 2 ^ 40)
  s.answerData ch dest (b ++ Crypto.ed448Sign s.identitySeed (Crypto.shake256 64 b))

/-- MEAS_EXTEND (R76): MEAS4 to MEAS7. -/
def mbxMeasExtend (reg : Nat) (input : List Byte) (s : State) : Nat × List Word × State :=
  (Sts.ok, [], s.measExtend (4 + reg % 4) input)

/-- MEAS_READ (R79). -/
def mbxMeasRead (ch : Chan) (dest : Nat) (s : State) : Nat × List Word × State :=
  s.answerData ch dest (Config.measLogBytes s.security.measLog)

/-- The fuse bits FUSE_READ returns, as runs of readable regions, first and past-last bit (R55). -/
def fuseReadable : List (Nat × Nat) := [(0, 512), (1280, 4416), (9024, 11072)]

/-- FUSE_READ (R55, R56). -/
def mbxFuseRead (bit count : Nat) (s : State) : Nat × List Word × State :=
  if 992 < count then (Sts.badArg, [], s)
  else if fuseReadable.any (fun r => decide (r.1 ≤ bit ∧ bit + count ≤ r.2)) then
    (Sts.ok, wordsOf (((s.fuseBytes bit ((count + 7) / 8)).zipIdx).map (fun b =>
      if 8 * b.2 + 8 ≤ count then b.1 else b.1 &&& BitVec.ofNat 8 (2 ^ (count - 8 * b.2) - 1))), s)
  else (Sts.notPermitted, [], s)

/-- Whether FUSE_PROGRAM may program a run of bits (R55): revocation bits, owner key digests while blank and not
locked, root key slots while blank, and the owner's general-purpose bits.  DESIGN CHOICE: a run that spans two slots or
two regions may not be programmed at all (log entry 31). -/
def State.fuseMayProgram (s : State) (bit n : Nat) : Bool :=
  let inside := fun lo hi => decide (lo ≤ bit) && decide (bit + n ≤ hi)
  inside 3328 3392 || inside 9024 11072
    || (List.range 2).any (fun k => inside (3392 + 512 * k) (3904 + 512 * k) && s.fuseBlank (3392 + 512 * k) 512
        && !s.fuses.ownerKeysLocked)
    || (List.range 8).any (fun k => inside (4928 + 256 * k) (5184 + 256 * k) && s.fuseBlank (4928 + 256 * k) 256)

/-- FUSE_PROGRAM (R55, R57). -/
def mbxFuseProgram (bit : Nat) (data : List Bool) (temp : Int) (readBackOk : Bool) (s : State) : Nat × List Word × State :=
  if !s.fuseMayProgram bit data.length then (Sts.notPermitted, [], s)
  else if temp < 0 ∨ 85 < temp then (Sts.notPermitted, [], s)
  else
    let bits := (data.zipIdx.filter (fun d => d.1)).map (fun d => bit + d.2)
    if readBackOk then (Sts.ok, [], s.fuseSet bits)
    else (Sts.fuseFail, [], (s.fuseSet (bits.filter (Config.fuseTakes s.free))).takeFree)

/-- Whether a set-up only narrows the one in force (R59). -/
def ProtectReq.narrows (r : ProtectReq) (f : Fuses) : Bool :=
  (decide (r.debug = f.debug) || (decide (f.debug = 1) && decide (r.debug = 3)))
    && decide (r.bootSrcAllow &&& ~~~ f.bootSrcAllow = 0)
    && (!f.ownerKeysLocked || r.ownerKeysLocked) && (!r.oobFull || f.oobFull) && (!r.userKernels || f.userKernels)

/-- PROTECT_ADVANCE (R59). -/
def mbxProtectAdvance (r : ProtectReq) (s : State) : Nat × List Word × State :=
  if ProtectReq.narrows r s.fuses then
    (Sts.ok, [], { s with fuses := { s.fuses with debug := r.debug, bootSrcAllow := r.bootSrcAllow,
                                                  ownerKeysLocked := r.ownerKeysLocked, oobFull := r.oobFull,
                                                  userKernels := r.userKernels } })
  else (Sts.notPermitted, [], s)

/-- DEBUG_CHALLENGE (R60). -/
def mbxDebugChallenge (s : State) : Nat × List Word × State :=
  if s.fuses.debug = 1 then
    let n := Config.challengeNonce s.free
    (Sts.ok, wordsOf n, ({ s with security := { s.security with challenge := some n } } : State).takeFree)
  else (Sts.notPermitted, [], s)

/-- Debug unlocked (R61): DEBUG_ACTIVE, and MEAS0 extended with SHAKE256 of "DEBUG". -/
def State.debugUnlock (s : State) : State :=
  (s.set Pg.SEC SEC0.PROTECT_DEBUG_ACTIVE 1).measExtend 0 (Crypto.shake256 64 [0x44, 0x45, 0x42, 0x55, 0x47])

/-- DEBUG_RESPONSE (R60, R61). -/
def mbxDebugResponse (slot : Nat) (pk sig : List Byte) (s : State) : Nat × List Word × State :=
  if s.fuses.debug ≠ 1 then (Sts.notPermitted, [], s)
  else
    match s.security.challenge with
    | none => (Sts.authFail, [], s)
    | some n =>
      let s' : State := { s with security := { s.security with challenge := none } }
      if s.keySlotUsable slot && s.keyMatches slot pk && Crypto.ed448Verify pk (Crypto.shake256 64 (n ++ s.serial)) sig then
        (Sts.ok, [], s'.debugUnlock)
      else (Sts.authFail, [], s')

/-- `n` bytes of the DRBG's output. -/
def State.drbg (s : State) (n : Nat) : List Byte := (s.security.drbg.generate n).1

/-- The state after `n` bytes of the DRBG have been taken. -/
def State.drbgTaken (s : State) (n : Nat) : State :=
  { s with security := { s.security with drbg := (s.security.drbg.generate n).2 } }

/-- RANDOM (R87, R88). -/
def mbxRandom (n : Nat) (s : State) : Nat × List Word × State :=
  if s.bit Pg.SEC SEC0.RNG_STAT_DRBG_ERROR then (Sts.entropyFail, [], s) else (Sts.ok, wordsOf (s.drbg n), s.drbgTaken n)

/-! ### Meanings: the random source (R87, R88) -/

/-- The longest run of equal samples, the run now open being of length `run` and value `last`. -/
def longestRun : Bool → Nat → List Bool → Nat
  | _, run, [] => run
  | last, run, b :: bs => if b = last then longestRun last (run + 1) bs else max run (longestRun b 1 bs)

/-- The repetition count test of SP 800-90B (R87): a run of equal samples reaches the cutoff, which lies from 2 to the
window's length. -/
def repetitionFails : List Bool → Bool
  | [] => false
  | b :: bs => decide (max 2 (min Config.repetitionCutoff 1024) ≤ longestRun b 1 bs)

/-- The adaptive proportion test of SP 800-90B (R87) over windows of 1,024 binary samples: the first sample of a window
occurs in it as often as the cutoff, which is more than half of the window; `n` bounds the windows. -/
def proportionFails : Nat → List Bool → Bool
  | 0, _ => false
  | _ + 1, [] => false
  | n + 1, b :: bs =>
    let w := (b :: bs).take 1024
    (decide (w.length = 1024) && decide (max 513 (min Config.proportionCutoff 1024) ≤ (w.filter (fun x => decide (x = b))).length))
      || proportionFails n ((b :: bs).drop 1024)

/-- Whether a block of samples of the noise source meets both health tests (R87). -/
def healthy (samples : List Bool) : Bool :=
  !repetitionFails samples && !proportionFails (samples.length / 1024 + 1) samples

/-- Samples as bytes, the first in bit 0. -/
def sampleBytes : Nat → List Bool → List Byte
  | 0, _ => []
  | n + 1, bs => BitVec.ofNat 8 ((bs.take 8).foldr (fun b a => 2 * a + if b then 1 else 0) 0) :: sampleBytes n (bs.drop 8)

/-- The output of the noise source conditioned by SHAKE256 (R87); DESIGN CHOICE: a seed of 48 bytes (log entry 32). -/
def conditioned (samples : List Bool) : List Byte := Crypto.shake256 48 (sampleBytes ((samples.length + 7) / 8) samples)

/-- The DRBG seeded with good entropy (R87). -/
def State.reseed (s : State) (samples : List Bool) : State :=
  ((({ s with security := { s.security with failedRun := 0, drbg := s.security.drbg.reseed (conditioned samples) } } : State).set
    Pg.SEC SEC0.RNG_STAT_READY 1).set Pg.SEC SEC0.RNG_STAT_DRBG_ERROR 0)

/-- A block discarded and counted; after the third in a row the source is declared failed (R88). -/
def State.blockFails (s : State) : State :=
  let n := s.security.failedRun + 1
  let t := s.set Pg.SEC SEC0.RNG_STAT_FAIL_COUNT (min 0xFFFF (s.get Pg.SEC SEC0.RNG_STAT_FAIL_COUNT + 1))
  let t := { t with security := { t.security with failedRun := n } }
  if 3 ≤ n ∧ !s.bit Pg.SEC SEC0.RNG_STAT_SOURCE_FAILED then (t.set Pg.SEC SEC0.RNG_STAT_SOURCE_FAILED 1).evt Pg.SEC 8 else t

/-- No good entropy at a reseed: the DRBG enters error (R88). -/
def State.drbgFails (s : State) : State :=
  (s.set Pg.SEC SEC0.RNG_STAT_DRBG_ERROR 1).set Pg.SEC SEC0.RNG_STAT_MASK_STALE 1

/-- The start-up test of 1,024 samples before first use (R87): on a failure the source is declared failed, and waits for
the test to be run again (R88; log entry 32). -/
def State.startupTest (s : State) : State :=
  let samples := Config.noiseBlock s.free
  let s := s.takeFree
  if decide (1024 ≤ samples.length) && healthy samples then s.reseed samples
  else ((s.set Pg.SEC SEC0.RNG_STAT_SOURCE_FAILED 1).evt Pg.SEC 8).drbgFails

/-- ENTROPY_HEALTH_FAIL (R87, R88): a block of samples, discarded and counted when it fails a test. -/
def execEntropyHealthFail (s : State) : Host.Outcome State Fault Refusal :=
  .next (if healthy (Config.noiseBlock s.free) then s.takeFree else s.takeFree.blockFails)

/-- DRBG_RESEED (R87, R88) from a block of samples: with the source failed there is no good entropy and the DRBG enters
error; a block that fails a test is counted as any is. -/
def execDrbgReseed (s : State) : Host.Outcome State Fault Refusal :=
  .next (
    let samples := Config.noiseBlock s.free
    let s := s.takeFree
    if s.bit Pg.SEC SEC0.RNG_STAT_SOURCE_FAILED then s.drbgFails
    else if healthy samples then s.reseed samples
    else
      let t := s.blockFails
      if t.bit Pg.SEC SEC0.RNG_STAT_SOURCE_FAILED then t.drbgFails else t)

/-- ENTROPY_STARTUP_RETEST (R88): on a pass of the start-up test the DRBG reseeds and leaves error. -/
def execEntropyStartupRetest (samples : List Bool) (s : State) : Host.Outcome State Fault Refusal :=
  .next (
    if s.bit Pg.SEC SEC0.RNG_STAT_SOURCE_FAILED && decide (1024 ≤ samples.length) && healthy samples then
      (s.set Pg.SEC SEC0.RNG_STAT_SOURCE_FAILED 0).reseed samples
    else s)

end Sys2Proof.Machine
end

