-- ==== Sys2Proof/Machine/Cipher.lean ====
section
/-!
DEFINITION. Machine/Cipher.lean: the cipher block (R459 to R480): key derivation, the line keys and their frames,
MACsec, and look-aside jobs.
-/

namespace Sys2Proof.Machine

/-! ### Root slots and derivation (R462 to R464) -/

/-- The bit of the fuse array where root key slot n of 0 to 7 begins (R55). -/
def rootFuseBit (slot : Nat) : Nat := 4928 + 256 * slot

/-- The content of a root key slot; none when it is blank, not loaded or erased. -/
def State.rootSlot (s : State) (slot : Nat) : Option (List Byte) :=
  if slot < 8 then
    if s.fuseBlank (rootFuseBit slot) 256 then none else some (s.fuseBytes (rootFuseBit slot) 32)
  else SMap.get (fun _ => none) s.ciph.slots slot

/-- A volatile root key slot loaded or erased. -/
def State.setRootSlot (s : State) (slot : Nat) (v : Option (List Byte)) : State :=
  { s with ciph := { s.ciph with slots := SMap.set (fun _ => none) s.ciph.slots slot v } }

/-- A derived key (R462): none when the derivation is refused. -/
def State.deriveKey (s : State) (slot : Nat) (label : List Byte) : Option (List Byte) :=
  if s.bit Pg.SEC SEC0.PROTECT_DEBUG_ACTIVE then none
  else (s.rootSlot slot).map (fun root => Crypto.shake256 32 (root ++ label ++ [0x00, 0x20]))

/-- A refused derivation (R462). -/
def State.keyRefused (s : State) : State := (s.inc Pg.CIPH CIPH2.KEY_REFUSED).evt Pg.CIPH 10

/-- The label of a directional line key (R464). -/
def lineLabel (up : Bool) (p : Port) (idx tree addr : Nat) : List Byte :=
  [0x01, if up then 1 else 0, BitVec.ofNat 8 p.num, BitVec.ofNat 8 idx] ++ beBytes 2 tree ++ beBytes 2 (addr % 4096)
    ++ List.replicate 24 0

/-! ### Line keys (R465 to R469) -/

/-- Fields of `CIPH.LINE_KEYS` of a port. -/
def fldInst : Port → Fld
  | .portA => CIPH0.LINE_KEYS_INST_A
  | .portB => CIPH0.LINE_KEYS_INST_B
def fldUsOn : Port → Fld
  | .portA => CIPH0.LINE_KEYS_US_ON_A
  | .portB => CIPH0.LINE_KEYS_US_ON_B
def fldUsIdx : Port → Fld
  | .portA => CIPH0.LINE_KEYS_US_IDX_A
  | .portB => CIPH0.LINE_KEYS_US_IDX_B

/-- The contexts of an index that has no key. -/
def lineKeyReset : Nat → LineKey := fun _ => ⟨none, none⟩

/-- The contexts of index i of a port. -/
def State.lineKey (s : State) (p : Port) (idx : Nat) : LineKey := SMap.get lineKeyReset s.ciph.keys (2 * p.num + idx)

/-- The same, replaced. -/
def State.setLineKey (s : State) (p : Port) (idx : Nat) (k : LineKey) : State :=
  { s with ciph := { s.ciph with keys := SMap.set lineKeyReset s.ciph.keys (2 * p.num + idx) k } }

/-- A key installed under an index from its root (R249, R462 to R464, R469): both contexts replaced at once, the replay
window cleared and PN 1; a refused derivation leaves the contexts unkeyed. -/
def State.installLineKey (s : State) (p : Port) (idx tree addr : Nat) (root : List Byte) : State :=
  let slot := 8 + 2 * p.num + idx
  let s := s.setRootSlot slot (some root)
  match s.deriveKey slot (lineLabel false p idx tree addr), s.deriveKey slot (lineLabel true p idx tree addr) with
  | some d, some u =>
    (s.setLineKey p idx ⟨some ⟨d, 0, []⟩, some ⟨u, 1⟩⟩).set Pg.CIPH (fldInst p)
      (s.get Pg.CIPH (fldInst p) ||| 2 ^ idx)
  | _, _ =>
    ((s.setLineKey p idx ⟨none, none⟩).set Pg.CIPH (fldInst p)
      (s.get Pg.CIPH (fldInst p) - (s.get Pg.CIPH (fldInst p) &&& 2 ^ idx))).keyRefused

/-- Every line key of a port erased, slots and contexts, and no upstream index in force (R236). -/
def State.dropLineKeys (s : State) (p : Port) : State :=
  let s := ((s.setRootSlot (8 + 2 * p.num) none).setRootSlot (9 + 2 * p.num) none)
  let s := (s.setLineKey p 0 ⟨none, none⟩).setLineKey p 1 ⟨none, none⟩
  ((s.set Pg.CIPH (fldInst p) 0).set Pg.CIPH (fldUsOn p) 0).set Pg.CIPH (fldUsIdx p) 0

/-- The AAD of a line frame (R465). -/
def lineAad (dest port key : Nat) : List Byte := beBytes 4 (dest % 4096 * 2 ^ 20 + port % 65536 * 2 ^ 4 + key % 4 * 4)

/-- The IV of a packet number (R465). -/
def lineIv (pn : Nat) : List Byte := List.replicate 4 0 ++ beBytes 8 pn

/-- Whether a packet number passes the replay check (R467): 4,096 numbers that end at the highest verified. -/
def DownKey.fresh (k : DownKey) (pn : Nat) : Bool := decide (k.high < pn + 4096) && !k.seen.contains pn

/-- A packet number verified. -/
def DownKey.take (k : DownKey) (pn : Nat) : DownKey :=
  let high := max k.high pn
  { k with high := high, seen := (pn :: k.seen).filter (fun n => decide (high < n + 4096)) }

/-- Step 7 of R109, as R466 orders it: the plaintext with its CRC, or none when the frame is dropped. -/
def State.lineDecrypt (s : State) (p : Port) (dest port key : Nat) (tunnel : Bool) (payload : List Byte) :
    Option (List Byte) × State :=
  let addr0 := s.get (Pg.LFR p) (LFR0.ADDR_ADDR 0)
  if key < 2 then
    if decide (key = 0) && decide (s.get Pg.CIPH CIPH0.LINE_POLICY / 2 ^ p.num % 2 = 1) && !tunnel then
      (none, s.inc Pg.CIPH (CIPH2.CLEAR_DROP p.num))
    else (some payload, s)
  else if dest ≠ addr0 then (none, s.inc Pg.CIPH (CIPH2.KEY_NOT_UNICAST p.num))
  else
    let idx := key % 2
    let k := s.lineKey p idx
    match k.down with
    | none => (none, s.inc Pg.CIPH (CIPH2.NO_KEY p.num))
    | some d =>
      if payload.length < 28 then (none, (s.inc Pg.CIPH (CIPH2.TAG_FAIL p.num)).evtMs Pg.CIPH 8)
      else
        let pn := beNat (payload.take 8)
        let ct := (payload.drop 8).take (payload.length - 24)
        let tag := payload.drop (payload.length - 16)
        match Crypto.gcmOpen d.key (lineIv pn) (lineAad dest port key) ct tag with
        | none => (none, (s.inc Pg.CIPH (CIPH2.TAG_FAIL p.num)).evtMs Pg.CIPH 8)
        | some pt =>
          if d.fresh pn then
            (some pt, (s.setLineKey p idx { k with down := some (d.take pn) }).inc Pg.CIPH (CIPH2.DECRYPTED p.num))
          else (none, s.inc Pg.CIPH (CIPH2.REPLAY p.num))

/-- KEY of an upstream frame under the index in force, 0 when none is (R468). -/
def State.usKey (s : State) (p : Port) : Nat :=
  if s.bit Pg.CIPH (fldUsOn p) then 2 + s.get Pg.CIPH (fldUsIdx p) else 0

/-- How many bytes the payload of an upstream frame has after encryption (R465). -/
def State.usLength (s : State) (p : Port) (n : Nat) : Nat := if 2 ≤ s.usKey p then n + 24 else n

/-- An upstream payload encrypted (R465, R468): KEY and the bytes; none when the packet numbers of the key are used up. -/
def State.lineEncrypt (s : State) (p : Port) (dest port : Nat) (payload : List Byte) : Option (Nat × List Byte) × State :=
  let key := s.usKey p
  if key < 2 then (some (0, payload), s)
  else
    let idx := key % 2
    let k := s.lineKey p idx
    match k.up with
    | none => (some (0, payload), s)
    | some u =>
      if 2 ^ 64 - 1 ≤ u.next then (none, s.inc Pg.CIPH (CIPH2.PN_EXHAUSTED p.num))
      else
        let sealed_ := Crypto.gcmSeal u.key (lineIv u.next) (lineAad dest port key) payload 16
        (some (key, beBytes 8 u.next ++ sealed_.1 ++ sealed_.2),
          (s.setLineKey p idx { k with up := some { u with next := u.next + 1 } }).inc Pg.CIPH (CIPH2.ENCRYPTED p.num))

/-! ### MACsec (R470 to R473) -/

/-- An SA entry that nothing has written. -/
def saReset : Nat → Sa := fun _ => ⟨0, 0, 0, 0, 0, 0, 0⟩

/-- The SA entry of a port, SC and AN, and the same replaced. -/
def State.sa (s : State) (n sc an : Nat) : Sa := SMap.get saReset s.ciph.sas (n * 64 + sc * 4 + an)
def State.setSa (s : State) (n sc an : Nat) (x : Sa) : State :=
  { s with ciph := { s.ciph with sas := SMap.set saReset s.ciph.sas (n * 64 + sc * 4 + an) x } }

/-- EN, XPN and ES_SCI of an SA. -/
def Sa.en (x : Sa) : Bool := decide (x.ctrl / 2 ^ 31 % 2 = 1)
def Sa.xpn (x : Sa) : Bool := decide (x.ctrl / 2 ^ 30 % 2 = 1)
def Sa.esSci (x : Sa) : Bool := decide (x.ctrl / 2 ^ 29 % 2 = 1)

/-- The IV of a packet number under an SA (IEEE 802.1AE, log entry 6).  The SCI is sent most significant byte first. -/
def Sa.iv (x : Sa) (pn : Nat) : List Byte :=
  if x.xpn then Crypto.xorBytes (leBytes 12 x.salt) (beBytes 4 x.ssci ++ beBytes 8 pn)
  else beBytes 8 x.sci ++ beBytes 4 pn

/-- Whether MACsec works on a site port (R413, R470). -/
def State.msecOn (s : State) (n : Nat) : Bool := s.feat 8 && s.bit Pg.CIPH (CIPH1.MSEC_PORT_EN n)

/-- The SA that protects what a site port sends. -/
def State.msecTxSa (s : State) (n : Nat) : Sa := s.sa n 0 (s.get Pg.CIPH (CIPH1.MSEC_PORT_TX_AN n))

/-- The greatest next packet number of an SA, and the threshold of R472. -/
def Sa.pnMax (x : Sa) : Nat := if x.xpn then 2 ^ 64 - 1 else 2 ^ 32 - 1
def Sa.pnThresh (x : Sa) : Nat := if x.xpn then 0xC000000000000000 else 0xC0000000

/-- A frame protected for a site port (R470, R472); none when the packet numbers of the SA are used up. -/
def State.msecProtect (s : State) (n : Nat) (bs : List Byte) : Option (List Byte) × State :=
  let an := s.get Pg.CIPH (CIPH1.MSEC_PORT_TX_AN n)
  let x := s.sa n 0 an
  if x.pnMax ≤ x.pn then (none, s.inc Pg.CIPH (CIPH2.MSEC_PN_EXHAUSTED n))
  else
    let data := bs.drop 12
    let tci := (if x.esSci then 0x40 else 0x20) + 0x0C + an
    let tag := [0x88, 0xE5, BitVec.ofNat 8 tci, BitVec.ofNat 8 (if data.length < 48 then data.length else 0)] ++ beBytes 4 x.pn
      ++ (if x.esSci then [] else beBytes 8 x.sci)
    let head := bs.take 12 ++ tag
    let c := Crypto.gcmSeal (leBytes 32 x.key) (x.iv x.pn) head data 16
    let t := (s.setSa n 0 an { x with pn := x.pn + 1 }).inc Pg.CIPH (CIPH2.MSEC_OUT n)
    (some (head ++ c.1 ++ c.2), if x.pn + 1 = x.pnThresh then t.evt Pg.CIPH 11 else t)

/-- What a SecTAG says: TCI and AN, the number of bytes it is long, PN as sent, and SCI when it carries one. -/
def secTag (bs : List Byte) : Option (Nat × Nat × Nat × Option Nat) :=
  if be bs 12 2 = 0x88E5 then
    let tci := be bs 14 1
    let sc := decide (tci / 2 ^ 5 % 2 = 1)
    some (tci, if sc then 16 else 8, be bs 16 4, if sc then some (be bs 20 8) else none)
  else none

/-- The receive SC of a site port for an SCI; without one, the first whose SA of that AN is enabled. -/
def State.msecSc (s : State) (n an : Nat) (sci : Option Nat) : Option Nat :=
  ((List.range 8).map (· + 1)).find? (fun sc =>
    let x := s.sa n sc an
    x.en && match sci with
      | some v => decide (x.sci = v)
      | none => true)

/-- The packet number of a received frame: under XPN its upper half is that of the lowest acceptable PN, or one more
(IEEE 802.1AE, log entry 6). -/
def Sa.recoverPn (x : Sa) (pn : Nat) : Nat :=
  if x.xpn then
    let lo := x.pn % 2 ^ 32
    let hi := x.pn / 2 ^ 32
    (if 2 ^ 31 ≤ lo ∧ pn < 2 ^ 31 then hi + 1 else hi) * 2 ^ 32 + pn
  else pn

/-- A frame received on a site port (R471), FCS removed: what goes on, or none when it is dropped. -/
def State.msecReceive (s : State) (n : Nat) (bs : List Byte) : Option (List Byte) × State :=
  let v := s.get Pg.CIPH (CIPH1.MSEC_PORT_VALIDATE n)
  let strict := decide (2 ≤ v)
  match secTag bs with
  | none => (if strict then none else some bs, s)
  | some (tci, len, pn32, sci) =>
    let body := bs.drop (12 + len)
    let sl := be bs 15 1 % 64
    let data := if sl = 0 then body.take (body.length - 16) else body.take sl
    let icv := (body.drop data.length).take 16
    let clear := bs.take 12 ++ data
    if v = 0 then (some clear, s)
    else
      let an := tci % 4
      let implied := if tci / 2 ^ 6 % 2 = 1 then some (beNat ((bs.drop 6).take 6) * 2 ^ 16 + 1) else none
      let enc := decide (tci / 2 ^ 3 % 2 = 1)
      let bad : Option (List Byte) × State := (if strict then none else some clear, s.inc Pg.CIPH (CIPH2.MSEC_IN_BAD n))
      match s.msecSc n an (sci.or implied) with
      | none => bad
      | some sc =>
        let x := s.sa n sc an
        let pn := x.recoverPn pn32
        let head := bs.take (12 + len)
        let opened :=
          if decide (2 ^ 7 ≤ tci) || decide (icv.length ≠ 16) || decide (pn = 0) then none
          else if enc then Crypto.gcmOpen (leBytes 32 x.key) (x.iv pn) head data icv
          else (Crypto.gcmOpen (leBytes 32 x.key) (x.iv pn) (head ++ data) [] icv).map (fun _ => data)
        match opened with
        | none => bad
        | some pt =>
          if pn < x.pn then (if strict then none else some (bs.take 12 ++ pt), s.inc Pg.CIPH (CIPH2.MSEC_IN_BAD n))
          else
            (some (bs.take 12 ++ pt),
              (s.setSa n sc an { x with pn := max x.pn (pn + 1 - x.window) }).inc Pg.CIPH (CIPH2.MSEC_IN_OK n))

/-- An SA entry as 20 words (R473); KEY reads 0. -/
def Sa.words (x : Sa) : List Word :=
  leWords 20 (leBytes 4 x.ctrl ++ leBytes 4 x.window ++ leBytes 8 x.sci ++ leBytes 8 x.pn ++ leBytes 4 x.ssci
    ++ leBytes 12 x.salt ++ List.replicate 40 0)

/-- The SA entry that 20 staged words give. -/
def saOfWords (ws : List Word) : Sa :=
  let bs := bytesOfWords ws
  let f := fun off n => leNat ((bs.drop off).take n)
  ⟨f 0 4 / 2 ^ 29 * 2 ^ 29, f 4 4, f 8 8, f 0x10 8, f 0x18 4, f 0x1C 12, f 0x30 32⟩

/-- A write of `MSEC_CMD` (R473): OP 1 reads the entry, OP 2 writes it, and no other does anything. -/
def State.msecCmd (s : State) (src : Source) (val : Word) : State :=
  let op := val.toNat % 4
  let a := Pg.CIPH + CIPH1.MSEC_CMD.off
  match s.accessReg src a true with
  | .rejected p r => s.refuse src p r true a
  | .ok _ =>
    if op ≠ 1 ∧ op ≠ 2 then s else
    let s := s.storeReg a val
    let n := s.get Pg.CIPH CIPH1.MSEC_SEL_PORT
    let sc := s.get Pg.CIPH CIPH1.MSEC_SEL_SC
    let an := s.get Pg.CIPH CIPH1.MSEC_SEL_AN
    let d := Pg.CIPH + (CIPH1.MSEC_DATA 0).off
    if 8 < sc then s.set Pg.CIPH CIPH1.MSEC_CMD_RESULT 2
    else
      let x := s.sa n sc an
      if op = 1 then (s.wrWords d x.words).set Pg.CIPH CIPH1.MSEC_CMD_RESULT 0
      else
        let y := saOfWords (s.rdWords d 20)
        if y.en && s.bit Pg.SEC SEC0.PROTECT_DEBUG_ACTIVE then s.refuse src (Pg.CIPH + 0x1000) .locked true a
        else if x.en && decide (x.key ≠ y.key) then s.set Pg.CIPH CIPH1.MSEC_CMD_RESULT 1
        else (s.setSa n sc an y).set Pg.CIPH CIPH1.MSEC_CMD_RESULT 0

/-- MSEC_READ (R470, R473). -/
def execMsecRead (src : Source) (val : Word) (s : State) : Host.Outcome State Fault Refusal :=
  .next (s.msecCmd src val)

/-- MSEC_WRITE (R473). -/
def execMsecWrite (src : Source) (val : Word) (s : State) : Host.Outcome State Fault Refusal :=
  .next (s.msecCmd src val)

/-! ### Look-aside jobs (R474 to R479) -/

/-! Statuses of a job (R476). -/
namespace La
def ok : Nat := 0
def tagFail : Nat := 1
def badDesc : Nat := 2
def badSlot : Nat := 3
def badLabel : Nat := 4
def keyRefused : Nat := 5
def dmaErr : Nat := 6
def bufErr : Nat := 7
def aborted : Nat := 8
def poisoned : Nat := 9
end La

/-- The holder of the look-aside lock. -/
def State.laHolder (s : State) : Option Nat :=
  if s.bit Pg.CIPH CIPH0.LA_LOCK_HELD then some (s.get Pg.CIPH CIPH0.LA_LOCK_HOLDER) else none

/-- Whether a source may use `LA_STAT`, the staging words, SUBMIT and the result words (R474). -/
def State.laMay (s : State) (src : Source) : Bool := src.isHook || (src.func.isSome && decide (s.laHolder = src.func))

/-- A look-aside register accessed: the checks every access meets, then the lock (R474). -/
def State.laAccess (s : State) (src : Source) (a : Nat) (write : Bool) : Access :=
  match s.accessReg src a write with
  | .rejected p r => .rejected p r
  | .ok b => if s.laMay src then .ok b else .rejected Pg.CIPH .locked

/-- `LA_STAT` as a source sees it. -/
def State.laStat (s : State) (src : Source) : Nat :=
  if src.isHook then s.ciph.resFw.length * 2 ^ 8 + s.ciph.laFw.length
  else s.ciph.resHost.length * 2 ^ 8 + s.ciph.laHost.length

/-- `LA_STAT` of host software kept as it stands. -/
def State.laUpdate (s : State) : State :=
  (s.set Pg.CIPH CIPH0.LA_STAT_QUEUED s.ciph.laHost.length).set Pg.CIPH CIPH0.LA_STAT_RESULTS s.ciph.resHost.length

/-- The lock free. -/
def State.laUnlock (s : State) : State := (s.set Pg.CIPH CIPH0.LA_LOCK_HELD 0).set Pg.CIPH CIPH0.LA_LOCK_HOLDER 0

/-- The lock taken from its holder (R474): its queued jobs end ABORTED and their results are discarded. -/
def State.laFreed (s : State) : State :=
  let n := s.ciph.laHost.length
  let s := ((s.addCnt Pg.CIPH CIPH2.LA_JOBS n).addCnt Pg.CIPH CIPH2.LA_FAILED n)
  let s : State := { s with ciph := { s.ciph with laHost := [], resHost := [] } }
  s.laUnlock.laUpdate.evt Pg.CIPH 12

/-- The lock freed when a function holds it (R474). -/
def State.laFreeOf (s : State) (f : Nat) : State := if s.laHolder = some f then s.laFreed else s

/-- Firmware's queue freed by a PCIe reset (R474): its jobs end ABORTED and their results are discarded.  DESIGN CHOICE: the rule
says that the reset frees the lock for firmware's queue too; the model lets LA_LOCK_FREED be set when jobs or results were there
(log entry 66). -/
def State.laFwFreed (s : State) : State :=
  if s.ciph.laFw = [] ∧ s.ciph.resFw = [] then s
  else
    let n := s.ciph.laFw.length
    let s := ((s.addCnt Pg.CIPH CIPH2.LA_JOBS n).addCnt Pg.CIPH CIPH2.LA_FAILED n).evt Pg.CIPH 12
    { s with ciph := { s.ciph with laFw := [], resFw := [] } }

/-- RELEASE (R474). -/
def State.laRelease (s : State) (src : Source) (a : Nat) : State :=
  if s.laHolder.isSome && decide (s.laHolder = src.func) then
    if s.ciph.laHost = [] ∧ s.ciph.resHost = [] then s.laUnlock else s.refuse src Pg.CIPH .badCommand true a
  else s

/-- A write of `LA_LOCK` (R474): RELEASE acts after ACQUIRE. -/
def State.laLockWrite (s : State) (src : Source) (val : Word) : State :=
  let a := Pg.CIPH + CIPH0.LA_LOCK.off
  match s.accessReg src a true with
  | .rejected p r => s.refuse src p r true a
  | .ok _ =>
    let s :=
      if val.toNat % 2 = 1 then
        match s.laHolder, src.func with
        | none, some f => (s.set Pg.CIPH CIPH0.LA_LOCK_HELD 1).set Pg.CIPH CIPH0.LA_LOCK_HOLDER f
        | _, _ => s
      else s
    if val.toNat / 2 % 2 = 1 then s.laRelease src a else s

/-- LA_LOCK_ACQUIRE (R474). -/
def execLaLockAcquire (src : Source) (val : Word) (s : State) : Host.Outcome State Fault Refusal := .next (s.laLockWrite src val)

/-- LA_LOCK_RELEASE (R474). -/
def execLaLockRelease (src : Source) (val : Word) (s : State) : Host.Outcome State Fault Refusal := .next (s.laLockWrite src val)

/-- The staged job of a source (R475). -/
def State.laStaged (s : State) (src : Source) : List Byte :=
  bytesOfWords ((List.range 24).map (fun k => s.srcReg (Pg.CIPH + (CIPH0.LA_JOB k).off) src))

/-- LA_SUBMIT (R413, R474, R475); GO at 0 does nothing. -/
def execLaSubmit (src : Source) (val : Word) (s : State) : Host.Outcome State Fault Refusal :=
  let a := Pg.CIPH + CIPH0.LA_SUBMIT.off
  .next (match s.laAccess src a true with
    | .rejected p r => s.refuse src p r true a
    | .ok _ =>
      if val.toNat % 2 = 0 then s
      else
        let job : LaJob := ⟨src, s.laStaged src⟩
        if src.isHook then
          if 16 ≤ s.ciph.laFw.length then s.refuse src Pg.CIPH .locked true a
          else { s with ciph := { s.ciph with laFw := s.ciph.laFw ++ [job] } }
        else if !s.feat 9 || decide (16 ≤ s.ciph.laHost.length) then s.refuse src Pg.CIPH .locked true a
        else ({ s with ciph := { s.ciph with laHost := s.ciph.laHost ++ [job] } } : State).laUpdate)

/-- Fields of a job descriptor (R475). -/
def LaJob.f (j : LaJob) (off n : Nat) : Nat := leNat ((j.desc.drop off).take n)
def LaJob.op (j : LaJob) : Nat := j.f 0 1
def LaJob.slot (j : LaJob) : Nat := j.f 1 1
def LaJob.srcHandle (j : LaJob) : Bool := decide (j.f 2 1 % 2 = 1)
def LaJob.dstHandle (j : LaJob) : Bool := decide (j.f 2 1 / 2 % 2 = 1)
def LaJob.tagLen (j : LaJob) : Nat := j.f 3 1
def LaJob.aadLen (j : LaJob) : Nat := j.f 8 4
def LaJob.dataLen (j : LaJob) : Nat := j.f 0xC 4
def LaJob.len (j : LaJob) : Nat := j.aadLen + j.dataLen
def LaJob.iv (j : LaJob) : List Byte := (j.desc.drop 0x20).take 12
def LaJob.tag (j : LaJob) : List Byte := (j.desc.drop 0x30).take j.tagLen
def LaJob.label (j : LaJob) : List Byte := (j.desc.drop 0x40).take 32

/-- What the descriptor alone decides (R476): a field outside its range, a slot, a label. -/
def LaJob.check (j : LaJob) : Nat :=
  if j.op = 0 ∨ 4 < j.op ∨ 3 < j.f 2 1 ∨ j.tagLen < 12 ∨ 16 < j.tagLen ∨ j.len = 0 ∨ 65536 < j.len ∨ j.f 0x2C 4 ≠ 0 then La.badDesc
  else if 8 ≤ j.slot ∧ j.slot < 12 ∨ 15 < j.slot then La.badSlot
  else if j.f 0x40 1 < 0x80 then La.badLabel
  else La.ok

/-- A handle that host software or firmware names, handed over to an owner (R387, R394): whether it went over. -/
def State.takeHandle (s : State) (src : Source) (h to_ : Nat) : Bool × State :=
  if !s.bit Pg.SKEIN (SKEIN.POOL_CTRL_LOC (handlePool h)) then (false, s)
  else
    match s.skeinOwner src with
    | none => (false, s)
    | some o =>
      match s.handOver o h to_ with
      | (r, t) => (decide (r = Skr.ok), t)

/-- Byte address of a buffer (R394). -/
def State.handleAddr (s : State) (h : Nat) : Nat := s.poolBase (handlePool h) + handleIndex h * s.poolSize (handlePool h)

/-- A job's result queued (R476, R479). -/
def State.laEnd (s : State) (j : LaJob) (status : Nat) (tag : List Byte) : State :=
  let res : List Word := [BitVec.ofNat 32 (2 ^ 31 + status), BitVec.ofNat 32 (j.f 4 4), 0, 0]
    ++ leWords 4 (tag ++ List.replicate (16 - tag.length) 0)
  let s := s.inc Pg.CIPH CIPH2.LA_JOBS
  let s := if status = La.ok then s else s.inc Pg.CIPH CIPH2.LA_FAILED
  let s : State :=
    if j.src.isHook then { s with ciph := { s.ciph with laFw := s.ciph.laFw.drop 1, resFw := s.ciph.resFw ++ [res] } }
    else { s with ciph := { s.ciph with laHost := s.ciph.laHost.drop 1, resHost := s.ciph.resHost ++ [res] } }
  s.laUpdate.evt Pg.CIPH 9

/-- The cipher's work on a job (R476, R477): status, the bytes for DST and the tag of the result. -/
def LaJob.work (j : LaJob) (key bs : List Byte) : Nat × List Byte × List Byte :=
  let aad := bs.take j.aadLen
  let data := (bs.drop j.aadLen).take j.dataLen
  if j.op = 1 then
    let c := Crypto.gcmSeal key j.iv aad data j.tagLen
    (La.ok, c.1, c.2)
  else if j.op = 2 then
    match Crypto.gcmOpen key j.iv aad data j.tag with
    | some pt => (La.ok, pt, [])
    | none => (La.tagFail, [], [])
  else
    let t := (Crypto.gcmTag key j.iv (bs.take j.len) []).take j.tagLen
    if j.op = 3 then (La.ok, [], t) else (if t = j.tag then La.ok else La.tagFail, [], [])

/-- The buffers a job took for itself given back: the source buffer freed, the destination buffer handed back. -/
def State.laGiveBack (s : State) (j : LaJob) (srcTaken dstTaken : Bool) : State :=
  let s := if srcTaken then (s.freeBuf 8 (j.f 0x10 5)).2 else s
  if dstTaken then
    match s.skeinOwner j.src with
    | some o => (s.handOver 8 (j.f 0x18 5) o).2
    | none => s
  else s

/-- A job carried out (R476, R477), its source as its read returned it. -/
def State.laRun (s : State) (j : LaJob) (source : Option (List Byte)) : State :=
  if j.check ≠ La.ok then s.laEnd j j.check []
  else
    let wantDst := decide (j.op ≤ 2)
    let a : Bool × State := if j.srcHandle then s.takeHandle j.src (j.f 0x10 5) 8 else (true, s)
    let b : Bool × State := if a.1 && wantDst && j.dstHandle then a.2.takeHandle j.src (j.f 0x18 5) 8 else (true, a.2)
    let srcTaken := j.srcHandle && a.1
    let dstTaken := a.1 && wantDst && j.dstHandle && b.1
    let s := b.2
    if !a.1 || !b.1 then (s.laGiveBack j srcTaken dstTaken).laEnd j La.bufErr []
    else
      let room := fun (h : Nat) (n : Nat) => decide (n ≤ s.poolSize (handlePool h))
      if (j.srcHandle && !room (j.f 0x10 5) j.len) || (dstTaken && !room (j.f 0x18 5) j.dataLen) then
        (s.laGiveBack j srcTaken dstTaken).laEnd j La.badDesc []
      else
        let rd : Option (List Byte) × Bool × State :=
          if j.srcHandle then
            match s.memRead (s.handleAddr (j.f 0x10 5)) j.len 1 with
            | (bs, poison, t) => (some bs, poison, t)
          else (source.map (fun bs => (bs ++ List.replicate j.len 0).take j.len), false, s)
        let s := rd.2.2
        match rd.1 with
        | none => (s.laGiveBack j srcTaken dstTaken).laEnd j La.dmaErr []
        | some bs =>
          if rd.2.1 then (s.laGiveBack j srcTaken dstTaken).laEnd j La.poisoned []
          else
            match s.deriveKey j.slot j.label with
            | none => ((s.laGiveBack j srcTaken dstTaken).keyRefused).laEnd j La.keyRefused []
            | some key =>
              match j.work key bs with
              | (st, out, tag) =>
                let s :=
                  if st = La.ok ∧ wantDst then
                    if j.dstHandle then s.memWrite (s.handleAddr (j.f 0x18 5)) out 1 else s.sendPcie (.dmaWrite (j.f 0x18 8) out)
                  else s
                (s.laGiveBack j srcTaken dstTaken).laEnd j st tag

/-- LA_DONE (R459, R460, R476, R477): firmware's jobs come before host software's.  A job whose source is read from the
host needs buffers of producer 8 and waits while the pool is empty (R19). -/
def execLaDone (source : Option (List Byte)) (s : State) : Host.Outcome State Fault Refusal :=
  .next (
    match s.ciph.laFw ++ s.ciph.laHost with
    | [] => s
    | j :: _ =>
      if j.srcHandle || decide (j.check ≠ La.ok) then s.laRun j source
      else
        match s.allocFrame 8 j.len with
        | (none, t) => t
        | (some hs, t) => (t.laRun j source).freeAll 8 hs)

/-- LA_PREEMPT (R21, R478): the job keeps its counter block and GHASH state, so nothing of its output changes. -/
def execLaPreempt (s : State) : Host.Outcome State Fault Refusal :=
  .next (if s.ciph.laFw ++ s.ciph.laHost = [] then s else s.inc Pg.CIPH CIPH2.LA_PREEMPT)

/-- LA_RESULT_READ (R479): the oldest result popped into the reader's latch; without one, word 0 reads VALID 0. -/
def execLaResultRead (src : Source) (s : State) : Host.Outcome State Fault Refusal :=
  let a := Pg.CIPH + (CIPH0.LA_RESULT 0).off
  .next (match s.laAccess src a false with
    | .rejected p r => s.refuse src p r false a
    | .ok _ =>
      match (if src.isHook then s.ciph.resFw else s.ciph.resHost) with
      | [] => { s with rdata := 0 }
      | r :: rest =>
        let s : State :=
          if src.isHook then { s with ciph := { s.ciph with resFw := rest } } else { s with ciph := { s.ciph with resHost := rest } }
        { (s.latchRec a src r).laUpdate with rdata := r.headD 0 })

/-! ### Masks and the mailbox (R461, R463) -/

/-- Timer of the mask generators' next reseed (R461). -/
def Tm.maskReseed : Nat := 58

/-- MASK_RESEED (R461, R88): while the DRBG is in error the generators run on from their last seed.  The next reseed is due
RESEED_US later, 0 acting as 1. -/
def execMaskReseed (s : State) : Host.Outcome State Fault Refusal :=
  .next (
    let s := s.startTimer Tm.maskReseed (1000 * max 1 (s.get Pg.CIPH CIPH0.MASK_CFG))
    if s.bit Pg.SEC SEC0.RNG_STAT_DRBG_ERROR then s.set Pg.SEC SEC0.RNG_STAT_MASK_STALE 1
    else
      (({ s with ciph := { s.ciph with maskSeed := s.drbg 32 } } : State).drbgTaken 32).set Pg.SEC SEC0.RNG_STAT_MASK_STALE 0)

/-- ROOTKEY_LOAD (R463): both mailbox channels belong to sources other than firmware. -/
def mbxRootkeyLoad (args : List Word) (s : State) : Nat × List Word × State :=
  let w := argWord args 1
  let slot := w % 16
  if slot < 8 then (Sts.badArg, [], s)
  else if slot < 12 then (Sts.notPermitted, [], s)
  else if w / 2 ^ 8 % 2 = 1 then (Sts.ok, [], s.setRootSlot slot none)
  else (Sts.ok, [], s.setRootSlot slot (some (bytesOfWords ((List.range 8).map (fun k => args.getD (k + 1) 0)))))

end Sys2Proof.Machine
end

