-- ==== Sys2Proof/Machine/Classifier.lean ====
section
/-!
DEFINITION. Machine/Classifier.lean: keys, lookups, the flow table, rules, RSS, the exception path and the hush
(chapter 11).
-/

namespace Sys2Proof.Machine

/-! ### Keys (R327, R328, R333) -/

/-- A byte list brought to a length with zeros. -/
def padTo (n : Nat) (bs : List Byte) : List Byte := (bs ++ List.replicate n 0).take n

/-- The layer a key is built from, and whether it is the inner one (R328). -/
def keyLayer (r : Parsed) (inner : Bool) : Layer × Bool :=
  if inner && decide (1 ≤ r.tunnels) then (r.inner, true) else (r.outer, false)

/-- KTYPE (R327). -/
def ktype (l : Layer) (tun : Bool) : Nat := l.l3 * 2 ^ 6 + (if l.frag then 2 ^ 5 else 0) + (if tun then 2 ^ 4 else 0)

/-- The exact key of a frame: entry bytes 0x01 to 0x2F (R327). -/
def exactKey (k : Pkt) (r : Parsed) (inner : Bool) : List Byte :=
  let p := keyLayer r inner
  let l := p.1
  leBytes 1 (ktype l p.2) ++ leBytes 1 k.ingress ++ leBytes 1 (if l.l3 = 0 then 0 else l.proto)
    ++ leBytes 2 (l.vlan1.getD 0 % 2 ^ 12) ++ leBytes 2 k.svc ++ leBytes 1 k.func ++ leBytes 3 r.tunId
    ++ padTo 16 l.src ++ padTo 16 l.dst ++ leBytes 2 l.sport ++ leBytes 2 l.dport

/-- PFLAGS of the wildcard key (R333). -/
def pflags (k : Pkt) (l : Layer) : Nat :=
  let b := fun (x : Bool) (n : Nat) => if x then 2 ^ n else 0
  b k.ce 0 + b l.opts 1 + b (l.ptp.any (fun t => decide (t < 4))) 2 + b (l.ptp.any (fun t => decide (4 ≤ t))) 3
    + b l.mpls.isSome 4 + b (decide ((l.dmac.headD 0).toNat % 2 = 1)) 5

/-- The wildcard key of a frame, 80 bytes as one number, lowest byte first (R333). -/
def wildKey (k : Pkt) (r : Parsed) (inner : Bool) : Nat :=
  let p := keyLayer r inner
  let l := p.1
  leNat (leBytes 1 (ktype l p.2) ++ leBytes 1 k.ingress ++ leBytes 1 k.func ++ leBytes 1 (if l.l3 = 0 then 0 else l.proto)
    ++ leBytes 2 (l.vlan1.getD 0) ++ leBytes 2 (l.vlan2.getD 0) ++ padTo 6 l.dmac ++ padTo 6 l.smac ++ leBytes 2 l.etype
    ++ leBytes 2 k.svc ++ leBytes 4 (r.tunId + r.tunType * 2 ^ 24) ++ leBytes 1 l.tos ++ leBytes 1 l.tcpFlags
    ++ leBytes 1 (pflags k l) ++ leBytes 1 0 ++ padTo 16 l.src ++ padTo 16 l.dst ++ leBytes 2 l.sport ++ leBytes 2 l.dport
    ++ leBytes 4 l.flow ++ leBytes 4 (l.mpls.getD 0 / 2 ^ 12 + l.mpls.getD 0 / 2 ^ 9 % 8 * 2 ^ 20) ++ leBytes 4 0)

/-! ### The flow table (R329 to R332) -/

/-- Byte address of the flow table. -/
def State.ftBase (s : State) : Nat := s.get Pg.CLS CLS0.FT_BASE_LO * 2 ^ 25 + s.get Pg.CLS CLS0.FT_BASE_HI * 2 ^ 32

/-- Byte address of a location, way * 131,072 + index. -/
def State.ftAddr (s : State) (loc : Nat) : Nat := s.ftBase + loc * 64

/-- `FT_SEED[w]`. -/
def State.ftSeed (s : State) (w : Nat) : Nat := (s.rd (Pg.CLS + CLS0.FT_SEED0.off + 4 * w)).toNat

/-- The candidate locations of a key, way 0 first (R329). -/
def State.ftCands (s : State) (key : List Byte) : List Nat :=
  (List.range 4).map (fun w => w * 131072 + (Crypto.crcR 0x82F63B78 (s.ftSeed w) key ^^^ 0xFFFFFFFF) % 2 ^ 17)

/-- The bytes of an entry as commands and lookups see it: the cached copy where there is one. -/
def State.ftEntry (s : State) (loc : Nat) : List Byte :=
  match s.cls.cache.find? (fun c => decide (c.1 = loc)) with
  | some c => c.2
  | none => s.memBytes (s.ftAddr loc) 64

/-- Whether an entry counts as VALID: a poisoned one does not (R399). -/
def State.ftValid (s : State) (loc : Nat) : Bool :=
  decide ((s.ftEntry loc).headD 0 ≥ 0x80) &&
    (s.cls.cache.any (fun c => decide (c.1 = loc)) || !((wordsTouched (s.ftAddr loc) 64).any s.poisoned))

/-- The exact key and the action of an entry. -/
def entryKey (e : List Byte) : List Byte := (e.drop 1).take 47
def entryAction (e : List Byte) : Nat := leNat ((e.drop 0x30).take 16)

/-- The location that holds a key, if one does. -/
def State.ftFind (s : State) (key : List Byte) : Option Nat :=
  (s.ftCands key).find? (fun loc => s.ftValid loc && decide (entryKey (s.ftEntry loc) = key))

/-- A cached copy written back to LPDDR5X (R330). -/
def State.ftWriteBack (s : State) (loc : Nat) : State :=
  match s.cls.cache.find? (fun c => decide (c.1 = loc)) with
  | some c => s.memWrite (s.ftAddr loc) c.2 2
  | none => s

/-- A copy placed first in the cache of 16,384; the least recently used one leaves and is written back (R330). -/
def State.ftCache (s : State) (loc : Nat) (e : List Byte) : State :=
  let rest := s.cls.cache.filter (fun c => !decide (c.1 = loc))
  let s := if 16384 ≤ rest.length then
      match rest.getLast? with
      | some c => s.ftWriteBack c.1
      | none => s
    else s
  { s with cls := { s.cls with cache := (loc, e) :: rest.take 16383 } }

/-- An entry written by a command: LPDDR5X and the cache in one commit (R330). -/
def State.ftPut (s : State) (loc : Nat) (e : List Byte) : State :=
  let s := s.memWrite (s.ftAddr loc) e 2
  { s with cls := { s.cls with cache := s.cls.cache.map (fun c => if c.1 = loc then (loc, e) else c) } }

/-- The entry staged in `FT_ENTRY`. -/
def State.ftStaged (s : State) : List Byte :=
  ((s.rdWords (Pg.CLS + (CLS0.FT_ENTRY 0).off) 16).map (fun w => leBytes 4 w.toNat)).flatten

/-- Whether a staged entry is good: VALID 1, no reserved bit set, no reserved KTYPE value (R331). -/
def entryGood (e : List Byte) : Bool :=
  let b := fun n => (e.getD n 0).toNat
  let act := entryAction e
  decide (128 ≤ b 0) && decide (b 0 % 64 = 0) && decide (b 1 / 64 ≠ 3) && decide (b 1 % 16 = 0) && decide (b 5 / 16 = 0)
    && decide (bitsOf act 4 4 = 0) && decide (bitsOf act 25 7 = 0) && decide (bitsOf act 42 22 = 0)
    && decide (bitsOf act 87 9 = 0) && decide (bitsOf act 112 16 = 0)

/-- Displacement paths, breadth first (R332): each path is a list of locations, last first; a path is done when its
last location is free. -/
def State.ftSearch (s : State) : Nat → List (List Nat) → Option (List Nat)
  | 0, _ => none
  | k + 1, paths =>
    let grown := (paths.map (fun p =>
      match p with
      | [] => []
      | loc :: _ => ((s.ftCands (entryKey (s.ftEntry loc))).filter (fun c => !p.contains c)).map (fun c => c :: p))).flatten
    match grown.find? (fun p => match p with
      | loc :: _ => !s.ftValid loc
      | [] => false) with
    | some p => some p
    | none => s.ftSearch k grown

/-- The moves of a path, from the free end (R332). -/
def State.ftMoves (s : State) : List Nat → State
  | free :: loc :: rest => (s.ftPut free (s.ftEntry loc)).ftMoves (loc :: rest)
  | _ => s

/-- An insertion (R332): result, location, moves and the state after. -/
def State.ftInsert (s : State) (e : List Byte) (depth : Nat) : Nat × Nat × Nat × State :=
  let key := entryKey e
  if !entryGood e then (4, 0, 0, s)
  else
    match s.ftFind key with
    | some loc => (1, loc, 0, s)
    | none =>
      let add := fun (t : State) (loc moves : Nat) =>
        (0, loc, moves, (t.ftPut loc e).set Pg.CLS CLS0.FT_COUNT (t.get Pg.CLS CLS0.FT_COUNT + 1))
      match (s.ftCands key).find? (fun loc => !s.ftValid loc) with
      | some loc => add s loc 0
      | none =>
        match s.ftSearch depth ((s.ftCands key).map (fun c => [c])) with
        | none => (3, 0, 0, s)
        | some p =>
          match p.getLast? with
          | some loc => add (s.ftMoves p) loc (p.length - 1)
          | none => (3, 0, 0, s)

/-- Bit HIT of an entry's CTRL. -/
def hitSet (e : List Byte) (b : Bool) : List Byte :=
  match e with
  | [] => []
  | c :: cs => (if b then c ||| 0x40 else c &&& 0xBF) :: cs

/-- An entry copied into `FT_ENTRY`, HIT cleared in the table when asked (R331). -/
def State.ftCopyOut (s : State) (loc : Nat) (clear : Bool) : State :=
  let e := s.ftEntry loc
  let s := s.wrWords (Pg.CLS + (CLS0.FT_ENTRY 0).off) (leWords 16 e)
  if clear then s.ftPut loc (hitSet e false) else s

/-- The work of a flow-table command (R331): result, location, moves and the state after. -/
def State.ftRun (s : State) (op : Nat) (val : Word) : Nat × Nat × Nat × State :=
  let e := s.ftStaged
  let key := entryKey e
  let clear := decide (CLS0.FT_CMD_HIT_CLEAR.get val = 1)
  match op with
  | 1 => s.ftInsert e (max 1 (min 4 (CLS0.FT_CMD_DEPTH.get val)))
  | 2 =>
    match s.ftFind key with
    | some loc =>
      let old := s.ftEntry loc
      (0, loc, 0, (s.ftPut loc ((old.headD 0 &&& 0x7F) :: old.drop 1)).set Pg.CLS CLS0.FT_COUNT (s.get Pg.CLS CLS0.FT_COUNT - 1))
    | none => (2, 0, 0, s)
  | 3 =>
    if !entryGood e then (4, 0, 0, s)
    else
      match s.ftFind key with
      | some loc => (0, loc, 0, s.ftPut loc ((s.ftEntry loc).take 0x30 ++ e.drop 0x30))
      | none => (2, 0, 0, s)
  | 4 =>
    match s.ftFind key with
    | some loc => (0, loc, 0, s.ftCopyOut loc clear)
    | none => (2, 0, 0, s)
  | _ => let loc := CLS0.FT_CMD_LOCATION.get val; (0, loc, 0, s.ftCopyOut loc clear)

/-- A write of `FT_CMD` (R331): OP 1 to 5 starts a command, and no other does. -/
def State.ftCmd (s : State) (src : Source) (val : Word) : State :=
  let a := Pg.CLS + CLS0.FT_CMD.off
  let op := CLS0.FT_CMD_OP.get val
  match s.accessReg src a true with
  | .rejected p r => s.refuse src p r true a
  | .ok _ =>
    if s.bit Pg.CLS CLS0.FT_STAT_BUSY then s.refuse src Pg.CLS .locked true a
    else if op = 0 ∨ 5 < op then s.storeReg a val
    else
      let s := (s.storeReg a val).set Pg.CLS CLS0.FT_STAT_BUSY 1
      match s.ftRun op val with
      | (res, loc, moves, t) => { t with cls := { t.cls with cmd := some (res, loc, moves) } }

/-- FT_INSERT (R331, R332). -/
def execFtInsert (src : Source) (val : Word) (s : State) : Host.Outcome State Fault Refusal :=
  .next (s.ftCmd src val)

/-- FT_DELETE (R331). -/
def execFtDelete (src : Source) (val : Word) (s : State) : Host.Outcome State Fault Refusal :=
  .next (s.ftCmd src val)

/-- FT_MODIFY (R331). -/
def execFtModify (src : Source) (val : Word) (s : State) : Host.Outcome State Fault Refusal :=
  .next (s.ftCmd src val)

/-- FT_QUERY (R331). -/
def execFtQuery (src : Source) (val : Word) (s : State) : Host.Outcome State Fault Refusal :=
  .next (s.ftCmd src val)

/-- FT_READ (R331). -/
def execFtRead (src : Source) (val : Word) (s : State) : Host.Outcome State Fault Refusal :=
  .next (s.ftCmd src val)

/-- FT_DONE (R331). -/
def execFtDone (s : State) : Host.Outcome State Fault Refusal :=
  .next (match s.cls.cmd with
    | none => s
    | some (res, loc, moves) =>
      let insert := decide (s.get Pg.CLS CLS0.FT_STAT_BUSY = 1)
      let s := { s with cls := { s.cls with cmd := none } }
      let s := s.wr (Pg.CLS + CLS0.FT_STAT.off) (BitVec.ofNat 32 (loc * 2 ^ 12 + moves * 2 ^ 8 + res * 2 ^ 4))
      let s := s.evt Pg.CLS 10
      if res = 3 ∧ insert = true then (s.inc Pg.CLS CLS1.FT_FULL).evt Pg.CLS 12 else s)

/-- FT_HIT_WRITEBACK (R330). -/
def execFtHitWriteback (location : Fin 524288) (s : State) : Host.Outcome State Fault Refusal :=
  .next (s.ftWriteBack location.val)

/-! ### Rules (R333, R334) -/

/-- A rule, where it is valid; one with an uncorrectable word is not (R401). -/
def State.rule (s : State) (n : Nat) : Option Rule :=
  if s.isBad Arr.rule n then none else SMap.get (fun _ => none) s.cls.rules n

/-- Whether a rule matches a wildcard key (R334). -/
def Rule.hits (r : Rule) (key : Nat) : Bool := decide ((key ^^^ r.key) &&& r.mask = 0)

/-- The lowest-numbered valid rule of a range that matches. -/
def State.ruleFind (s : State) (lo hi key : Nat) : Option Rule :=
  match s.cls.rules.find? (fun kv => decide (lo ≤ kv.1 ∧ kv.1 < hi) && !s.isBad Arr.rule kv.1 && kv.2.any (fun r => r.hits key)) with
  | some (_, some r) => some r
  | _ => none

/-- A write of `RULE_CMD` (R334): OP 1 writes the rule, OP 2 reads it, OP 3 makes it invalid, and no other does anything. -/
def State.ruleCmd (s : State) (src : Source) (val : Word) : State :=
  let a := Pg.CLS + CLS0.RULE_CMD.off
  let op := CLS0.RULE_CMD_OP.get val
  let n := CLS0.RULE_CMD_INDEX.get val
  match s.accessReg src a true with
  | .rejected p r => s.refuse src p r true a
  | .ok _ =>
    if op = 0 ∨ 3 < op then s
    else if n < 64 ∧ src.isHook = false then s.refuse src Pg.CLS .privilege true a
    else
      let stage := Pg.CLS + (CLS0.RULE_STAGE 0).off
      let num := fun (at_ k : Nat) => leNat ((s.rdWords at_ k).map (fun w => leBytes 4 w.toNat)).flatten
      let put := fun (r : Option Rule) (t : State) => { t with cls := { t.cls with rules := SMap.set (fun _ => none) t.cls.rules n r } }
      match op with
      | 1 => put (some ⟨num stage 20, num (stage + 80) 20, num (stage + 160) 4⟩) (s.setBad Arr.rule n false)
      | 3 => put none s
      | _ =>
        match SMap.get (fun _ => none) s.cls.rules n with
        | none => (s.set Pg.CLS CLS0.RULE_STAT 0).wrWords stage (List.replicate 44 0)
        | some r =>
          (s.setBit Pg.CLS CLS0.RULE_STAT (s.rule n).isSome).wrWords stage
            (leWords 20 (leBytes 80 r.key) ++ leWords 20 (leBytes 80 r.mask) ++ leWords 4 (leBytes 16 r.action))

/-- RULE_WRITE (R334). -/
def execRuleWrite (src : Source) (val : Word) (s : State) : Host.Outcome State Fault Refusal :=
  .next (s.ruleCmd src val)

/-- RULE_READ (R334). -/
def execRuleRead (src : Source) (val : Word) (s : State) : Host.Outcome State Fault Refusal :=
  .next (s.ruleCmd src val)

/-- RULE_INVALIDATE (R334). -/
def execRuleInvalidate (src : Source) (val : Word) (s : State) : Host.Outcome State Fault Refusal :=
  .next (s.ruleCmd src val)

/-! ### RSS (R337, R338) -/

/-- An RSS word. -/
def State.rssWord (s : State) (k : Nat) : Word := SMap.get (fun _ => 0) s.cls.rss k

/-- The 40-byte key of a function as bits, first byte first, as one number of 320 bits. -/
def State.rssKey (s : State) (f : Nat) : Nat :=
  (List.range 10).foldl (fun a k => a * 2 ^ 32 + (s.rssWord (f * 1024 + 512 + k)).toNat) 0

/-- The Toeplitz hash of a bit string: for each set bit, the 32 key bits that start there. -/
def toeplitz (key : Nat) (input : List Byte) : Nat :=
  let v := beNat input
  let n := 8 * input.length
  (List.range n).foldl (fun h i =>
    if v / 2 ^ (n - 1 - i) % 2 = 1 then h ^^^ (key / 2 ^ (320 - 32 - i) % 2 ^ 32) else h) 0

/-- The hash input (R337). -/
def rssInput (l : Layer) (addr ports : Bool) : List Byte :=
  (if addr && decide (l.l3 ≠ 0) then l.src ++ l.dst else [])
    ++ (if ports && decide (l.proto = 6 ∨ l.proto = 17 ∨ l.proto = 132) && !l.frag && decide (l.l3 ≠ 0) then
          beBytes 2 l.sport ++ beBytes 2 l.dport else [])

/-- The hash and the queue that an RSS action gives, when the entry is valid. -/
def State.rssQueue (s : State) (l : Layer) (func : Nat) (addr ports : Bool) : Nat × Option Nat :=
  let multi := s.feat 12
  let f := if multi then func else 1
  let inp := rssInput l addr ports
  let h := if inp = [] then 0 else toeplitz (s.rssKey f) inp
  let i := if multi then h % 512 else h % 128
  let e := (s.rssWord (f * 1024 + i)).toNat
  (h, if 2 ^ 31 ≤ e ∧ s.isBad Arr.rss (f * 512 + i) = false ∧ f < 254 then some (e % 2 ^ 17) else none)

/-- RSS_DATA_ACCESS (R337): the word, and INDEX advanced. -/
def execRssDataAccess (src : Source) (write : Option Word) (s : State) : Host.Outcome State Fault Refusal :=
  let a := Pg.CLS + CLS0.RSS_DATA.off
  .next (match s.accessReg src a write.isSome with
    | .rejected p r => s.refuse src p r write.isSome a
    | .ok _ =>
      let f := s.get Pg.CLS CLS0.RSS_SEL_FUNC
      let i := s.get Pg.CLS CLS0.RSS_SEL_INDEX
      let isKey := s.bit Pg.CLS CLS0.RSS_SEL_KEY
      let k := f * 1024 + (if isKey then 512 + i % 10 else i)
      let s := match write with
        | none => { s with rdata := if f < 254 then s.rssWord k else 0 }
        | some v =>
          if f < 254 then
            let v := if isKey then v else v &&& 0x8001FFFF
            let t : State := { s with cls := { s.cls with rss := SMap.set (fun _ => 0) s.cls.rss k v } }
            if isKey then t else t.setBad Arr.rss (f * 512 + i) false
          else s
      s.set Pg.CLS CLS0.RSS_SEL_INDEX (if isKey then (i % 10 + 1) % 10 else (i + 1) % 512))

/-! ### Classification (R325, R335, R336, R339) -/

/-- Frames waiting at an ingress. -/
def State.inq (s : State) (i : Nat) : List Pkt := SMap.get (fun _ => []) s.cls.inq i

/-- The same, replaced. -/
def State.setInq (s : State) (i : Nat) (ks : List Pkt) : State :=
  { s with cls := { s.cls with inq := SMap.set (fun _ => []) s.cls.inq i ks } }

/-- A frame handed to the scheduler's door. -/
def State.classified (s : State) (c : CPkt) : State := { s with cls := { s.cls with outq := s.cls.outq ++ [c] } }

/-- One frame, in exception tokens. -/
def excToken : Nat := 10 ^ 9

/-- An exception frame (R339): counted by its reason, and sent when a token is there. -/
def State.exception (s : State) (k : Pkt) (reason hash : Nat) : State :=
  let s :=
    if reason = 1 then s.inc Pg.CLS CLS1.PARSE_DEEP
    else if reason = 2 then s.inc Pg.CLS CLS1.LEN_CONFLICT
    else if reason = 5 then s.inc Pg.CLS CLS1.RSS_INVALID
    else s.inc Pg.CLS CLS1.EXC_ACTION
  if s.bit Pg.CLS CLS0.EXC_CFG_EN && decide (excToken ≤ s.cls.excTokens) then
    ((({ s with cls := { s.cls with excTokens := s.cls.excTokens - excToken } } : State).inc Pg.CLS CLS1.EXC_SENT).classified
      ⟨k, s.get Pg.CLS CLS0.EXC_CFG_QUEUE, none, 0, none, 0, hash, reason⟩)
  else ((s.inc Pg.CLS CLS1.EXC_DROP).evtMs Pg.CLS 11).dropPkt k Snd.clsDrop

/-- The deadline class a frame is offered in: that of its descriptor, or of its action (R335, R422). -/
def State.dlOf (s : State) (k : Pkt) (act : Nat) : Option Nat :=
  if !s.feat 2 then none
  else
    match k.send.bind (fun d => d.dl) with
    | some c => some c
    | none => if bitsOf act 83 1 = 1 then some (bitsOf act 84 3) else none

/-- An action applied to a frame (R335 to R337). -/
def State.applyAction (s : State) (k : Pkt) (l : Layer) (act excReason : Nat) : State :=
  let go := fun (t : State) (q hash : Nat) =>
    t.classified ⟨k, q, if bitsOf act 80 1 = 1 then some (bitsOf act 64 16) else none, bitsOf act 81 2, t.dlOf k act,
      bitsOf act 96 16, hash, 0⟩
  match bitsOf act 0 4 with
  | 0 => go s (bitsOf act 8 17) 0
  | 1 =>
    match s.rssQueue l (bitsOf act 32 8) (decide (bitsOf act 40 1 = 1)) (decide (bitsOf act 41 1 = 1)) with
    | (h, some q) => go s q h
    | (h, none) => s.exception k 5 h
  | 3 => s.exception k excReason 0
  | v =>
    let s := if v = 2 then s else s.inc Pg.CLS CLS1.ACTION_ERR
    (s.inc Pg.CLS CLS1.ACTION_DROP).dropPkt k Snd.clsDrop

/-- Firmware's reserved rule for PTP messages received on a site port (R325, `PTP_CTRL.EN` of chapter 18). -/
def State.ptpRule (s : State) (k : Pkt) (r : Parsed) : Option Rule :=
  if h : 2 ≤ k.ingress ∧ k.ingress < 6 then
    let b := Pg.SITE ⟨k.ingress - 2, by omega⟩
    if s.bit b SITE.PTP_CTRL_EN && r.outer.ptp.isSome then some ⟨0, 0, s.get b SITE.PTP_CTRL_QUEUE * 2 ^ 8⟩ else none
  else none

/-- The lookup of a frame's action (R325, R330): the action, the reason of an exception by it, and the state after. -/
def State.lookup (s : State) (k : Pkt) (r : Parsed) : Nat × Nat × State :=
  let inner := s.bit Pg.CLS (CLS0.ING_KEY_INNER k.ingress)
  let wk := wildKey k r inner
  match (s.ptpRule k r).or (s.ruleFind 0 64 wk) with
  | some ru => (ru.action, 3, s.add64 Pg.CLS CLS1.RULE_HITS_LO 1)
  | none =>
    let key := exactKey k r inner
    let cands := s.ftCands key
    let cached := s.cls.cache.find? (fun c => cands.contains c.1 && decide (c.2.headD 0 ≥ 0x80) && decide (entryKey c.2 = key))
    let s := if cached.isSome then s else s.add64 Pg.CLS CLS1.CACHE_MISSES_LO 1
    let s := if cached.isSome then s else
      cands.foldl (fun s loc => (s.memRead (s.ftAddr loc) 64 2).2.2) s
    match s.ftFind key with
    | some loc =>
      let e := s.ftEntry loc
      (entryAction e, 3, (s.ftCache loc (hitSet e true)).add64 Pg.CLS CLS1.FT_HITS_LO 1)
    | none =>
      match s.ruleFind 64 8192 wk with
      | some ru => (ru.action, 3, s.add64 Pg.CLS CLS1.RULE_HITS_LO 1)
      | none =>
        let v := s.get Pg.CLS (CLS0.ING_VERDICT k.ingress)
        (s.get Pg.CLS (CLS0.ING_QUEUE k.ingress) * 2 ^ 8 + (if v = 1 then 4 else v), 4, s.add64 Pg.CLS CLS1.DEFAULTS_LO 1)

/-- A frame classified (R321, R324, R325). -/
def State.classify (s : State) (k : Pkt) : State :=
  let s := s.add64 Pg.CLS (CLS1.FRAMES_LO k.ingress) 1
  let r := parse k.bytes
  match r.judged with
  | .deep => s.exception k 1 0
  | .conflict => s.exception k 2 0
  | .normal =>
    match s.lookup k r with
    | (act, reason, t) => t.applyAction k (keyLayer r (s.bit Pg.CLS (CLS0.ING_KEY_INNER k.ingress))).1 act reason

/-- Space of a line receive buffer released (R113). -/
def State.rxRelease (s : State) (p : Port) (units : Nat) : State :=
  s.set (Pg.LFR p) LFR0.RXBUF_FILL (s.get (Pg.LFR p) LFR0.RXBUF_FILL - units)

/-- CLASSIFY_FRAME (R319 to R328, R333 to R339): nothing while a hush is asked for (R341).  A frame of a line port
leaves the receive buffer for Skein buffers first; when there are none it is dropped whole (R18, R113). -/
def execClassifyFrame (ing : Fin 8) (s : State) : Host.Outcome State Fault Refusal :=
  .next (
    if s.bit Pg.CLS CLS0.HUSH_REQ || s.domIsOff .core then s
    else
      match s.inq ing.val with
      | [] => s
      | k :: ks =>
        let s := s.setInq ing.val ks
        if ing.val < 2 then
          let s := s.rxRelease (Port.ofNum ing.val) k.units
          match s.allocFrame ing.val k.bytes.length with
          | (none, t) => t
          | (some hs, t) => (t.toPath ing.val hs).classify { k with bufs := hs, units := 0 }
        else s.classify k)

/-! ### The hush (R341, R342) -/

/-- A hush over: classification resumes. -/
def State.hushEnd (s : State) : State :=
  let us := match s.cls.hushAt with
    | some c => min 0xFFFF ((s.clock.cycles - c) / cyclesOf 1000)
    | none => s.get Pg.CLS CLS0.HUSH_STAT_LAST_US
  ((({ s with cls := { s.cls with hushAt := none } } : State).set Pg.CLS CLS0.HUSH_REQ 0).set Pg.CLS CLS0.HUSH_STAT_HUSHED 0).set
    Pg.CLS CLS0.HUSH_STAT_LAST_US us

/-- The timer of a hush. -/
def Tm.hush : Nat := 30

/-- A write of `HUSH` (R341, R342): REQ 1 while hushed does not extend the hush, and REQ 0 ends it. -/
def State.hushWrite (s : State) (src : Source) (val : Word) : State :=
  let a := Pg.CLS + CLS0.HUSH.off
  match s.accessReg src a true with
  | .rejected p r => s.refuse src p r true a
  | .ok _ =>
    let was := s.bit Pg.CLS CLS0.HUSH_REQ
    let s := s.storeReg a val
    if val.toNat % 2 = 1 then (if was then s else s.inc Pg.CLS CLS1.HUSHES)
    else if was then (s.stopTimer Tm.hush).hushEnd else s

/-- HUSH_REQUEST (R341, R342). -/
def execHushRequest (src : Source) (val : Word) (s : State) : Host.Outcome State Fault Refusal := .next (s.hushWrite src val)

/-- HUSHED (R341). -/
def execHushed (s : State) : Host.Outcome State Fault Refusal :=
  .next (
    if s.bit Pg.CLS CLS0.HUSH_REQ && !s.bit Pg.CLS CLS0.HUSH_STAT_HUSHED then
      let max_ := max 1 (min 100 (s.get Pg.CLS CLS0.HUSH_MAX_US))
      ((({ s with cls := { s.cls with hushAt := some s.clock.cycles } } : State).set Pg.CLS CLS0.HUSH_STAT_HUSHED 1).evt Pg.CLS 8).startTimer
        Tm.hush (max_ * 1000)
    else s)

/-- HUSH_RELEASE (R341). -/
def execHushRelease (src : Source) (val : Word) (s : State) : Host.Outcome State Fault Refusal := .next (s.hushWrite src val)

/-- HUSH_EXPIRED (R342). -/
def execHushExpired (s : State) : Host.Outcome State Fault Refusal :=
  .next (
    if s.running Tm.hush then
      (((s.stopTimer Tm.hush).hushEnd.set Pg.CLS CLS0.HUSH_STAT_EXPIRED 1).evt Pg.CLS 9).inc Pg.CLS CLS1.HUSH_EXPIRED
    else s)

end Sys2Proof.Machine
end

