-- ==== Sys2Proof/Machine/Site.lean ====
section
/-!
DEFINITION. Machine/Site.lean: the site ports (R500 to R508): reception and its checks, transmission, PTP on both, and
the state of the link.
-/

namespace Sys2Proof.Machine

/-! ### PTP messages in a frame (R505 to R508) -/

/-- Where a PTP message begins in a frame that is not inside a tunnel. -/
def ptpAt (bs : List Byte) : Option Nat :=
  let r := parse bs
  if r.tunnels = 0 then (r.hdrs.find? (fun h => decide (h.1 = .ptp))).map (fun h => h.2) else none

/-- messageType of a PTP message, and whether twoStepFlag is set. -/
def ptpType (bs : List Byte) (at_ : Nat) : Nat := be bs at_ 1 % 16
def ptpTwoStep (bs : List Byte) (at_ : Nat) : Bool := decide (be bs (at_ + 6) 1 / 2 % 2 = 1)

/-- messageType Sync and Delay_Req; the event messages are 0 to 3. -/
def ptpSync : Nat := 0
def ptpDelayReq : Nat := 1

/-- The correctionField advanced by a signed number of 2^-16 ns. -/
def ptpCorrect (bs : List Byte) (at_ : Nat) (d : Int) : List Byte :=
  patch bs (at_ + 8) (beBytes 8 (ofSigned 64 (toSigned 64 (be bs (at_ + 8) 8) + d)))

/-- The UDP checksum over a changed PTP message written again, when there was one. -/
def ptpUdp (old new : List Byte) : List Byte :=
  match (parse old).l4At with
  | some (.udp, p, _) => if be old (p + 6) 2 = 0 then new else writeL4 new
  | _ => new

/-- originTimestamp and the sub-nanosecond part of a departure stamp written into a Sync message (R506). -/
def ptpOneStep (bs : List Byte) (at_ stamp : Nat) : List Byte :=
  let bs := patch bs (at_ + 34) (beBytes 6 (secOf stamp) ++ beBytes 4 (nsOf stamp))
  ptpCorrect bs at_ ((stamp % 2 ^ 40 / 2 ^ 24 : Nat) : Int)

/-! ### Stamps (R16, R505) -/

/-- A stamp taken `sub` steps of 2^-16 ns into the present `ck_time` cycle. -/
def State.stampSub (s : State) (sub : Fin 131072) : Nat := (s.clock.cnt + sub.val * 2 ^ 24) % clockMod

/-- A stamp moved by a signed number of 2^-8 ns. -/
def stampMove (t : Nat) (d : Int) : Nat := (((t : Int) + d * (2 ^ 32 : Nat)) % (clockMod : Nat)).toNat

/-- The 16 bytes appended to a received PTP event message (R507). -/
def rxTrailer (stamp : Nat) : List Byte :=
  beBytes 6 (secOf stamp) ++ beBytes 4 (nsOf stamp) ++ beBytes 4 (stamp % 2 ^ 40 / 2 ^ 8) ++ [0x4C, 0x42]

/-! ### Reception (R502, R503) -/

/-- MAX_LEN in force. -/
def State.siteMax (s : State) (n : Fin 4) : Nat := max 64 (s.get (Pg.SITE n) SITE.MAC_MAX_LEN)

/-- The address filter (R503). -/
def State.siteAccepts (s : State) (n : Fin 4) (bs : List Byte) : Bool :=
  let b := Pg.SITE n
  let d := beNat (bs.take 6)
  (List.range 16).any (fun k => s.bit b (SITE.ADDR_HI_VALID k)
      && decide (s.get b (SITE.ADDR_HI_MAC k) * 2 ^ 32 + s.get b (SITE.ADDR_LO k) = d))
    || (decide (d = 2 ^ 48 - 1) && s.bit b SITE.MAC_BCAST)
    || (decide (be bs 0 1 % 2 = 1) && s.bit b SITE.MAC_ALL_MULTI) || s.bit b SITE.MAC_PROMISC

/-- A frame in the queue of a site port or of Ply ahead of the classifier (R18, R340): it needs buffers, and room among
4,096.  DESIGN CHOICE: a frame dropped because its pool is empty is counted in `EMPTY` of each pool tried, and in no other
counter (log entry 57). -/
def State.toClassifier (s : State) (ing : Nat) (bytes trailer : List Byte) : State :=
  match s.allocFrame ing bytes.length with
  | (none, t) => t
  | (some hs, t) =>
    let t := t.toPath ing hs
    let q := t.inq ing
    let k : Pkt := ⟨ing, bytes, 0, false, 0, hs, 0, none, false, trailer⟩
    if q.length < 4096 then t.setInq ing (q ++ [k])
    else
      let t := (t.freePkt k).inc Pg.CLS CLS1.CLS_OVF
      if t.bit Pg.CLS CLS0.HUSH_REQ then t.inc Pg.CLS CLS1.HUSH_DROP else t

/-- Whether a site port receives and sends frames of its own (R501, R513). -/
def State.siteLive (s : State) (n : Fin 4) : Bool :=
  s.fnIs (.site n) .running && s.bit (Pg.SITE n) SITE.STAT_LINK && decide (s.get (Pg.SITE n) SITE.CTRL_LOOP = 0)

/-- A received frame past the MAC's checks: MACsec, PTP corrections, and on to the classifier (R471, R507, R508). -/
def State.siteDeliver (s : State) (n : Fin 4) (bs : List Byte) (sub : Fin 131072) : State :=
  let b := Pg.SITE n
  let r : Option (List Byte) × State := if s.msecOn n.val then s.msecReceive n.val bs else (some bs, s)
  match r.1 with
  | none => r.2
  | some f =>
    let s := r.2
    match ptpAt f with
    | none => s.toClassifier (2 + n.val) f []
    | some at_ =>
      let t := ptpType f at_
      let g := if s.bit b SITE.PTP_CTRL_ASYM_EN && decide (t = ptpSync) then
          ptpUdp f (ptpCorrect f at_ (s.getSigned b SITE.ASYM * 256)) else f
      let stamp := stampMove (s.stampSub sub) (- s.getSigned b SITE.RX_DELAY)
      s.toClassifier (2 + n.val) g (if s.bit b SITE.PTP_CTRL_RX_APPEND && decide (t < 4) then rxTrailer stamp else [])

/-- Whether a site port sends back what it receives (R513). -/
def State.siteFarLoop (s : State) (n : Fin 4) : Bool :=
  s.fnIs (.site n) .running && s.bit (Pg.SITE n) SITE.STAT_LINK && decide (s.get (Pg.SITE n) SITE.CTRL_LOOP = 3)

/-- SITE_RX_FRAME (R502): the checks in their order.  In loop 3 the frame goes back as it came (R513). -/
def execSiteRxFrame (n : Fin 4) (bytes : List Byte) (sub : Fin 131072) (fifoFree : Fin 131073) (fecCorr fecUncorr : Nat)
    (s : State) : Host.Outcome State Fault Refusal :=
  let b := Pg.SITE n
  .next (
    if s.siteFarLoop n then
      ((s.addCnt b SITE.FEC_CORR fecCorr).addCnt b SITE.FEC_UNCORR fecUncorr).emit (.siteFrame n.val bytes)
    else if !s.siteLive n then s
    else
      let s := (s.addCnt b SITE.FEC_CORR fecCorr).addCnt b SITE.FEC_UNCORR fecUncorr
      let body := bytes.take (bytes.length - 4)
      if bytes.length < 4 ∨ leNat (bytes.drop (bytes.length - 4)) ≠ Crypto.crc32 body then s.inc b SITE.RX_FCS_ERR
      else if bytes.length < 64 then s.inc b SITE.RX_RUNT
      else if s.siteMax n < bytes.length then s.inc b SITE.RX_OVERSIZE
      else if be bytes 12 2 = 0x8808 then s.inc b SITE.RX_MACCTL
      else if !s.siteAccepts n bytes then s.inc b SITE.RX_FILTERED
      else if fifoFree.val < bytes.length then (s.inc b SITE.RX_OVF).evt b 9
      else ((s.add64 b SITE.RX_FRAMES_LO 1).add64 b SITE.RX_BYTES_LO bytes.length).siteDeliver n body sub)

/-! ### Transmission (R504 to R508) -/

/-- What a site port does to a frame before MACsec: the Delay_Req correction and one-step completion. -/
def State.sitePtp (s : State) (n : Fin 4) (bs : List Byte) (stamp : Nat) : List Byte :=
  let b := Pg.SITE n
  match ptpAt bs with
  | none => bs
  | some at_ =>
    let t := ptpType bs at_
    if s.bit b SITE.PTP_CTRL_ASYM_EN && decide (t = ptpDelayReq) then ptpUdp bs (ptpCorrect bs at_ (- (s.getSigned b SITE.ASYM * 256)))
    else if s.bit b SITE.PTP_CTRL_ONE_STEP && !s.bit Pg.CIPH (CIPH1.MSEC_PORT_EN n.val) && decide (t = ptpSync) && !ptpTwoStep bs at_ then
      ptpUdp bs (ptpOneStep bs at_ stamp)
    else bs

/-- A status the spec does not state for a send that is dropped: a free value (log entry 9). -/
def State.openStatus (s : State) : Nat := Config.dropStatus s.free

/-- Timers of the idle time and the wake time of a site port (R509). -/
def Tm.lpiIdle (n : Nat) : Nat := 64 + n
def Tm.lpiWake (n : Nat) : Nat := 68 + n

/-- The idle time of a site port's egress starts (R509). -/
def State.lpiIdle (s : State) (n : Fin 4) : State :=
  s.startTimer (Tm.lpiIdle n.val) (1000 * s.get (Pg.SITE n) SITE.LPI_IDLE_US)

/-- A frame sent on a site port (R504 to R508, R294, R427). -/
def State.siteSend (s : State) (n : Fin 4) (k : Pkt) (sub : Fin 131072) : State :=
  let b := Pg.SITE n
  let stamp := stampMove (s.stampSub sub) (s.getSigned b SITE.TX_DELAY)
  let f := s.sitePtp n k.bytes stamp
  let r : Option (List Byte) × State := if s.msecOn n.val then s.msecProtect n.val f else (some f, s)
  match r.1 with
  | none => (r.2.dropPkt k s.openStatus).takeFree
  | some g =>
    let s := r.2
    let padded := g ++ List.replicate (60 - g.length) 0
    let out := padded ++ leBytes 4 (Crypto.crc32 padded)
    if s.siteMax n < out.length then (s.inc b SITE.TX_OVERSIZE).dropPkt k Snd.tooLong
    else
      let s := ((s.add64 b SITE.TX_FRAMES_LO 1).add64 b SITE.TX_BYTES_LO out.length).emit (.siteFrame n.val out)
      let s := s.lpiIdle n
      let s := match k.send.bind (fun d => d.tsId) with
        | some id => s.tsqPush (2 + n.val) id stamp
        | none => s
      (s.freePkt k).pktDone k Snd.ok false

/-! ### Link and module (R501, R521) -/

/-- SITE_LINK_UP (R501). -/
def execSiteLinkUp (n : Fin 4) (s : State) : Host.Outcome State Fault Refusal :=
  let b := Pg.SITE n
  .next (
    if s.fnIs (.site n) .running && !s.bit b SITE.STAT_LINK && !s.scan then
      (((s.set b SITE.STAT_LINK 1).set b SITE.STAT_FEC_LOCK (if s.get b SITE.CTRL_FEC = 0 then 0 else 1)).evt b 8).lpiIdle n
    else s)

/-- SITE_LINK_DOWN (R501). -/
def execSiteLinkDown (n : Fin 4) (s : State) : Host.Outcome State Fault Refusal :=
  let b := Pg.SITE n
  .next (if s.bit b SITE.STAT_LINK then ((s.set b SITE.STAT_LINK 0).set b SITE.STAT_FEC_LOCK 0).evt b 8 else s)

/-- MODULE_CHANGE (R521). -/
def execModuleChange (n : Fin 4) (present : Bool) (s : State) : Host.Outcome State Fault Refusal :=
  let b := Pg.SITE n
  .next (if s.bit b SITE.STAT_MOD_PRESENT = present then s else (s.setBit b SITE.STAT_MOD_PRESENT present).evt b 10)

end Sys2Proof.Machine
end

