-- ==== Sys2Proof/Machine/Sched.lean ====
section
/-!
DEFINITION. Machine/Sched.lean: queues, shapers, policers, deadline lanes and patterns (R345 to R374), and the release of
frames to an egress.
-/

namespace Sys2Proof.Machine

/-! ### Nodes (R346, R351, R352) -/

/-- A node that nothing has written. -/
def nodeReset : Nat → Node := fun _ => ⟨0, 0, 0, 0, 0, 0, 0, 0, 0, 0, 0, 0, 0, 0⟩

/-! Levels of the node entries (R351). -/
namespace Lvl
def queue : Nat := 0
def group : Nat := 1
def tenant : Nat := 2
def cls : Nat := 3
def egress : Nat := 4
end Lvl

/-- The key of a node. -/
def nodeKey (level idx : Nat) : Nat := level * 2 ^ 20 + idx

/-- A node by its key, and the same replaced. -/
def State.node (s : State) (k : Nat) : Node := SMap.get nodeReset s.sched.nodes k
def State.setNode (s : State) (k : Nat) (n : Node) : State :=
  { s with sched := { s.sched with nodes := SMap.set nodeReset s.sched.nodes k n } }

/-- EN of a node; an entry held out of use is treated as EN 0 (R401). -/
def State.nodeEn (s : State) (k : Nat) : Bool := decide ((s.node k).ctrl / 2 ^ 31 % 2 = 1) && !s.isBad Arr.node k

/-- WEIGHT, and the quantum of deficit round robin (R347). -/
def Node.weight (n : Node) : Nat := n.ctrl / 2 ^ 16 % 256
def Node.quantum (n : Node) : Nat := max 1 n.weight * 512

/-- The node that a queue, group or tenant names as its parent, and the egress a class belongs to. -/
def State.groupOf (s : State) (q : Nat) : Nat := (s.node (nodeKey Lvl.queue q)).ctrl % 2 ^ 13
def State.tenantOf (s : State) (g : Nat) : Nat := (s.node (nodeKey Lvl.group g)).ctrl % 2 ^ 10
def State.classOf (s : State) (t : Nat) : Nat :=
  let c := (s.node (nodeKey Lvl.tenant t)).ctrl
  c % 256 * 16 + c / 2 ^ 8 % 16

/-- The class node of a queue, and its egress. -/
def State.queueClass (s : State) (q : Nat) : Nat := s.classOf (s.tenantOf (s.groupOf q))
def State.queueEgress (s : State) (q : Nat) : Nat := s.queueClass q / 16

/-- Fields of class and egress nodes. -/
def State.classNode (s : State) (c : Nat) : Node := s.node (nodeKey Lvl.cls c)
def Node.stall (n : Node) : Bool := decide (n.ctrl / 2 ^ 28 % 2 = 1)
def Node.gate (n : Node) : Nat := n.ctrl / 2 ^ 24 % 8
def Node.prio (n : Node) : Nat := n.ctrl % 8
def State.egressNode (s : State) (e : Nat) : Node := s.node (nodeKey Lvl.egress e)
def Node.dlGate (n : Node) : Nat := n.ctrl / 2 ^ 8 % 16
def Node.ovh (n : Node) : Int := toSigned 8 (n.ctrl % 256)

/-- Committed-eligible and excess-eligible (R354); a PIR of all ones is unshaped. -/
def Node.committed (n : Node) : Bool := decide (0 < n.cLevel)
def Node.excess (n : Node) : Bool := !n.committed && (decide (0 < n.pLevel) || decide (n.pir = 0xFFFFFFFF))

/-! ### Queues and lanes -/

/-- Frames of a queue, oldest first, and the same replaced. -/
def State.queue (s : State) (q : Nat) : List QFrame := SMap.get (fun _ => []) s.sched.queues q
def State.setQueue (s : State) (q : Nat) (fs : List QFrame) : State :=
  { s with sched := { s.sched with queues := SMap.set (fun _ => []) s.sched.queues q fs } }

/-- The deadline lane of an egress, and the same replaced (R359). -/
def State.lane (s : State) (e : Nat) : List QFrame := SMap.get (fun _ => []) s.sched.lanes e
def State.setLane (s : State) (e : Nat) (fs : List QFrame) : State :=
  { s with sched := { s.sched with lanes := SMap.set (fun _ => []) s.sched.lanes e fs } }

/-- Length of a frame, and the bytes it takes on delivery to the host. -/
def QFrame.len (f : QFrame) : Nat := f.c.pkt.bytes.length
def QFrame.hostLen (f : QFrame) : Nat := f.len + f.c.pkt.trailer.length

/-- FILL of a queue. -/
def State.queueFill (s : State) (q : Nat) : Nat := ((s.queue q).map QFrame.len).sum

/-- Where an egress is served (R257), and where class c of egress 133 is (R520). -/
def State.servedAt (s : State) (e : Nat) : Nat :=
  match SMap.get (fun _ => 0) s.sched.rebound e with
  | 0 => e
  | k + 1 => k
def State.classAt (s : State) (c : Nat) : Nat :=
  if c / 16 = 133 then
    match SMap.get (fun _ => 0) s.sched.rebound (1000 + c % 16) with
    | 0 => 133
    | k + 1 => k
  else s.servedAt (c / 16)

/-- The egress node a class is served under: its own, or the one class c of egress 133 is bound to. -/
def State.classEgress (s : State) (c : Nat) : Nat := if c / 16 = 133 then s.classAt c else c / 16

/-- The egresses served at one place. -/
def State.egressesAt (s : State) (e : Nat) : List Nat :=
  if s.sched.rebound = [] then [e] else (List.range 134).filter (fun l => decide (s.servedAt l = e))

/-- Whether a frame is held for its launch time when it would depart at `now` (R297, R298). -/
def QFrame.heldAt (f : QFrame) (now : Nat) : Bool :=
  match f.launch with
  | some t => decide (now < t)
  | none => false

/-- A launch time that has passed by more than LATE_NS (R297). -/
def State.launchExpired (s : State) (f : QFrame) : Bool :=
  match f.launch with
  | some t => decide (t + s.get Pg.TIME TIME0.LAUNCH_CFG * 2 ^ 40 < s.clock.cnt)
  | none => false

/-! ### Patterns (R368 to R372) -/

/-- The patterns of an egress that has none. -/
def patternReset : Nat → Pattern := fun _ => ⟨[], [], none, none, 0, false, false, 0⟩

/-- The patterns of an egress, and the same replaced. -/
def State.pattern (s : State) (e : Nat) : Pattern := SMap.get patternReset s.sched.patterns e
def State.setPattern (s : State) (e : Nat) (p : Pattern) : State :=
  { s with sched := { s.sched with patterns := SMap.set patternReset s.sched.patterns e p } }

/-- One cycle of a pattern: cut at its end, or the last entry drawn out to it (R369). -/
def cycleFrom : Nat → List (Nat × Nat) → List (Nat × Nat)
  | _, [] => []
  | left, [(_, g)] => if left = 0 then [] else [(left, g)]
  | left, (n, g) :: es => if left = 0 then [] else (min n left, g) :: cycleFrom (left - n) es

/-- The entry that applies at an offset into the cycle. -/
def entryAt : List (Nat × Nat) → Nat → Nat
  | [], _ => 0
  | [_], _ => 0
  | (n, _) :: es, off => if off < n then 0 else 1 + entryAt es (off - n)

/-- The offset of an instant in ns into a pattern's cycle. -/
def Gates.offset (p : Gates) (ns : Nat) : Nat := (((ns : Int) - (p.base : Int)) % ((max 1 p.cycle : Nat) : Int)).toNat

/-- Whether a gate of an egress is open; every gate is without a running pattern (R369). -/
def State.gateIsOpen (s : State) (e g : Nat) : Bool :=
  let p := s.pattern e
  match p.active with
  | none => true
  | some a =>
    match (cycleFrom a.cycle a.ents)[p.entry]? with
    | some (_, gates) => decide (gates / 2 ^ g % 2 = 1)
    | none => true

/-- Time until a gate that is open closes, over a run of entries. -/
def openFor (g : Nat) : List (Nat × Nat) → Nat → Option Nat
  | [], _ => none
  | (n, gates) :: es, acc => if gates / 2 ^ g % 2 = 1 then openFor g es (acc + n) else some acc

/-- Nanoseconds until a gate of an egress next closes; none when it never does. -/
def State.gateLeft (s : State) (e g : Nat) : Option Nat :=
  match (s.pattern e).active with
  | none => none
  | some a =>
    let c := cycleFrom a.cycle a.ents
    let off := a.offset (s.clock.cnt / 2 ^ 40)
    let k := entryAt c off
    let passed := ((c.take k).map (fun x => x.1)).sum
    match c.drop k with
    | [] => none
    | (n, gates) :: rest => openFor g ((n - (off - passed), gates) :: rest ++ c) 0

/-- Nanoseconds a frame takes on a site port or on Ply, rounded up (R370). -/
def State.sendNs (s : State) (e len : Nat) : Nat :=
  if e = 133 then ((len + 167) / 168 * 10000 + 2950) / 2951
  else
    let bits := (max 60 len + 12) * 8
    let slow := if h : 129 ≤ e ∧ e < 133 then s.bit (Pg.SITE ⟨e - 129, by omega⟩) SITE.CTRL_SPEED else false
    if slow then (bits + 9) / 10 else (bits + 24) / 25

/-- Whether a gate lets a frame go (R370). -/
def State.gatePasses (s : State) (e g len : Nat) : Bool :=
  s.gateIsOpen e g &&
    (decide (e ≤ 128) ||
      match s.gateLeft e g with
      | none => true
      | some n => decide (s.sendNs e len ≤ n))

/-! ### Policers (R357, R358) -/

/-- A policer that nothing has written. -/
def polReset : Nat → Policer := fun _ => ⟨0, 0, 0, 0, 0, (0, 0, 0, 0, 0), 0, 0⟩

/-- A policer by its index, and the same replaced. -/
def State.pol (s : State) (n : Nat) : Policer := SMap.get polReset s.sched.pols n
def State.setPol (s : State) (n : Nat) (p : Policer) : State :=
  { s with sched := { s.sched with pols := SMap.set polReset s.sched.pols n p } }

/-- One byte, in tokens. -/
def tok : Nat := 65536

/-- The colour of a frame of B bytes (R358, RFC 2697, RFC 2698), and the policer after. -/
def Policer.colour (p : Policer) (pre b : Nat) : Nat × Policer :=
  let mode := p.now.1 % 4
  let pre := if p.now.1 / 4 % 2 = 1 then min pre 2 else 0
  let n := b * tok
  if mode = 1 then
    if pre = 0 ∧ n ≤ p.tc then (0, { p with tc := p.tc - n })
    else if pre ≤ 1 ∧ n ≤ p.te then (1, { p with te := p.te - n })
    else (2, p)
  else if mode = 2 then
    if pre = 2 ∨ p.te < n then (2, p)
    else if pre = 1 ∨ p.tc < n then (1, { p with te := p.te - n })
    else (0, { p with tc := p.tc - n, te := p.te - n })
  else (0, p)

/-- DEI set in the outer VLAN tag, when there is one (R358). -/
def markDei (bs : List Byte) : List Byte :=
  if be bs 12 2 = 0x8100 ∨ be bs 12 2 = 0x88A8 then patch bs 14 [bs.getD 14 0 ||| 0x10] else bs

/-- A frame through its policer (R358, R401): the frame with its colour, or none when it is dropped. -/
def State.police (s : State) (c : CPkt) : Option CPkt × State :=
  match c.policer with
  | none => (some { c with colour := 0 }, s)
  | some n =>
    let bad := s.isBad Arr.policer n
    let p := s.pol n
    let r : Nat × Policer := if bad then (2, p) else p.colour c.colour c.pkt.bytes.length
    let s := s.setPol n r.2
    let s := s.inc Pg.METER (if r.1 = 0 then METER.GREEN else if r.1 = 1 then METER.YELLOW else METER.RED)
    if r.1 = 2 ∧ (bad ∨ p.now.1 / 8 % 2 = 1) then (none, s.inc Pg.METER METER.RED_DROP)
    else
      let colour := min r.1 1
      let bytes := if colour = 1 ∧ p.now.1 / 16 % 2 = 1 then markDei c.pkt.bytes else c.pkt.bytes
      (some { c with colour := colour, pkt := { c.pkt with bytes := bytes } }, s)

/-! ### Deadline admission (R359 to R363) -/

/-- Assured rate in kb/s and INTERVAL in us of an egress 0 to 127 (R17, R248, R258, R260). -/
def State.assuredOf (s : State) (e : Nat) : Nat × Nat :=
  let at_ := s.servedAt e
  let own := fun (p : Port) =>
    let r := (s.line p).reg
    if s.inWork p && !r.doze && !r.dozeAsked then SMap.get (fun _ => (0, 0)) r.assured (at_ % 64) else (0, 0)
  if s.dual.mode = 2 ∧ s.inWork .portA ∧ s.inWork .portB then
    (min (own .portA).1 (own .portB).1, max (own .portA).2 (own .portB).2)
  else own (Port.ofNum (at_ / 64))

/-- B_c of a class in us. -/
def State.dlBound (s : State) (c : Nat) : Nat := max 50 (min 100000 (s.get Pg.DEADLINE (DEADLINE.CLASS_BOUND c)))

/-- R_c before SHARE, in kb/s, and G in us (R361). -/
def State.dlRate (s : State) (e : Nat) : Nat × Nat :=
  if e = 128 then (s.get Pg.DEADLINE DEADLINE.HOST_RATE, s.get Pg.DEADLINE DEADLINE.HOST_GAP_US) else s.assuredOf e

/-- LIMIT of a class on an egress, in bytes (R361). -/
def State.dlLimit (s : State) (e c : Nat) : Nat :=
  let r := s.dlRate e
  r.1 * s.get Pg.DEADLINE (DEADLINE.CLASS_SHARE c)
    * (s.dlBound c - r.2 - s.get Pg.DEADLINE (DEADLINE.CLASS_RESERVE_US c) - 5) / 2048000

/-- The committed backlog Q, and the same replaced. -/
def State.backlog (s : State) (e c : Nat) : Nat := SMap.get (fun _ => 0) s.sched.backlog (e * 8 + c)
def State.setBacklog (s : State) (e c q : Nat) : State :=
  { s with sched := { s.sched with backlog := SMap.set (fun _ => 0) s.sched.backlog (e * 8 + c) q } }

/-- Q of a class over all egresses. -/
def State.classBacklog (s : State) (c : Nat) : Nat :=
  ((s.sched.backlog.filter (fun x => decide (x.1 % 8 = c))).map (fun x => x.2)).sum

/-- Q reduced by an accepted frame (R362). -/
def State.dlLeave (s : State) (e : Nat) (f : QFrame) : State := s.setBacklog e f.cls (s.backlog e f.cls - f.charge)

/-- A frame put into a lane in order of due time, after those with the same (R359). -/
def laneInsert (f : QFrame) : List QFrame → List QFrame
  | [] => [f]
  | g :: gs => if f.due < g.due then f :: g :: gs else g :: laneInsert f gs

/-! ### Launch times at the head of a queue (R297) -/

/-- Frames that reach the head of a queue, or of a lane, more than LATE_NS after their launch time are dropped. -/
def State.settleQueue (s : State) (q : Nat) : Nat → State
  | 0 => s
  | n + 1 =>
    match s.queue q with
    | [] => s
    | f :: fs =>
      if s.launchExpired f then
        (((s.setQueue q fs).inc Pg.TIME TIME1.LAUNCH_EXPIRED).dropPkt f.c.pkt Snd.launchExpired).settleQueue q n
      else s
def State.settleLane (s : State) (e : Nat) : Nat → State
  | 0 => s
  | n + 1 =>
    match s.lane e with
    | [] => s
    | f :: fs =>
      if s.launchExpired f then
        ((((s.setLane e fs).dlLeave e f).inc Pg.TIME TIME1.LAUNCH_EXPIRED).dropPkt f.c.pkt Snd.launchExpired).settleLane e n
      else s

/-- The head of a queue, or of a lane, gone: the next frame reaches it. -/
def State.popQueue (s : State) (q : Nat) : State := (s.setQueue q ((s.queue q).drop 1)).settleQueue q (s.queue q).length
def State.popLane (s : State) (e : Nat) : State := (s.setLane e ((s.lane e).drop 1)).settleLane e (s.lane e).length

/-! ### ENQUEUE (R349, R361) -/

/-- The launch time of a frame, with TIMED_LAUNCH in force. -/
def State.launchOf (s : State) (k : Pkt) : Option Nat := if s.feat 3 then k.send.bind (fun d => d.launch) else none

/-- Whether the launch time of a frame is still to come. -/
def State.launchAhead (s : State) (k : Pkt) : Bool :=
  match s.launchOf k with
  | some t => decide (s.clock.cnt < t)
  | none => false

/-- Timer of the automatic doze (R484). -/
def Tm.autoDoze : Nat := 59

/-- A frame counted as enqueued (R374); the idle time of the automatic doze starts afresh (R484), 0 acting as 1. -/
def State.enqCount (s : State) (n : Nat) : State :=
  let s := s.startTimer Tm.autoDoze (ms * max 1 (s.get Pg.PWR PWR.POLICY_DOZE_IDLE_MS))
  (s.add64 Pg.SCHED SCHED1.ENQ_FRAMES_LO 1).add64 Pg.SCHED SCHED1.ENQ_BYTES_LO n

/-- A frame enqueued in its queue, or dropped (R349). -/
def State.enqueue (s : State) (c : CPkt) : State :=
  let q := c.queue
  let n := s.node (nodeKey Lvl.queue q)
  let want := s.queueFill q + c.pkt.bytes.length
  if n.w1 ≠ 0 ∧ n.w1 < want then (s.inc Pg.SCHED SCHED1.TAIL_DROP).dropPkt c.pkt Snd.queueFull
  else if c.colour = 1 ∧ n.w1 ≠ 0 ∧ n.w2 < want then (s.inc Pg.SCHED SCHED1.YELLOW_DROP).dropPkt c.pkt Snd.queueFull
  else
    let t := (s.setQueue q (s.queue q ++ [⟨c, 0, 0, 0, false, s.launchOf c.pkt, s.launchAhead c.pkt⟩])).enqCount c.pkt.bytes.length
    if s.queue q = [] then t.settleQueue q 1 else t

/-- A frame offered to admission on an egress 0 to 128 (R361). -/
def State.laneAdmission (s : State) (e cl : Nat) (c : CPkt) : State :=
  let d := Pg.DEADLINE
  let charge := c.pkt.bytes.length + s.get d DEADLINE.CFG
  let rate := (s.dlRate e).1 * s.get d (DEADLINE.CLASS_SHARE cl)
  if decide (0 < rate) && !s.bit d (DEADLINE.CLASS_CLOSED cl) && decide (s.backlog e cl + charge ≤ s.dlLimit e cl) then
    let f : QFrame := ⟨c, cl, s.clock.cnt + s.dlBound cl * 1000 * 2 ^ 40, charge, false, s.launchOf c.pkt,
      s.launchAhead c.pkt⟩
    let t := (((s.setLane e (laneInsert f (s.lane e))).setBacklog e cl (s.backlog e cl + charge)).inc d (DEADLINE.ADMITTED cl)).enqCount
      c.pkt.bytes.length
    match s.lane e with
    | [] => t.settleLane e 1
    | g :: _ => if f.due < g.due then t.settleLane e 1 else t
  else ((s.inc d (DEADLINE.NOT_ADMITTED cl)).evtMs d 9).dropPkt c.pkt Snd.notAdmitted

/-- Whether the launch time of a frame lies more than 1 s ahead (R297). -/
def State.launchTooFar (s : State) (k : Pkt) : Bool :=
  match s.launchOf k with
  | some t => decide (s.clock.cnt + secUnit < t)
  | none => false

/-- ENQUEUE (R349, R357 to R363). -/
def execEnqueue (s : State) : Host.Outcome State Fault Refusal :=
  .next (
    match s.cls.outq with
    | [] => s
    | c :: rest =>
      let s : State := { s with cls := { s.cls with outq := rest } }
      match s.police c with
      | (none, s) => s.dropPkt c.pkt Snd.policed
      | (some c, s) =>
        if s.launchTooFar c.pkt then s.dropPkt c.pkt Snd.launchRefused
        else
          let e := s.queueEgress c.queue
          match (if s.feat 2 then c.dl else none) with
          | none => s.enqueue c
          | some cl => if 128 < e then (s.inc Pg.DEADLINE DEADLINE.DL_IGNORED).enqueue c else s.laneAdmission e cl c)

/-! ### What an egress can take (R345, R350, R501, R512) -/

/-- Whether the Ply link can start a frame (R512, R513). -/
def State.plyTakes (s : State) : Bool :=
  s.fnIs .ply .running && decide (s.get Pg.PLY PLY.LINK_STATE = 4) && decide (s.get Pg.PLY PLY.CTRL_LOOP = 0)

/-- Whether an egress can take a frame of a queue.  An allocation egress takes one in the draw of its slot; outside a
draw this says whether its port is in WORK (R243, R350). -/
def State.egressTakes (s : State) (e q : Nat) (f : QFrame) : Bool :=
  if e < 128 then s.inWork (Port.ofNum (e / 64)) && s.fnIs (.line (Port.ofNum (e / 64))) .running
  else if e = 128 then s.rxTakes q f.hostLen
  else if h : 129 ≤ e ∧ e < 133 then
    let n : Fin 4 := ⟨e - 129, by omega⟩
    s.siteLive n && (SMap.get (fun _ => none) s.siteWake n.val).isNone && (!s.msecOn n.val || (s.msecTxSa n.val).en)
  else if e = 133 then s.plyTakes
  else false

/-! ### Selection (R347) -/

/-- A frame picked: its queue, none for the lane, its egress, the frame, and the nodes passed, each with whether it was
passed as committed-eligible. -/
structure Pick where
  queue : Option Nat
  egress : Nat
  frame : QFrame
  path : List (Nat × Bool)
deriving DecidableEq, Repr

/-- A candidate of a round robin: the node's key and what it would send. -/
abbrev Cand := Nat × Pick

/-- The round: each candidate in turn is given its quantum and sends when its deficit covers its frame (R347). -/
def drrRound (quantum : Nat → Nat) : Nat → List Cand → SMap Nat → Option (Cand × SMap Nat)
  | 0, _, _ => none
  | _, [], _ => none
  | k + 1, c :: cs, ds =>
    let d := SMap.get (fun _ => 0) ds c.1 + quantum c.1
    if c.2.frame.len ≤ d then some (c, SMap.set (fun _ => 0) ds c.1 (d - c.2.frame.len))
    else drrRound quantum k (cs ++ [c]) (SMap.set (fun _ => 0) ds c.1 d)

/-- Candidates in round order, beginning after the one served last. -/
def after (last : Nat) (cs : List Cand) : List Cand :=
  cs.filter (fun c => decide (last < c.1)) ++ cs.filter (fun c => decide (c.1 ≤ last))

/-- Deficit round robin over candidates: the one served last goes on while its deficit lasts. -/
def State.drr (s : State) (last : Nat) (cs : List Cand) : Option (Cand × State) :=
  let put := fun (t : State) (k d : Nat) => t.setNode k { t.node k with deficit := d }
  match cs.find? (fun c => decide (c.1 = last) && decide (c.2.frame.len ≤ (s.node c.1).deficit)) with
  | some c => some (c, put s c.1 ((s.node c.1).deficit - c.2.frame.len))
  | none =>
    let ds := cs.foldl (fun m c => SMap.set (fun _ => 0) m c.1 (s.node c.1).deficit) []
    let turns := cs.length * ((cs.map (fun c => c.2.frame.len)).foldl max 0 / 512 + 2)
    (drrRound (fun k => (s.node k).quantum) turns (after last cs) ds).map (fun r =>
      (r.1, (cs.map (fun c => c.1)).foldl (fun t k => put t k (SMap.get (fun _ => 0) r.2 k)) s))

/-- Candidates of a parent without a shaper above them: queues of a group. -/
def State.drrPlain (s : State) (parent : Nat) (cs : List Cand) : Option (Pick × State) :=
  (s.drr (s.node parent).lastC cs).map (fun r =>
    (r.1.2, r.2.setNode parent { r.2.node parent with lastC := r.1.1 }))

/-- Candidates with shapers: the committed-eligible ones by deficit round robin, then the excess-eligible ones. -/
def State.drrShaped (s : State) (parent : Nat) (cs : List Cand) : Option (Pick × State) :=
  let com := cs.filter (fun c => (s.node c.1).committed)
  if com ≠ [] then
    (s.drr (s.node parent).lastC com).map (fun r =>
      ({ r.1.2 with path := r.1.2.path ++ [(r.1.1, true)] }, r.2.setNode parent { r.2.node parent with lastC := r.1.1 }))
  else
    (s.drr (s.node parent).lastE (cs.filter (fun c => (s.node c.1).excess))).map (fun r =>
      ({ r.1.2 with path := r.1.2.path ++ [(r.1.1, false)] }, r.2.setNode parent { r.2.node parent with lastE := r.1.1 }))

/-- The head frames of queues that an egress may take now: queues with EN, not held for a launch time, and taken by
`ok`. -/
def State.heads (s : State) (now : Nat) (ok : Nat → QFrame → Bool) : List (Nat × QFrame) :=
  s.sched.queues.filterMap (fun x =>
    match x.2 with
    | f :: _ => if s.nodeEn (nodeKey Lvl.queue x.1) && !f.heldAt now && ok x.1 f then some (x.1, f) else none
    | [] => none)

/-- What each of a list of children would send, the choices below written into the state. -/
def State.pickEach (s : State) (kids : List Nat) (pick : State → Nat → Option (Pick × State)) (key : Nat → Nat) : List Cand :=
  kids.filterMap (fun k => (pick s k).map (fun r => (key k, r.1)))

/-- The state after the choice below one child. -/
def State.after (s : State) (pick : State → Nat → Option (Pick × State)) (k : Nat) : State :=
  match pick s k with
  | some r => r.2
  | none => s

/-- The queue a group picks. -/
def State.pickGroup (s : State) (e : Nat) (hs : List (Nat × QFrame)) (g : Nat) : Option (Pick × State) :=
  s.drrPlain (nodeKey Lvl.group g) ((hs.filter (fun h => decide (s.groupOf h.1 = g))).map (fun h =>
    (nodeKey Lvl.queue h.1, ⟨some h.1, e, h.2, []⟩)))

/-- Values without repeats, in rising order of first appearance. -/
def distinct (xs : List Nat) : List Nat := xs.foldl (fun acc x => if acc.contains x then acc else acc ++ [x]) []

/-- A parent picks among children that have shapers, each with what it would send. -/
def State.pickLevel (s : State) (parent : Nat) (kids : List Nat) (key : Nat → Nat)
    (pick : State → Nat → Option (Pick × State)) : Option (Pick × State) :=
  let kids := kids.filter (fun k => s.nodeEn (key k) && ((s.node (key k)).committed || (s.node (key k)).excess))
  let cands := s.pickEach kids pick key
  match s.drrShaped parent cands with
  | none => none
  | some r =>
    -- the choice of the child that won is written as well
    match kids.find? (fun k => decide (r.1.path.getLast?.map (fun x => x.1) = some (key k))) with
    | none => some r
    | some k => (s.after pick k |>.drrShaped parent cands)

/-- The group a tenant picks, and the tenant a class picks. -/
def State.pickTenant (s : State) (e : Nat) (hs : List (Nat × QFrame)) (t : Nat) : Option (Pick × State) :=
  s.pickLevel (nodeKey Lvl.tenant t) (distinct ((hs.map (fun h => s.groupOf h.1)).filter (fun g => decide (s.tenantOf g = t))))
    (nodeKey Lvl.group) (fun s g => s.pickGroup e hs g)
def State.pickClass (s : State) (e : Nat) (hs : List (Nat × QFrame)) (c : Nat) : Option (Pick × State) :=
  s.pickLevel (nodeKey Lvl.cls c)
    (distinct ((hs.map (fun h => s.tenantOf (s.groupOf h.1))).filter (fun t => decide (s.classOf t = c))))
    (nodeKey Lvl.tenant) (fun s t => s.pickTenant e hs t)

/-- The class an egress picks: the lowest PRIO among the classes whose gate lets the frame go and that are eligible. -/
def State.pickEgress (s : State) (at_ : Nat) (hs : List (Nat × QFrame)) : Option (Pick × State) :=
  let cs := (distinct (hs.map (fun h => s.queueClass h.1))).filter (fun c =>
    decide (s.classAt c = at_) && s.nodeEn (nodeKey Lvl.cls c) && s.nodeEn (nodeKey Lvl.egress (s.classEgress c))
      && ((s.classNode c).committed || (s.classNode c).excess)
      && (match s.pickClass at_ hs c with
          | some r => s.gatePasses (s.classEgress c) (s.classNode c).gate r.1.frame.len
          | none => false))
  match cs with
  | [] => none
  | _ =>
    let prio := (cs.map (fun c => (s.classNode c).prio)).foldl min 8
    s.pickLevel (nodeKey Lvl.egress at_) (cs.filter (fun c => decide ((s.classNode c).prio = prio))) (nodeKey Lvl.cls)
      (fun s c => s.pickClass at_ hs c)

/-- The frame of the deadline lanes served at a place that goes first, when its gate lets it go (R347, R359). -/
def State.pickLane (s : State) (at_ now : Nat) (ok : Nat → QFrame → Bool) : Option Pick :=
  let heads := (s.egressesAt at_).filterMap (fun e =>
    match s.lane e with
    | f :: _ =>
      let g := (s.egressNode e).dlGate
      if s.nodeEn (nodeKey Lvl.egress e) && !f.heldAt now && ok f.c.queue f && (decide (7 < g) || s.gatePasses e g f.len) then
        some (⟨none, e, f, []⟩ : Pick)
      else none
    | [] => none)
  heads.foldl (fun best p =>
    match best with
    | some b => if p.frame.due < b.frame.due then some p else some b
    | none => some p) none

/-- What the scheduler would release next at a place for a departure at `now`, with the round robins as they stand after
(R347). -/
def State.pickNext (s : State) (at_ now : Nat) (ok : Nat → QFrame → Bool) : Option (Pick × State) :=
  match s.pickLane at_ now ok with
  | some p => some (p, s)
  | none => s.pickEgress at_ (s.heads now ok)

/-! ### Release (R355) -/

/-- A charge to a level, held to -2^31 bytes at the lowest. -/
def charged (l : Int) (n : Int) : Int := max (-(2 ^ 31 * 65536)) (l - n * 65536)

/-- Whether any frame waits below a node. -/
def State.waitsBelow (s : State) (k : Nat) : Bool :=
  s.sched.queues.any (fun x => !x.2.isEmpty &&
    (decide (nodeKey Lvl.queue x.1 = k) || decide (nodeKey Lvl.group (s.groupOf x.1) = k)
      || decide (nodeKey Lvl.tenant (s.tenantOf (s.groupOf x.1)) = k) || decide (nodeKey Lvl.cls (s.queueClass x.1) = k)))

/-- A picked frame taken out of its queue or lane, its path charged (R355); a node left without frames loses its
deficit. -/
def State.takeOut (s : State) (p : Pick) : State :=
  match p.queue with
  | none => s.popLane p.egress
  | some q =>
    let ovh := (s.egressNode (s.classEgress (s.queueClass q))).ovh
    let n : Int := (p.frame.len : Int) + ovh
    let s := s.popQueue q
    let s := p.path.foldl (fun s x =>
      let d := s.node x.1
      s.setNode x.1 { d with cLevel := if x.2 then charged d.cLevel n else d.cLevel, pLevel := charged d.pLevel n }) s
    (nodeKey Lvl.queue q :: p.path.map (fun x => x.1)).foldl (fun s k =>
      if s.waitsBelow k then s else s.setNode k { s.node k with deficit := 0 }) s

/-- The status of a frame that has been sent (R365, R426). -/
def QFrame.sentStatus (f : QFrame) : Nat := if f.late then Snd.late else Snd.ok

/-- A poisoned frame at its egress, dropped (R399). -/
def State.dropPoison (s : State) (p : Pick) : State :=
  let s := match p.queue with
    | none => (s.popLane p.egress).dlLeave p.egress p.frame
    | some q => s.popQueue q
  (s.inc Pg.MEM MEM1.POISON_FRAMES).dropPkt p.frame.c.pkt Snd.poisoned

/-- A frame delivered to the host (R423 to R427). -/
def State.hostDeliver (s : State) (q : Nat) (f : QFrame) : State :=
  let k := f.c.pkt
  let csum := if s.feat 10 then rxCsum k.bytes else 0
  let info := k.ingress % 8 + csum + (if k.ce then 64 else 0)
  ((s.rxDeliver q (k.bytes ++ k.trailer) f.c.hash f.c.tag info).freePkt k).pktDone k f.sentStatus false

/-- A frame sent over Ply (R427, R517). -/
def State.plySend (s : State) (k : Pkt) : State :=
  (((s.add64 Pg.PLY PLY.TX_FLITS_LO ((k.bytes.length + 167) / 168)).emit (.plyFrame k.bytes)).freePkt k).pktDone k Snd.ok false

/-- What an egress 128 to 133 does with a released frame; a site port in low-power idle wakes first (R509). -/
def State.sendOut (s : State) (e : Nat) (p : Pick) (sub : Fin 131072) : State :=
  let k := p.frame.c.pkt
  if e = 128 then
    let s := if p.queue.isNone then s.dlLeave p.egress p.frame else s
    if rxTooLong (s.ep p.frame.c.queue).rxd p.frame.hostLen then (s.inc Pg.HQ HQ1.RX_TOO_LONG).dropPkt k Snd.tooLong
    else s.hostDeliver p.frame.c.queue p.frame
  else if h : 129 ≤ e ∧ e < 133 then
    let n : Fin 4 := ⟨e - 129, by omega⟩
    if s.bit (Pg.SITE n) SITE.STAT_LPI_TX then
      ({ s with siteWake := SMap.set (fun _ => none) s.siteWake n.val (some ⟨k⟩) } : State).set (Pg.SITE n) SITE.STAT_LPI_TX 0 |>.startTimer
        (Tm.lpiWake n.val) (1000 * max 1 (s.get (Pg.SITE n) SITE.LPI_WAKE_US))
    else s.siteSend n k sub
  else s.plySend k

/-- SCHEDULER_SELECT (R345 to R350, R355, R359, R370).  An allocation egress takes frames only in a draw, which
DRAW_CLOSE carries out; outside one it can take none. -/
def execSchedulerSelect (egress : Fin 134) (sub : Fin 131072) (s : State) : Host.Outcome State Fault Refusal :=
  .next (
    if egress.val < 128 then s
    else
      match s.pickNext egress.val s.clock.cnt (fun q f => s.egressTakes egress.val q f) with
      | none => s
      | some (p, t) =>
        if p.frame.c.pkt.poison then s.dropPoison p
        else (t.takeOut p).sendOut egress.val p sub)

/-- STALL_DROP (R350). -/
def execStallDrop (queue : Fin 131072) (s : State) : Host.Outcome State Fault Refusal :=
  .next (
    match s.queue queue.val with
    | [] => s
    | f :: _ =>
      let c := s.queueClass queue.val
      if (s.classNode c).stall && !s.egressTakes (s.classAt c) queue.val f then
        ((s.popQueue queue.val).inc Pg.SCHED SCHED1.STALL_DROP).dropPkt f.c.pkt Snd.stallDrop
      else s)

/-- LAUNCH_TIME_REACHED (R297, R298): which frames are held for their launch time, by the counter as it stands. -/
def execLaunchTimeReached (s : State) : Host.Outcome State Fault Refusal :=
  let free := fun (f : QFrame) =>
    match f.launch with
    | some t => { f with held := decide (s.clock.cnt < t) }
    | none => f
  let all := fun (m : SMap (List QFrame)) => m.map (fun x => (x.1, x.2.map free))
  .next { s with sched := { s.sched with queues := all s.sched.queues, lanes := all s.sched.lanes } }

/-! ### Refill (R339, R354, R356, R358) -/

/-- Tokens that a rate in kb/s adds in 1,024 ns, in 2^-16 byte. -/
def refill (kbps : Nat) : Nat := kbps * 8388608 / 1000000

/-- A bucket after a tick. -/
def bucketTick (level : Int) (rate burst : Nat) : Int := min (level + (refill rate : Nat)) ((burst * 65536 : Nat) : Int)

/-- A node at a refill tick: the rates and bursts written come into force first. -/
def Node.tick (n : Node) : Node :=
  { n with cir := n.w1, cbs := n.w2, pir := n.w3, pbs := n.w4, cLevel := bucketTick n.cLevel n.w1 n.w2,
           pLevel := bucketTick n.pLevel n.w3 n.w4 }

/-- A policer at a refill tick. -/
def Policer.tick (p : Policer) : Policer :=
  let c := p.tc + refill p.cir
  let cap := p.cbs * tok
  let tc := min c cap
  let more := if p.ctrl % 4 = 2 then refill p.eir else if p.ctrl % 4 = 1 then c - tc else 0
  { p with now := (p.ctrl, p.cir, p.cbs, p.eir, p.ebs), tc := tc, te := min (p.te + more) (p.ebs * tok) }

/-- REFILL_TICK (R354, R356, R358, R339). -/
def execRefillTick (s : State) : Host.Outcome State Fault Refusal :=
  let nodes := (s.sched.nodes.filter (fun x => decide (1 ≤ x.1 / 2 ^ 20 ∧ x.1 / 2 ^ 20 ≤ 3))).foldl
    (fun m x => SMap.set nodeReset m x.1 x.2.tick) s.sched.nodes
  let pols := s.sched.pols.foldl (fun m x => SMap.set polReset m x.1 x.2.tick) s.sched.pols
  let exc := min (s.cls.excTokens + s.get Pg.CLS CLS0.EXC_RATE_RATE * 1024) (max 1 (s.get Pg.CLS CLS0.EXC_RATE_BURST) * excToken)
  .next { s with sched := { s.sched with nodes := nodes, pols := pols }, cls := { s.cls with excTokens := exc } }

/-! ### Node and policer commands (R351 to R353, R357) -/

/-- Entries of a level (R351). -/
def levelCount (level : Nat) : Nat :=
  if level = 1 then 8192 else if level = 2 then 1024 else if level = 3 then 2144 else if level = 4 then 134 else 131072

/-- The bits of CTRL that a level has. -/
def ctrlMask (level : Nat) : Nat :=
  if level = 1 then 0x80FF03FF else if level = 2 then 0x80FF0FFF else if level = 3 then 0x97FF0007
  else if level = 4 then 0x80000FFF else 0x80FF1FFF

/-- The bits of CTRL that name a parent: GROUP, TENANT, or CLASS and EGRESS (R353). -/
def parentMask (level : Nat) : Nat := if level = 0 then 0x1FFF else if level = 1 then 0x3FF else if level = 2 then 0xFFF else 0

/-- A level in bytes as a signed 32-bit word. -/
def levelWord (l : Int) : Nat := ofSigned 32 (l / 65536)

/-- A node entry as 8 words (R351, R352). -/
def State.nodeWords (s : State) (level idx : Nat) : List Word :=
  let n := s.node (nodeKey level idx)
  (if level = 0 then [n.ctrl, n.w1, n.w2, 0, s.queueFill idx, (s.queue idx).length, 0, 0]
   else if level = 4 then [n.ctrl, 0, 0, 0, 0, 0, 0, 0]
   else [n.ctrl, n.w1, n.w2, n.w3, n.w4, levelWord n.cLevel, levelWord n.pLevel, 0]).map (BitVec.ofNat 32)

/-- A staged node entry committed (R353): 0 OK, 1 BUSY. -/
def State.nodeCommit (s : State) (level idx : Nat) (ws : List Word) : Nat × State :=
  let key := nodeKey level idx
  let n := s.node key
  let w := fun k => (ws.getD k 0).toNat
  let ctrl := w 0 &&& ctrlMask level
  if s.nodeEn key && decide ((ctrl ^^^ n.ctrl) &&& parentMask level ≠ 0) then (1, s)
  else
    let m := if level = 0 then { n with ctrl := ctrl, w1 := w 1, w2 := w 2 }
      else if level = 4 then { n with ctrl := ctrl }
      else { n with ctrl := ctrl, w1 := w 1, w2 := w 2, w3 := w 3, w4 := w 4 }
    (0, (s.setNode key m).setBad Arr.node key false)

/-- A write of `NODE_CMD` (R353): OP 1 reads the entry, OP 2 writes it, and no other does either. -/
def State.nodeCmd (s : State) (src : Source) (val : Word) : State :=
  let b := Pg.SCHED
  let op := val.toNat % 4
  let a := b + SCHED0.NODE_CMD.off
  match s.accessReg src a true with
  | .rejected p r => s.refuse src p r true a
  | .ok _ =>
    let s := s.storeReg a val
    let l := s.get b SCHED0.NODE_SEL_LEVEL
    let level := if 4 < l then 0 else l
    let idx := s.get b SCHED0.NODE_SEL_INDEX + (if level = 0 then s.get b SCHED0.NODE_CMD_IDX16 * 65536 else 0)
    let d := b + (SCHED0.NODE_DATA 0).off
    if op ≠ 1 ∧ op ≠ 2 then s
    else if levelCount level ≤ idx then (s.set b SCHED0.NODE_CMD_RESULT 2).evt b 8
    else if op = 1 then ((s.wrWords d (s.nodeWords level idx)).set b SCHED0.NODE_CMD_RESULT 0).evt b 8
    else
      match s.nodeCommit level idx (s.rdWords d 8) with
      | (r, t) => (t.set b SCHED0.NODE_CMD_RESULT r).evt b 8

/-- NODE_READ (R351, R353). -/
def execNodeRead (src : Source) (val : Word) (s : State) : Host.Outcome State Fault Refusal :=
  .next (s.nodeCmd src val)

/-- NODE_WRITE (R353). -/
def execNodeWrite (src : Source) (val : Word) (s : State) : Host.Outcome State Fault Refusal :=
  .next (s.nodeCmd src val)

/-- A policer entry as 8 words (R357). -/
def State.polWords (s : State) (n : Nat) : List Word :=
  let p := s.pol n
  [p.ctrl, p.cir, p.cbs, p.eir, p.ebs, p.tc / tok, p.te / tok, 0].map (BitVec.ofNat 32)

/-- A write of `POL_CMD` (R357): OP as in `NODE_CMD`; LEVEL is ignored. -/
def State.polCmd (s : State) (src : Source) (val : Word) : State :=
  let b := Pg.METER
  let op := val.toNat % 4
  let a := b + METER.POL_CMD.off
  match s.accessReg src a true with
  | .rejected p r => s.refuse src p r true a
  | .ok _ =>
    let s := s.storeReg a val
    let idx := s.get b METER.POL_SEL_INDEX
    let d := b + (METER.POL_DATA 0).off
    if op ≠ 1 ∧ op ≠ 2 then s
    else if op = 1 then (s.wrWords d (s.polWords idx)).set b METER.POL_CMD_RESULT 0
    else
      let w := fun k => ((s.rdWords d 8).getD k 0).toNat
      let p := s.pol idx
      ((s.setPol idx { p with ctrl := w 0 % 32, cir := w 1, cbs := w 2, eir := w 3, ebs := w 4 }).setBad Arr.policer idx false).set b
        METER.POL_CMD_RESULT 0

/-- POL_READ (R357). -/
def execPolRead (src : Source) (val : Word) (s : State) : Host.Outcome State Fault Refusal :=
  .next (s.polCmd src val)

/-- POL_WRITE (R357). -/
def execPolWrite (src : Source) (val : Word) (s : State) : Host.Outcome State Fault Refusal :=
  .next (s.polCmd src val)

/-! ### Due times (R365, R366) -/

/-- A frame at its due time (R365). -/
def State.dueFrame (s : State) (e : Nat) (f : QFrame) : State :=
  let d := Pg.DEADLINE
  let s := (s.inc d (DEADLINE.LATE f.cls)).evt d 8
  if s.bit d (DEADLINE.CLASS_POLICY f.cls) then
    ((s.inc d (DEADLINE.LATE_DROP f.cls)).dlLeave e f).dropPkt f.c.pkt Snd.late
  else s

/-- The open fragment of an egress 0 to 127 at its due time (R365): its frame has not been sent. -/
def State.dueOpen (s : State) (e : Nat) : State :=
  let at_ := s.servedAt e
  let p := Port.ofNum (at_ / 64)
  let x := s.line p
  if 128 ≤ e then s
  else
    match SMap.get (fun _ => none) x.up.open_ (at_ % 64) with
    | some u =>
      match u.src with
      | .queued e' none f =>
        if e' = e ∧ f.late = false ∧ f.due ≤ s.clock.cnt then
          let put := fun (s : State) (v : Option UpFrame) =>
            s.setLine p { x with up := { x.up with open_ := SMap.set (fun _ => none) x.up.open_ (at_ % 64) v } }
          if s.bit Pg.DEADLINE (DEADLINE.CLASS_POLICY f.cls) then (put s none).dueFrame e f
          else (put s (some { u with src := .queued e' none { f with late := true } })).dueFrame e f
        else s
      | _ => s
    | none => s

/-- DEADLINE_DUE (R365): each frame of the lane whose due time the counter has reached, once. -/
def execDeadlineDue (egress : Fin 129) (s : State) : Host.Outcome State Fault Refusal :=
  let e := egress.val
  let s := s.dueOpen e
  let lane := s.lane e
  let due := fun (f : QFrame) => !f.late && decide (f.due ≤ s.clock.cnt)
  let drops := fun (f : QFrame) => due f && s.bit Pg.DEADLINE (DEADLINE.CLASS_POLICY f.cls)
  let kept := (lane.filter (fun f => !drops f)).map (fun f => if due f then { f with late := true } else f)
  let t := (lane.filter due).foldl (fun s f => s.dueFrame e f) (s.setLane e kept)
  .next (if (lane.take 1).any drops then t.settleLane e kept.length else t)

/-- A frame of a lane, its due time moved. -/
def QFrame.moved (f : QFrame) (d : Int) : QFrame := { f with due := ((f.due : Int) + d).toNat }

/-- The open fragments of a port moved as their lanes are (R366). -/
def State.moveOpen (s : State) (d : Int) (p : Port) : State :=
  let x := s.line p
  let move := fun (u : UpFrame) =>
    match u.src with
    | .queued e none f => { u with src := .queued e none (f.moved d) }
    | _ => u
  s.setLine p { x with up := { x.up with open_ := x.up.open_.map (fun e => (e.1, e.2.map move)) } }

/-- The due times in the lanes, and those of frames that have left them in part, moved with a step of the counter (R366). -/
def State.moveDue (s : State) (d : Int) : State :=
  let s : State := { s with sched := { s.sched with
    lanes := s.sched.lanes.map (fun x => (x.1, x.2.map (fun f => f.moved d))) } }
  (s.moveOpen d .portA).moveOpen d .portB

/-! ### Pattern commands (R368 to R372) -/

/-- The egress `PATTERN.SEL` names; beyond 133 there is none. -/
def State.patSel (s : State) : Nat := s.get Pg.PATTERN PATTERN.SEL

/-- BASE as written, in ns. -/
def State.patBase (s : State) : Nat :=
  (s.get Pg.PATTERN PATTERN.BASE_SEC_LO + s.get Pg.PATTERN PATTERN.BASE_SEC_HI * 2 ^ 32) * 10 ^ 9 + s.get Pg.PATTERN PATTERN.BASE_NS

/-- The first `n` entries of a bank. -/
def bankEntries (m : SMap (Nat × Nat)) (n : Nat) : List (Nat × Nat) := (List.range n).map (SMap.get (fun _ => (0, 0)) m)

/-- The start instant of R371: n and the instant in ns. -/
def patStart (cnt base cycle : Nat) : Nat × Nat :=
  let lim := cnt + 20000 * 2 ^ 40
  if lim ≤ base * 2 ^ 40 then (0, base)
  else
    let n := (lim - base * 2 ^ 40 + cycle * 2 ^ 40 - 1) / (cycle * 2 ^ 40)
    (n, base + n * cycle)

/-- COMMIT (R371, R372). -/
def State.patCommit (s : State) (e : Nat) : State :=
  let b := Pg.PATTERN
  let p := s.pattern e
  let len := s.get b PATTERN.LENGTH
  let cycle := s.get b PATTERN.CYCLE_NS
  let bad := fun (x : Nat × Nat) => decide (x.1 = 0) || decide (10 ^ 9 < x.1)
  if decide (len = 0) || decide (1024 < len) || (bankEntries p.standby len).any bad || decide (cycle = 0) || decide (10 ^ 9 < cycle)
  then ((s.setPattern e { p with err := true }).inc b PATTERN.PATTERN_ERRORS).evt b 10
  else
    match patStart s.clock.cnt s.patBase cycle with
    | (n, at_) =>
      let s := s.setPattern e { p with err := false, late := decide (0 < n), pending := some ⟨s.patBase, cycle, len, [], n, at_⟩ }
      if 0 < n then (s.inc b PATTERN.LATE_STARTS).evt b 8 else s

/-- A write of `PATTERN.CMD` (R371, R372): bit 0 is COMMIT, bit 1 ABORT. -/
def State.patternCmd (s : State) (src : Source) (val : Word) : State :=
  let a := Pg.PATTERN + PATTERN.CMD.off
  match s.accessReg src a true with
  | .rejected p r => s.refuse src p r true a
  | .ok _ =>
    if 133 < s.patSel then s
    else if val.toNat % 4 = 1 then s.patCommit s.patSel
    else if val.toNat % 4 = 2 then s.setPattern s.patSel { s.pattern s.patSel with pending := none }
    else s

/-- PATTERN_COMMIT (R371, R372). -/
def execPatternCommit (src : Source) (val : Word) (s : State) : Host.Outcome State Fault Refusal := .next (s.patternCmd src val)

/-- PATTERN_ABORT (R371). -/
def execPatternAbort (src : Source) (val : Word) (s : State) : Host.Outcome State Fault Refusal := .next (s.patternCmd src val)

/-- PATTERN_START (R371): the banks change places. -/
def execPatternStart (egress : Fin 134) (s : State) : Host.Outcome State Fault Refusal :=
  let p := s.pattern egress.val
  .next (
    match p.pending with
    | none => s
    | some g =>
      if s.clock.cnt < g.start * 2 ^ 40 then s
      else
        let act := { g with ents := bankEntries p.standby g.len }
        let c := cycleFrom act.cycle act.ents
        (s.setPattern egress.val { p with standby := p.bank, bank := p.standby, pending := none, active := some act, n := g.n,
                                          entry := entryAt c (act.offset (s.clock.cnt / 2 ^ 40)) }).evt Pg.PATTERN 9)

/-- PATTERN_ENTRY_ADVANCE (R369, R372): the entry that applies by the counter as it stands. -/
def execPatternEntryAdvance (egress : Fin 134) (s : State) : Host.Outcome State Fault Refusal :=
  let p := s.pattern egress.val
  .next (
    match p.active with
    | none => s
    | some a => s.setPattern egress.val { p with entry := entryAt (cycleFrom a.cycle a.ents) (a.offset (s.clock.cnt / 2 ^ 40)) })

/-- PATTERN_ENT_DATA_WRITE (R368): INTERVAL from word 0, GATES from the value written, packed in 30 and 8 bits; ENT_INDEX advances. -/
def execPatternEntDataWrite (src : Source) (val : Word) (s : State) : Host.Outcome State Fault Refusal :=
  let b := Pg.PATTERN
  let a := b + (PATTERN.ENT_DATA 1).off
  .next (match s.accessReg src a true with
    | .rejected p r => s.refuse src p r true a
    | .ok _ =>
      let s := s.storeReg a val
      let k := s.get b PATTERN.ENT_INDEX
      let s := s.set b PATTERN.ENT_INDEX (k + 1)
      let e := s.patSel
      if 133 < e then s
      else
        let p := s.pattern e
        let m := SMap.set (fun _ => (0, 0)) p.standby k (s.get b (PATTERN.ENT_DATA 0) % 2 ^ 30, val.toNat % 256)
        s.setPattern e { p with standby := m })

end Sys2Proof.Machine
end

