-- ==== Sys2Proof/Machine/Signal.lean ====
section
/-!
DEFINITION. Machine/Signal.lean: the signals of a line port as numbers: the sequence of R547 and the symbols made of it, the
constellations of R135, the FFT of the receive chain, the transmit chain of R145 to R149 and R158, the Fladon-1 receiver of
R156, and the loadings that the bit-loading kernel proposes (R143, R144).

The spec writes these chains as formulas of real numbers and gives their inner words no width.  They are worked here in
units of 2^-60, cosines and roots included, with each division rounded down (log entry 74).
-/

namespace Sys2Proof.Machine

/-! ### The sequence generator (R92, R212, R547) -/

/-- The next `n` outputs; bit 0 of `r` is the last bit formed, bit 10 the one formed ten before it. -/
def seqFrom : Nat → Nat → List Bool
  | 0, _ => []
  | n + 1, r =>
    let a := (r / 2 + r / 1024) % 2
    decide (a = 1) :: seqFrom n ((2 * r + a) % 2048)

/-- The first `n` outputs from the seed of all ones. -/
def seqBits (n : Nat) : List Bool := seqFrom n 2047

/-- +1 for a bit of 0 and −1 for a bit of 1. -/
def bpsk (b : Bool) : Int := if b then -1 else 1

/-- What the even subcarriers 16 to 1,918 of the sync symbol carry (R92), and subcarriers 24 to 923 of a training symbol
(R212). -/
def syncContent : List Int := (seqBits 952).map bpsk
def trainContent : List Int := (seqBits 900).map bpsk

/-! ### Numbers in units of 2^-60 -/

def unit60 : Nat := 2 ^ 60

/-- π in units of 2^-60, rounded down. -/
def pi60 : Int := 3622009729038561421

/-- The alternating sum of the cosine's series from its `n`th term on. -/
def cosTerms : Nat → Nat → Int → Int → Int
  | 0, _, _, _ => 0
  | k + 1, n, sq, t => t + cosTerms k (n + 2) sq (-(t * sq / (2 ^ 60 * ((n + 1) * (n + 2) : Nat))))

/-- Cosine and sine of `2 π i / n`. -/
def cosPart (i : Int) (n : Nat) : Int :=
  let a := 2 * pi60 * (i % n) / n
  cosTerms 24 0 (a * a / 2 ^ 60) 2 ^ 60
def sinPart (i : Int) (n : Nat) : Int := cosPart (4 * i - n) (4 * n)

/-- The greatest number below `r + 2^b` whose `n`th power does not exceed `x`, found bit by bit. -/
def rootBits (n x : Nat) : Nat → Nat → Nat
  | 0, r => r
  | b + 1, r => rootBits n x b (if (r + 2 ^ b) ^ n ≤ x then r + 2 ^ b else r)

/-- 1/√x. -/
def invSqrt (x : Nat) : Int := (Nat.sqrt (2 ^ 120 / x) : Nat)

/-- The fraction of log2 of `y`, at least 2^60 and below 2^61, in `n` bits. -/
def log2Bits : Nat → Nat → Nat
  | 0, _ => 0
  | n + 1, y =>
    let z := y * y / 2 ^ 60
    if 2 ^ 61 ≤ z then 2 ^ n + log2Bits n (z / 2) else log2Bits n z

/-- The power ratio n / d in units of 10^-6 dB, rounded down; of zero it is a free value. -/
def microDb (n d : Nat) : Int :=
  let x := n * 2 ^ 240 / d
  if x = 0 then Config.dbZero
  else
    let e := Nat.log2 x
    let l : Int := (e * 2 ^ 32 + log2Bits 32 (x * 2 ^ 60 / 2 ^ e) : Nat) - (240 * 2 ^ 32 : Nat)
    l * 30102999566398119521 / (2 ^ 32 * 10 ^ 13)

/-- The gain of a mask code: −c × 0.125 dB, and zero for code 255 (R146). -/
def maskGain (c : Nat) : Int := if c = 255 then 0 else (rootBits 160 (2 ^ 9600 / 10 ^ c) 61 0 : Nat)

/-! ### Constellations (R135) -/

/-- A point of a constellation: its levels, and the mean power that scales them. -/
structure QPoint where
  i : Int
  q : Int
  power : Nat
deriving DecidableEq, Repr

/-- The number that a Gray code spells, most significant bit first. -/
def grayNum : Bool → Nat → List Bool → Nat
  | _, n, [] => n
  | last, n, b :: bs => grayNum (last != b) (2 * n + (last != b).toNat) bs

/-- The level of an axis; all bits 0 give the greatest level, as b = 1 has it (log entry 74). -/
def axisLevel (bs : List Bool) : Int := if bs.isEmpty then 0 else 2 ^ bs.length - 1 - 2 * (grayNum false 0 bs : Nat)

/-- The point of a subcarrier's bits: the first half of them, rounded up, is the in-phase axis. -/
def qamPoint (bs : List Bool) : QPoint :=
  let n := (bs.length + 1) / 2
  let m := bs.length - n
  ⟨axisLevel (bs.take n), axisLevel (bs.drop n), (4 ^ n - 1) / 3 + (4 ^ m - 1) / 3⟩

/-- The points of a symbol: its coded bits fill its subcarriers in ascending order, each with its loading. -/
def mapBits : List (Nat × Nat) → List Bool → List (Nat × QPoint)
  | [], _ => []
  | (k, b) :: ks, bs =>
    let mine := (List.range b).map (fun i => bs.getD i false)
    (if b = 0 then [] else [(k, qamPoint mine)]) ++ mapBits ks (bs.drop b)

/-! ### Coded bits -/

/-- The bits of bytes, most significant first. -/
def bitsOfBytes (bs : List Byte) : List Bool := bs.flatMap (fun b => (List.range 8).map (fun i => b.getLsbD (7 - i)))

/-- A codeword of `n` coded bits: information bits, then parity bits of the mother code. -/
def ldpcWord (n : Nat) (info : List Bool) : List Bool :=
  (List.range n).map (fun i => if i < info.length then info.getD i false else Config.ldpcParity info (i - info.length))

/-- The coded bits of a payload: full codewords of `w` coded bits and `n` bytes, one shortened codeword where bytes are
left, and zero fill up to `total` bits (R213, R224). -/
def payloadBits (w n total : Nat) : Nat → List Byte → List Bool
  | 0, _ => []
  | k + 1, bs =>
    let head := if n ≤ bs.length then ldpcWord w (bitsOfBytes (bs.take n))
      else if bs.isEmpty then List.replicate total false
      else ldpcWord (8 * bs.length + 2688) (bitsOfBytes bs)
    head.take total ++ payloadBits w n (total - head.length) k (bs.drop n)

/-- `n` alternating bits, starting with 1. -/
def alternating (n : Nat) : List Bool := (List.range n).map (fun i => decide (i % 2 = 0))

/-! ### The transmit chain (R145 to R149, R158, R211, R224) -/

/-- Training symbols or blocks, header and payload as points, by symbol after the lead (R211, R212, R214). -/
def TxChain.points (t : TxChain) (sym : Nat) : List (Nat × QPoint) :=
  let data := (List.range 900).map (fun i => (i + 24, 1))
  if sym < t.npre then mapBits data (seqBits 900)
  else if sym = t.npre then mapBits data (ldpcWord 900 (bitsOfBytes t.header))
  else
    let b := (t.load.map (fun x => x.2)).sum
    let p := t.len - t.lead - t.npre - 1
    mapBits t.load ((payloadBits 17280 1824 (p * b) (p * b / 17280 + 2) t.payload).drop ((sym - t.npre - 1) * b))

/-- The gain of a subcarrier (R146): the mask's, or 0 dB with MASK_EN at 0. -/
def TxChain.gain (t : TxChain) (k : Nat) : Int :=
  match t.mask with
  | some m => maskGain (m.getD (k - 24) 0)
  | none => 2 ^ 60

/-- The spectrum of a symbol (R145, R146), in units of 2^-60: the mapper's points with their gains, and their complex
conjugates from 1,025 on; a subcarrier that is not listed is zero. -/
def TxChain.spectrum (t : TxChain) (sym : Nat) : List (Nat × Int × Int) :=
  let low := (t.points sym).map (fun x =>
    let g := t.gain x.1 * invSqrt x.2.power / 2 ^ 60
    (x.1, x.2.i * g, x.2.q * g))
  low ++ low.map (fun x => (2048 - x.1, x.2.1, -x.2.2))

/-- A sample of a symbol, prefix first (R145), in codes and units of 2^-60: with every data subcarrier at unit power the
RMS is 24 codes. -/
def TxChain.symSample (t : TxChain) (sym i : Nat) : Int :=
  let m : Int := (i : Int) - 32
  let sum := ((t.spectrum sym).map (fun x =>
    (x.2.1 * cosPart (x.1 * m) 2048 - x.2.2 * sinPart (x.1 * m) 2048) / 2 ^ 60)).sum
  24 * sum * invSqrt 1800 / 2 ^ 60

/-- The bits of a Fladon-1 burst after its lead (R224). -/
def TxChain.blockBits (t : TxChain) : List Bool :=
  let delim : List Byte := [0xD3, 0xA5, 0x1C, 0x8E, 0x7B, 0x20, 0xF4, 0x69]
  let p := t.len - t.lead - t.npre - 1
  alternating (832 * t.npre) ++ bitsOfBytes (delim ++ t.header ++ t.header) ++ alternating 576
    ++ payloadBits 16000 1664 (832 * p) (832 * p / 16000 + 2) t.payload

/-- The raised cosine of roll-off 0.5, `d` tenths of a bit from the middle of its bit (R158). -/
def raisedCosine (d : Int) : Int :=
  if d = 0 then 2 ^ 60
  else if d % 10 = 0 then 0
  else
    let sinc := sinPart d 20 * 10 * 2 ^ 60 / (pi60 * d)
    sinc * cosPart d 40 / 2 ^ 60 * 100 / (100 - d * d)

/-- A sample of a Fladon-1 burst, `i` DAC samples after the end of its lead (R158): 2.5 samples a bit, bit 0 at −48 codes
and bit 1 at +48. -/
def TxChain.nrzSample (t : TxChain) (i : Nat) : Int :=
  ((t.blockBits.zipIdx).map (fun x =>
    (if x.1 then 48 else -48) * raisedCosine (4 * (i : Int) - 10 * (x.2 : Int) - 5))).sum

/-- The sample stream into the FIR (R152, R211): zero during the lead and outside the burst. -/
def TxChain.stream (t : TxChain) (n : Int) : Int :=
  let i := n.toNat - 2080 * t.lead
  if n < (2080 * t.lead : Nat) ∨ (2080 * t.len : Nat) ≤ n then 0
  else if t.gen1 then t.nrzSample i
  else t.symSample (i / 2080) (i % 2080)

/-- The FIR's output, which is the DPD's input (R147): `FIR_TAP` has 14 fraction bits. -/
def TxChain.fir (t : TxChain) (n : Int) : Int :=
  match t.taps with
  | none => t.stream n
  | some ts => ((ts.zipIdx).map (fun x => x.1 * t.stream (n - x.2))).sum / 2 ^ 14

/-- Order k and memory tap m of coefficient `i` of the DPD (R148). -/
def dpdTerms : List (Nat × Nat) :=
  [(1, 0), (1, 1), (1, 2), (1, 3), (1, 4), (2, 0), (2, 1), (2, 2), (3, 0), (3, 1), (3, 2), (4, 0), (4, 1), (5, 0), (5, 1)]

/-- The analytic signal of the DPD's input, by its 31-tap Hilbert filter (R148). -/
def TxChain.analytic (t : TxChain) (n : Int) : Int × Int :=
  (t.fir (n - 15), ((List.range 31).map (fun i => Config.hilbertTap i * t.fir (n - i))).sum / 2 ^ 60)

/-- |x| in units of 2^-60. -/
def magnitude (x : Int × Int) : Int := (Nat.sqrt (x.1 * x.1 + x.2 * x.2).toNat : Nat)

/-- The DPD's output (R148): with DPD_EN at 0 it is its input 15 samples before. -/
def TxChain.dpd (t : TxChain) (n : Int) : Int :=
  match t.coefs with
  | none => t.fir (n - 15)
  | some cs =>
    ((dpdTerms.zip cs).map (fun x =>
      let a := t.analytic (n - x.1.2)
      let r := magnitude a * Config.dpdUnit / 2 ^ 60
      let w := (List.replicate (x.1.1 - 1) r).foldl (fun w r => w * r / 2 ^ 60) (2 ^ 60 : Int)
      (x.2.1 * a.1 - x.2.2 * a.2) * w / 2 ^ 60)).sum / 2 ^ 13

/-- The code of a DAC sample before saturation (R149): the nearest.  The sample scheduled at `n` leaves the DPD 15 samples
later, which DAC_LAT counts. -/
def TxChain.code (t : TxChain) (n : Nat) : Int := (2 * t.dpd (n + 15) + 2 ^ 60) / 2 ^ 61

/-- The DAC's sample at scheduled index S0 + `n`, and whether it saturated (R149); zero once LA_BEN is deasserted (R152). -/
def TxChain.dac (t : TxChain) (n : Nat) : Int := if n < t.samples then max (-128) (min 127 (t.code n)) else 0
def TxChain.clipped (t : TxChain) (n : Nat) : Bool := decide (t.code n < -128) || decide (127 < t.code n)

/-- Saturated samples among the first `n` (R149). -/
def TxChain.clips (t : TxChain) (n : Nat) : Nat := ((List.range (min n t.samples)).filter t.clipped).length

/-- The DPD input samples of a transmit-monitor capture (R151): 65,536 from OFFSET symbols after the first preamble
sample on, in codes. -/
def TxChain.monitor (t : TxChain) (offset : Nat) : List Int :=
  (List.range 65536).map (fun i => (2 * t.fir ((t.lead + offset) * 2080 + i : Nat) + 2 ^ 60) / 2 ^ 61)

/-! ### The receive chain (R130 to R135, R156) -/

/-- The output of the 4,096-point FFT on a subcarrier of a symbol (R130): the window begins at sample 32 of the prefix.  In
units of 2^-16 of an ADC code. -/
def fftAt (samples : List Int) (k : Nat) : Int × Int :=
  let w := ((samples.drop 32).take 4096).zipIdx
  ((w.map (fun x => x.1 * cosPart (k * x.2) 4096)).sum / 2 ^ 44, -(w.map (fun x => x.1 * sinPart (k * x.2) 4096)).sum / 2 ^ 44)

/-- The raw estimates of the data subcarriers 16 to 1,919 from a sync symbol (R92, R131). -/
def rawEstimates (samples : List Int) : List (Int × Int) :=
  let even := (syncContent.zipIdx).map (fun x =>
    let y := fftAt samples (16 + 2 * x.2)
    (x.1 * y.1, x.1 * y.2))
  (List.range 1904).map (fun i =>
    let a := even.getD (i / 2) (0, 0)
    if i % 2 = 0 ∨ i = 1903 then a
    else
      let b := even.getD (i / 2 + 1) (0, 0)
      (divFree 131 (a.1 + b.1) 2, divFree 131 (a.2 + b.2) 2))

/-- A soft value held to 6 bits, signed (R134, R156). -/
def soft6 (v : Int) : Int := max (-32) (min 31 v)

/-- An equalised value: the FFT output over the estimate, in units of 2^-16 (R131). -/
def equalised (y e : Int × Int) : Int × Int :=
  let d := e.1 * e.1 + e.2 * e.2
  (divFree 131 ((y.1 * e.1 + y.2 * e.2) * 2 ^ 16) d, divFree 131 ((y.2 * e.1 - y.1 * e.2) * 2 ^ 16) d)

/-- The soft value of bit `i` of a subcarrier with loading `b` (R132, R134): scaled by the inverse of the noise variance. -/
def softBit (b i : Nat) (z : Int × Int) (noise : Nat) : Int := soft6 (divFree 132 (Config.softDistance b i z) noise)

/-- One bit of the Fladon-1 receiver (R156): sample, equalised sample and decision; the FFE and the DFE move by sign-error
LMS with the step given. -/
def Nrz.bit (r : Nrz) (mu : Nat) (x : Int) : Int × Int × Nrz :=
  let xs := (x :: r.xs).take 31
  let y := ((r.ffe.zip xs).map (fun p => p.1 * p.2)).sum / 2 ^ 30 - ((r.dfe.zip r.ds).map (fun p => p.1 * p.2)).sum / 2 ^ 30
  let d := if 0 ≤ y then (Config.nrzLevel : Int) else -Config.nrzLevel
  let sgn : Int := if 0 ≤ y - d then 1 else -1
  let ffe := (r.ffe.zip xs).map (fun p => p.1 - sgn * p.2 * 2 ^ 30 / 2 ^ (8 + mu))
  let dfe := (r.dfe.zip (r.ds ++ [0, 0, 0])).map (fun p => p.1 + sgn * p.2 * 2 ^ 30 / 2 ^ (8 + mu))
  -- Mueller and Müller's timing error: the last decision times this sample, less this decision times the last sample
  let e := r.ds.headD 0 * y - d * r.y
  (y, d, ⟨ffe, dfe, xs, (d :: r.ds).take 3, y, r.phase + Config.timingGain * e⟩)

/-- The bits of a codeword through the receiver: equalised samples, the squared slicer errors, and the receiver after it. -/
def Nrz.run (mu : Nat) (adc : List Int) : Nat → Nat → Nrz → List Int × List Int × Nrz
  | 0, _, r => ([], [], r)
  | k + 1, i, r =>
    let b := r.bit mu (Config.resample adc r.phase i)
    let t := Nrz.run mu adc k (i + 1) b.2.2
    (b.1 :: t.1, (b.1 - b.2.1) ^ 2 :: t.2.1, t.2.2)

/-- The soft values of `n` bits (R156): distance from the threshold, scaled by the inverse of the mean squared slicer
error, held to 6 bits. -/
def Nrz.soft (r : Nrz) (mu : Nat) (adc : List Int) (n : Nat) : List Int × Nrz :=
  let t := Nrz.run mu adc n 0 r
  let mse := divFree 156 t.2.1.sum n
  (t.1.map (fun y => soft6 (divFree 156 (Config.nrzScale * y) mse)), t.2.2)

/-- Bits whose hard decision changed: a soft value below 0 is a 1 (R139). -/
def changedBits (soft : List Int) (word : List Bool) : Nat :=
  ((soft.zip word).filter (fun x => decide (x.1 < 0) != x.2)).length

/-- Bit errors of a received Fladon-1 sync word (R120, R121). -/
def syncWordErrors (w : BitVec 64) : Nat :=
  let x := w ^^^ (0x4F1BC2E60D79A835 : BitVec 64)
  ((List.range 64).filter (fun i => x.getLsbD i)).length

/-! ### Bit-loading proposals (R143, R144) -/

/-- Required SNR of each loading from 1 on, in 0.1 dB (R143). -/
def requiredSnr : List Int := [48, 78, 112, 140, 172, 200, 231, 260, 291, 320]
def snrOf (b : Nat) : Int := if b = 0 then 0 else requiredSnr.getD (b - 1) 0

/-- The largest loading, at most `top`, whose required SNR plus the margin does not exceed the SNR. -/
def bestLoading (top : Nat) (margin snr : Int) : Nat :=
  (List.range (top + 1)).foldl (fun best b => if 0 < b ∧ snrOf b + margin ≤ snr then b else best) 0

/-- The loaded subcarrier with the least spare SNR, the lowest of them (R144). -/
def leastSpare (margin : Int) (snr : List Int) (load : List Nat) : Option Nat :=
  let spare := fun (i : Nat) => snr.getD i 0 - margin - snrOf (load.getD i 0)
  (List.range load.length).foldl (fun best i =>
    if load.getD i 0 = 0 then best
    else match best with
      | none => some i
      | some j => if spare i < spare j then some i else some j) none

/-- Bits taken one at a time until the loading fits `limit` bits per symbol (R144). -/
def fitLoading (limit : Nat) (margin : Int) (snr : List Int) : Nat → List Nat → List Nat
  | 0, load => load
  | k + 1, load =>
    if load.sum ≤ limit then load
    else match leastSpare margin snr load with
      | none => load
      | some i => fitLoading limit margin snr k (load.set i (load.getD i 0 - 1))

/-- The loading proposed (R143, R144): at most `top` bits a subcarrier and `limit` bits a symbol. -/
def proposal (top limit : Nat) (margin : Int) (snr : List Int) : List Nat :=
  let load := snr.map (bestLoading top margin)
  fitLoading limit margin snr (load.sum - limit) load

end Sys2Proof.Machine
end

