-- ==== Sys2Proof/Machine/LineCore.lean ====
section
/-!
DEFINITION. Machine/LineCore.lean: what the chapters of the line ports share: the parts of a port, its streams and
receive buffer, grants and bursts given up, short messages, the registration states, and the downstream defects.
-/

namespace Sys2Proof.Machine

/-! ### Parts of a port -/

/-- The downstream framer of a port, and the same replaced. -/
def State.down (s : State) (p : Port) : Down := (s.line p).down
def State.setDown (s : State) (p : Port) (d : Down) : State := s.setLine p { s.line p with down := d }

/-- The modem of a port, and the same replaced. -/
def State.modem (s : State) (p : Port) : Modem := (s.line p).modem
def State.setModem (s : State) (p : Port) (m : Modem) : State := s.setLine p { s.line p with modem := m }

/-- The upstream framer of a port, and the same replaced, with GSTORE (R204): a grant counts until its burst begins. -/
def State.up (s : State) (p : Port) : Up := (s.line p).up
def State.setUp (s : State) (p : Port) (u : Up) : State :=
  (s.setLine p { s.line p with up := u }).set (Pg.LFR p) LFR0.US_STAT_GSTORE (u.store.length + u.drawn.length)

/-- What firmware keeps of the registration of a port, and the same replaced. -/
def State.rg (s : State) (p : Port) : Reg := (s.line p).reg
def State.setRg (s : State) (p : Port) (r : Reg) : State := s.setLine p { s.line p with reg := r }

/-- The timers of the line ports. -/
def Tm.acquire (p : Port) : Nat := 40 + p.num
def Tm.lss (p : Port) : Nat := 42 + p.num
def Tm.announce (p : Port) : Nat := 44 + p.num
def Tm.range (p : Port) : Nat := 46 + p.num
def Tm.prove (p : Port) : Nat := 48 + p.num
def Tm.hold (p : Port) : Nat := 50 + p.num
def Tm.leave (p : Port) : Nat := 52 + p.num
def Tm.resend (p : Port) : Nat := 54 + p.num
def Tm.wtr : Nat := 56
def Tm.holdoff : Nat := 57

/-- Whether defects are evaluated and the receive path works (R553). -/
def State.lineOn (s : State) (p : Port) : Bool :=
  s.fnIs (.line p) .castingOn || s.fnIs (.line p) .running || s.fnIs (.line p) .bindingOff

/-- Whether a port runs Fladon-1 (R123). -/
def State.gen1 (s : State) (p : Port) : Bool := s.bit (Pg.LFR p) LFR0.DS_CTRL_GEN

/-- Clock recovery states, as `RX_STAT.CDR` encodes them (R128), and alignment states (R115). -/
def cdrFree : Nat := 0
def cdrAcquire : Nat := 1
def cdrTrack : Nat := 2
def cdrLocked : Nat := 3
def alSeek : Nat := 0
def alConfirm : Nat := 1
def alLocked : Nat := 2
def State.cdr (s : State) (p : Port) : Nat := s.get (Pg.LINE p) LINE0.RX_STAT_CDR
def State.align (s : State) (p : Port) : Nat := s.get (Pg.LFR p) LFR0.DS_STAT_ALIGN

/-- An event that a page sets at most once for each value of a frame count. -/
def State.evtOnce (s : State) (base b n : Nat) : State :=
  let k := base / 0x1000 * 32 + b
  if SMap.get (fun _ => none) s.evtAt k = some n then s
  else ({ s with evtAt := SMap.set (fun _ => none) s.evtAt k (some n) } : State).evt base b

/-! ### Streams and the receive buffer (R98, R110, R113) -/

/-- A delineator's code in `DS_STAT.DELIN`. -/
def Delin.code : Delin → Nat
  | .hunt => 0
  | .presync => 1
  | .sync => 2
  | .anchored => 3

/-- A stream of a port, and the same replaced, with its bits of DELIN. -/
def State.stream (s : State) (p : Port) (k : Nat) : Stream := SMap.get (fun _ => Stream.off) (s.down p).streams k
def State.setStream (s : State) (p : Port) (k : Nat) (x : Stream) : State :=
  (s.setDown p { s.down p with streams := SMap.set (fun _ => Stream.off) (s.down p).streams k x }).set (Pg.LFR p)
    ⟨LFR0.DS_STAT.off, 16 + 2 * k, 2⟩ x.st.code

/-- The stream position after the last byte received, and after the last byte laid out. -/
def Stream.received (x : Stream) : Nat := x.base + (x.chunks.map Chunk.len).sum
def Stream.top (x : Stream) : Nat :=
  match x.segs.getLast? with
  | some g => max x.received (g.start + g.len)
  | none => x.received + (x.layout.map (fun c => c.info - c.ctrl)).sum

/-- Bytes of a run of chunks from `base` on: none when they have not all been received, `some none` when one is erased. -/
def readChunks : List Chunk → Nat → Nat → Nat → Option (Option (List Byte))
  | _, _, _, 0 => some (some [])
  | [], _, _, _ + 1 => none
  | c :: cs, base, pos, n + 1 =>
    if base + c.len ≤ pos then readChunks cs (base + c.len) pos (n + 1)
    else
      let k := min (n + 1) (base + c.len - pos)
      match readChunks cs (base + c.len) (pos + k) (n + 1 - k), c.data with
      | none, _ => none
      | some (some r), some d => some (some ((d.drop (pos - base)).take k ++ r))
      | some _, _ => some none

/-- Bytes of a stream, as `readChunks` gives them. -/
def Stream.bytes (x : Stream) (pos n : Nat) : Option (Option (List Byte)) := readChunks x.chunks x.base pos n

/-- Whether a delineated frame's bytes have all been received. -/
def Stream.whole (x : Stream) (f : DFrame) : Bool := decide (f.at_ + 8 + bitsOf f.feh 50 14 ≤ x.received)

/-- Units of 64 bytes of the receive buffer that a frame or a fragment takes (R113). -/
def rxUnits (len : Nat) : Nat := (8 + len + 63) / 64

/-- Space of the receive buffer reserved, if there is room (R113). -/
def State.rxReserve (s : State) (p : Port) (units : Nat) : Bool × State :=
  let b := Pg.LFR p
  let fill := s.get b LFR0.RXBUF_FILL + units
  if fill ≤ 65536 then (true, (s.set b LFR0.RXBUF_FILL fill).set b LFR0.RXBUF_PEAK (max fill (s.get b LFR0.RXBUF_PEAK)))
  else (false, s)

/-- A piece that finds no room: counted and signalled (R114). -/
def State.rxOverflow (s : State) (p : Port) (len : Nat) : State :=
  let b := Pg.LFR p
  ((s.inc b LFR1.RXOVF_FRAMES).add64 b LFR1.RXOVF_BYTES_LO len).evt b 17

/-- Held frames given up, their space released. -/
def State.releaseHeld (s : State) (p : Port) (x : Stream) : State := s.rxRelease p ((x.held.map DFrame.units).sum)

/-- The held frames of a stream that are kept, those that found no room apart. -/
def Stream.keptHeld (x : Stream) : Nat := (x.held.filter (fun f => !f.gone)).length

/-- A delineator sent to HUNT because alignment left LOCKED or the stream was disabled: held and partial frames dropped
and counted in ERASED, and the entry to HUNT in HUNTS (R101, R110, R125). -/
def State.dropStream (s : State) (p : Port) (k : Nat) (on : Bool) : State :=
  let x := s.stream p k
  let keep := x.ready.filter x.whole
  let partly := x.ready.filter (fun f => !x.whole f)
  let n := x.keptHeld + (partly.filter (fun f => !f.gone)).length + (if x.ctx.isSome then 1 else 0)
  let s := s.rxRelease p (((x.held ++ partly).map DFrame.units).sum + (x.ctx.map Reasm.units).getD 0)
  let y : Stream := { x with on := on, st := .hunt, q := x.top, cand := 0, confirms := 0, miss := 0, waitAnchor := false }
  let s := (s.setStream p k { y with held := [], ready := keep, ctx := none }).addCnt (Pg.LFR p) (LFR1.PSTAT_ERASED k) n
  if x.st = .hunt then s else s.inc (Pg.LFR p) (LFR1.PSTAT_HUNTS k)

/-- Every enabled stream of a port sent to HUNT. -/
def State.dropStreams (s : State) (p : Port) : State :=
  (List.range 8).foldl (fun s k => if (s.stream p k).on then s.dropStream p k true else s) s

/-! ### Encapsulation headers (R104, R105) and CRC-16 (R546) -/

/-- CRC-16 of a Fladon structure over whole bytes (R546). -/
def crc16 (bs : List Byte) : Nat := Crypto.crcM 16 0x1021 0xFFFF bs

/-- Remainder of a polynomial of `n` coefficients, times x^13, by x^13 + x^4 + x^3 + x + 1. -/
def fehRem : Nat → Nat → Nat → Nat
  | 0, _, r => r
  | n + 1, v, r =>
    let top := r / 4096 % 2
    let r := 2 * r % 8192
    fehRem n v (if top = v / 2 ^ n % 2 then r else r ^^^ 0x1B)

/-- CHECK of the 51 bits above it (R105). -/
def fehCheck (v : Nat) : Nat := fehRem 51 v 0 ^^^ 0x0B2D

/-- Whether an FEH is valid (R105). -/
def fehValid (feh : Nat) : Bool := decide (feh % 8192 = fehCheck (feh / 8192 % 2 ^ 51))

/-- Fields of an FEH (R104). -/
def fehLength (feh : Nat) : Nat := bitsOf feh 50 14
def fehDest (feh : Nat) : Nat := bitsOf feh 38 12
def fehPort (feh : Nat) : Nat := bitsOf feh 22 16
def fehKey (feh : Nat) : Nat := bitsOf feh 20 2
def fehFrag (feh : Nat) : Nat := bitsOf feh 18 2
def fehTunnel (feh : Nat) : Bool := decide (bitsOf feh 14 1 = 1)
def fehCe (feh : Nat) : Bool := decide (bitsOf feh 13 1 = 1)
def fehIdle (feh : Nat) : Bool := decide (fehDest feh = 0) && decide (fehLength feh = 0)

/-- An FEH built (R218). -/
def mkFeh (len dest port key frag : Nat) (tunnel ce : Bool) : Nat :=
  let v := len % 2 ^ 14 * 2 ^ 37 + dest % 2 ^ 12 * 2 ^ 25 + port % 2 ^ 16 * 2 ^ 9 + key % 4 * 2 ^ 7 + frag % 4 * 2 ^ 5
    + (if tunnel then 2 else 0) + (if ce then 1 else 0)
  v * 8192 + fehCheck v

/-! ### Grants and bursts given up (R208 to R210) -/

/-- A frame whose burst was inhibited, cut or discarded after its draw closed (R208, R426). -/
def State.lostFrame (s : State) (u : UpFrame) : State :=
  match u.src with
  | .fw _ => s
  | .queued _ _ f => s.dropPkt f.c.pkt Snd.lineLost

/-- A frame already drawn, wherever it is, changed: open in its slot, or with its last byte in a burst. -/
def State.changeFrame (s : State) (p : Port) (id : Nat) (f : UpFrame → UpFrame) : State :=
  let one := fun (u : UpFrame) => if u.id = id then f u else u
  let burst := fun (b : Burst) => { b with done := b.done.map one }
  let u := s.up p
  s.setUp p { u with
    open_ := u.open_.map (fun x => (x.1, x.2.map one))
    drawn := u.drawn.map burst
    burst := u.burst.map burst }

/-- A burst that is not sent or not sent whole, counted under `F`: its frames are lost, and the frame it left open is
lost when its last fragment goes. -/
def State.lostBurst (s : State) (p : Port) (F : Fld) (b : Burst) : State :=
  let t := b.done.foldl State.lostFrame (s.inc (Pg.LFR p) F)
  match b.openId with
  | some id => t.changeFrame p id (fun u => { u with lost := true })
  | none => t

/-- The burst in progress ended early (R208); the DAC samples that had left count in DAC_CLIP (R149). -/
def State.cutBurst (s : State) (p : Port) : State :=
  match (s.up p).burst with
  | none => s
  | some b =>
    let s := s.setUp p { s.up p with burst := none }
    let s := (s.setModem p { s.modem p with txmonBurst := none }).setPin (Pin.ben p) false
    let s := match b.chain with
      | some t => s.takeFree.addCnt (Pg.LINE p) LINE3.DAC_CLIP (t.clips (Config.cutPoint s.free % (t.samples + 1)))
      | none => s
    (s.lostBurst p LFR1.BURST_CUT b).evt (Pg.LFR p) 24

/-- Every grant whose LA_BEN assertion has not begun discarded, each counted under `F`. -/
def State.discardGrants (s : State) (p : Port) (F : Fld) : State :=
  let u := s.up p
  u.drawn.foldl (fun s b => s.lostBurst p F b) ((s.setUp p { u with store := [], drawn := [] }).addCnt (Pg.LFR p) F u.store.length)

/-- An open fragment dropped: its frame returns to the head of its queue (R210). -/
def State.returnOpen (s : State) (p : Port) (slot : Nat) : State :=
  match SMap.get (fun _ => none) (s.up p).open_ slot with
  | none => s
  | some u =>
    let s := s.setUp p { s.up p with open_ := SMap.set (fun _ => none) (s.up p).open_ slot none }
    match u.src with
    | .fw plain => s.setUp p { s.up p with tunnelQ := plain :: (s.up p).tunnelQ }
    | .queued e none f => s.setLane e (f :: s.lane e)
    | .queued _ (some q) f => s.setQueue q (f :: s.queue q)

/-- VALID of an allocation slot cleared (R210). -/
def State.allocClear (s : State) (p : Port) (slot : Nat) : State :=
  let b := Pg.LFR p
  if s.bit b (LFR0.ALLOC_VALID slot) then
    let s := s.set b (LFR0.ALLOC_VALID slot) 0
    let u := s.up p
    let mine := fun (g : Grant) => decide (g.slot = some slot)
    let lost := u.drawn.filter (fun d => mine d.grant)
    let s := s.setUp p { u with store := u.store.filter (fun g => !mine g), drawn := u.drawn.filter (fun d => !mine d.grant) }
    let s := s.addCnt b LFR1.GRANT_NOT_PERMITTED (u.store.filter mine).length
    (lost.foldl (fun s d => s.lostBurst p LFR1.GRANT_NOT_PERMITTED d) s).returnOpen p slot
  else s

/-- Every allocation slot of a port cleared. -/
def State.allocClearAll (s : State) (p : Port) : State := (List.range 64).foldl (fun s i => s.allocClear p i) s

/-! ### Messages of firmware (R228, R230, R231) -/

/-- A tunnel message's bytes: TYPE, SEQ, LENGTH and body (R230). -/
def tunnelMsg (type seq : Nat) (body : List Byte) : List Byte :=
  [BitVec.ofNat 8 type, BitVec.ofNat 8 seq] ++ beBytes 2 body.length ++ body

/-- The device's address on a port as messages carry it (R228). -/
def State.lineAddr (s : State) (p : Port) : Nat :=
  if s.bit (Pg.LFR p) (LFR0.ADDR_VALID 0) then s.get (Pg.LFR p) (LFR0.ADDR_ADDR 0) else 0

/-- A short message's bytes (R228). -/
def shortMsg (type seq addr : Nat) (body : List Byte) : List Byte :=
  let m := [BitVec.ofNat 8 type, BitVec.ofNat 8 seq] ++ beBytes 2 (addr % 4096) ++ padTo 56 body
  m ++ leBytes 4 (Crypto.crc32 m)

/-- The next SEQ of a TYPE that firmware sends, taken. -/
def State.nextSeq (s : State) (p : Port) (type : Nat) : Nat × State :=
  let r := s.rg p
  let n := SMap.get (fun _ => 0) r.seqs type
  (n, s.setRg p { r with seqs := SMap.set (fun _ => 0) r.seqs type ((n + 1) % 256) })

/-- A short message queued for the next management slot (R222). -/
def State.queueShort (s : State) (p : Port) (m : List Byte) : State := s.setUp p { s.up p with mgmtQ := (s.up p).mgmtQ ++ [m] }

/-- A tunnel message queued. -/
def State.queueTunnel (s : State) (p : Port) (m : List Byte) : State :=
  s.setUp p { s.up p with tunnelQ := (s.up p).tunnelQ ++ [m] }

/-- A short message of firmware built with its next SEQ. -/
def State.buildShort (s : State) (p : Port) (type : Nat) (body : List Byte) : List Byte × State :=
  let r := s.nextSeq p type
  (shortMsg type r.1 (s.lineAddr p) body, r.2)

/-- A short message of firmware built and queued. -/
def State.sendShort (s : State) (p : Port) (type : Nat) (body : List Byte) : State :=
  let r := s.buildShort p type body
  r.2.queueShort p r.1

/-- An unsolicited message repeated every 50 ms until its answer arrives (R231). -/
def State.repeatUnsol (s : State) (p : Port) (type seq : Nat) (tunnel : Bool) (m : List Byte) : State :=
  (s.setRg p { s.rg p with unsol := (s.rg p).unsol ++ [⟨type, seq, tunnel, m, 1⟩] }).startTimer (Tm.resend p) (50 * ms)

/-- An unsolicited message sent for the first time: a short one in its turn or, `first`, in the next management slot; or a
tunnel one. -/
def State.sendUnsol (s : State) (p : Port) (type : Nat) (first : Bool) (body : List Byte) : State :=
  let r := s.nextSeq p type
  let m := shortMsg type r.1 (s.lineAddr p) body
  let t := if first then r.2.setUp p { r.2.up p with mgmtQ := m :: (r.2.up p).mgmtQ } else r.2.queueShort p m
  t.repeatUnsol p type r.1 false m
def State.sendUnsolTunnel (s : State) (p : Port) (type : Nat) (body : List Byte) : State :=
  let r := s.nextSeq p type
  let m := tunnelMsg type r.1 body
  (r.2.queueTunnel p m).repeatUnsol p type r.1 true m

/-- Loading nibbles packed, the lower subcarrier in the high nibble of its byte (R234). -/
def packNibbles : List Nat → List Byte
  | a :: b :: xs => BitVec.ofNat 8 (16 * a + b) :: packNibbles xs
  | [a] => [BitVec.ofNat 8 (16 * a)]
  | [] => []

/-- A loading proposed to the head end (R144, R231, R234), in PROVE and WORK (R230): DIR, a byte, and the loading. -/
def State.sendProposal (s : State) (p : Port) (up : Bool) (load : List Nat) : State :=
  if decide (s.regSt p = RegSt.prove) || s.inWork p then
    s.sendUnsolTunnel p 0xC2 ([if up then 1 else 0, 0] ++ packNibbles load)
  else s

/-- The raw estimate and the estimate in force of a data subcarrier, and its noise variance: an odd subcarrier takes the larger
of its neighbours', subcarrier 1,919 what 1,918 has (R131, R132). -/
def Modem.rawAt (m : Modem) (k : Nat) : Int × Int := m.raw.getD (k - 16) (0, 0)
def Modem.estAt (m : Modem) (k : Nat) : Int × Int := m.est.getD (k - 16) (0, 0)
def Modem.noiseAt (m : Modem) (k : Nat) : Nat :=
  let e := fun (j : Nat) => m.noise.getD ((j - 16) / 2) 0
  if k % 2 = 0 then e k else if k = 1919 then e 1918 else max (e (k - 1)) (e (k + 1))

/-! ### Registration states (R235 to R241) -/

/-- The kinds of grant the port may answer (R236). -/
def State.setServe (s : State) (p : Port) (disc rang data : Nat) : State :=
  let b := Pg.LFR p
  ((s.set b LFR0.US_CTRL_SERVE_DISCOVERY disc).set b LFR0.US_CTRL_SERVE_RANGING rang).set b LFR0.US_CTRL_SERVE_DATA data

/-- FLAGS of the TREE_PARAMS received: PROVE_REQUIRED and KEYS_REQUIRED. -/
def Reg.flags (r : Reg) : Nat := (r.params.map (fun m => msgField m 0x0E 1)).getD 0
def Reg.proveRequired (r : Reg) : Bool := decide (r.flags % 2 = 1)
def Reg.keysRequired (r : Reg) : Bool := decide (r.flags / 2 % 2 = 1)

/-- A new delay D drawn and the ANNOUNCE that carries it queued for discovery grants (R240). -/
def State.newAnnounce (s : State) (p : Port) : State :=
  let r := s.rg p
  let spread := (r.params.map (fun m => msgField m 0x0C 2)).getD 0
  let d := Config.discoveryDraw s.free % (spread + 1)
  let s := (s.takeFree.setRg p { r with delay := d }).set (Pg.LFR p) LFR0.US_EQD (2080 * d)
  let caps := 1 + (if s.feat 14 then 2 else 0) + (if Config.f2Fitted p.num then 4 else 0)
  let body := s.serial ++ Crypto.shake256 16 s.identityKey ++ beBytes 2 d
    ++ [BitVec.ofNat 8 caps, BitVec.ofNat 8 (max 2 (s.get (Pg.LINE p) LINE1.TX_ENV_LEAD_SYMS))]
    ++ beBytes 4 ((s.boot.fw.map ImgInfo.version).getD 0)
  let m := s.buildShort p 0x81 body
  m.2.setUp p { m.2.up p with announce := some m.1 }

/-- The RANGING_RESPONSE kept queued for ranging grants (R236). -/
def State.newRangingResp (s : State) (p : Port) : State :=
  let m := s.buildShort p 0x82 s.serial
  m.2.setUp p { m.2.up p with rangingResp := some m.1 }

/-- `REG_STAT.WORKING` of both ports (R252, R263). -/
def State.refreshWorking (s : State) : State :=
  let role := fun (p : Port) =>
    if s.dual.mode = 2 then decide (s.dual.working = p)
    else s.inWork p && (decide (s.dual.mode = 1) || decide (s.dual.primary = p))
  (s.setBit (Pg.LFR .portA) LFR2.REG_STAT_WORKING (role .portA)).setBit (Pg.LFR .portB) LFR2.REG_STAT_WORKING (role .portB)

/-- STATE of a port changed: REG_CHANGE, and the timers of the state left stopped (R237). -/
def State.setReg (s : State) (p : Port) (st : Nat) : State :=
  if s.regSt p = st then s
  else
    let s := (((s.stopTimer (Tm.announce p)).stopTimer (Tm.range p)).stopTimer (Tm.prove p)).stopTimer (Tm.hold p)
    (s.set (Pg.LFR p) LFR2.REG_STAT_STATE st).evt (Pg.LFR p) 25

/-- What entry to LISTEN and entry to MUTE have in common (R236): the address, the allocations, the assured rates and
the keys given up. -/
def State.regDrop (s : State) (p : Port) : State :=
  let b := Pg.LFR p
  let s := (s.setServe p 0 0 0).wr (b + (LFR0.ADDR 0).off) 0
  let s := (s.allocClearAll p).dropLineKeys p
  let s := (s.set Pg.CIPH ⟨CIPH0.LINE_POLICY.off, p.num, 1⟩ 0).set b LFR2.REG_STAT_ADDR 0
  let s := ((s.set b LFR2.REG_STAT_KEYED 0).set b LFR2.REG_STAT_DOZE 0).stopTimer (Tm.resend p)
  let r : Reg := { s.rg p with assured := [], keyed := false, proveOk := false, keyUse := none, unsol := [] }
  let s := s.setRg p { r with doze := false, dozeAsked := false, dozeEnd := false }
  s.setUp p { s.up p with announce := none, rangingResp := none }

/-- What entry to LISTEN adds (R236): EQD, PROF_EN and the group addresses. -/
def State.listenDrop (s : State) (p : Port) : State :=
  let b := Pg.LFR p
  let s := ((s.regDrop p).set b LFR0.US_EQD 0).set b LFR0.DS_CTRL_PROF_EN 1
  let s := (List.range 7).foldl (fun s i => s.wr (b + (LFR0.ADDR (i + 1)).off) 0) s
  s.setRg p { s.rg p with assigned := 0, retire := [] }

/-- A registration state entered, with the actions of R236, R237 and R240. -/
def State.regEnter (s : State) (p : Port) (st : Nat) : State :=
  let b := Pg.LFR p
  let t := (if s.inWork p && decide (st ≠ RegSt.work) then s.gaugeLeave p else s).setReg p st
  let t :=
    if st = RegSt.listen then t.listenDrop p
    else if st = RegSt.announce then ((t.setServe p 1 0 0).newAnnounce p).startTimer (Tm.announce p) (10 * sec)
    else if st = RegSt.range then ((t.setServe p 0 1 0).newRangingResp p).startTimer (Tm.range p) (2 * sec)
    else if st = RegSt.prove then (t.setServe p 0 1 1).startTimer (Tm.prove p) (5 * sec)
    else if st = RegSt.work then
      let t := t.setServe p 0 1 1
      if (t.rg p).keysRequired then t.set Pg.CIPH ⟨CIPH0.LINE_POLICY.off, p.num, 1⟩ 1 else t
    else if st = RegSt.hold then
      let h := (t.rg p).holdMs
      (((t.setServe p 0 0 0).inc b LFR1.HOLD_ENTRIES).startTimer (Tm.hold p)
        ((if h = 0 then 200 else max 10 (min 10000 h)) * ms))
    else if st = RegSt.mute then
      let t := (((t.regDrop p).set (Pg.LINE p) LINE1.TX_CTRL_LASER_EN 0).set (Pg.LINE p) LINE1.TX_CTRL_INHIBIT 1).cutBurst p
      if s.regSt p = RegSt.mute then t else t.evt b 28
    else t.listenDrop p
  t.refreshWorking.reselect

/-- A return to LISTEN that REG_ABORT counts from ANNOUNCE, RANGE and PROVE (R235, R264). -/
def State.regAbort (s : State) (p : Port) : State := (s.inc (Pg.LFR p) LFR1.REG_ABORT).regEnter p RegSt.listen

/-- Any return to LISTEN other than from HOLD's expiry: counted in REG_ABORT from ANNOUNCE, RANGE and PROVE. -/
def State.regListen (s : State) (p : Port) : State :=
  if s.regSt p = RegSt.announce ∨ s.regSt p = RegSt.range ∨ s.regSt p = RegSt.prove then s.regAbort p
  else s.regEnter p RegSt.listen

/-- Whether the Hook core of a port is being moved (R83, R84). -/
def State.coreMoves (s : State) (p : Port) : Bool := s.upd.active && decide (s.upd.phase = .moving (1 + p.num))

/-- A step of the registration taken at once, or when the move of the port's Hook core ends (R84). -/
def State.orDue (s : State) (p : Port) (k : LineDue) (act : State → State) : State :=
  if s.coreMoves p then
    (if k = .tryAnnounce ∧ k ∈ (s.rg p).due then s else s.setRg p { s.rg p with due := (s.rg p).due ++ [k] })
  else act s

/-- The state left on a TREE_CHANGE (R235). -/
def State.treeMove (s : State) (p : Port) : State :=
  let st := s.regSt p
  if st = RegSt.hold then (s.inc (Pg.LFR p) LFR1.HOLD_EXPIRED).regEnter p RegSt.listen
  else if st = RegSt.announce ∨ st = RegSt.range ∨ st = RegSt.prove ∨ st = RegSt.work then s.regListen p
  else s

/-- TREE_CHANGE as the registration sees it (R235). -/
def State.regTreeChange (s : State) (p : Port) : State := (s.gaugeTree p).orDue p .treeChange (fun s => s.treeMove p)

/-- Whether the port may take part in line cast-on (R252). -/
def State.dualPermits (s : State) (p : Port) : Bool := decide (s.dual.mode ≠ 0) || decide (s.dual.primary = p)

/-- MIN_LEAD of a TREE_PARAMS message, at least 2 (R241). -/
def minLead (m : List Byte) : Nat := max 2 (msgField m 0x12 1)

/-- LISTEN left for ANNOUNCE when every condition of R235 holds: the lead in use is written first (R241). -/
def State.tryMove (s : State) (p : Port) : State :=
  let r := s.rg p
  match r.params with
  | none => s
  | some m =>
    if r.fresh && decide (s.regSt p = RegSt.listen) && decide (s.align p = alLocked) && r.enable && s.dualPermits p
        && decide (minLead m ≤ r.lead) && decide (minLead m ≤ 15) then
      let s := s.set (Pg.LINE p) LINE1.TX_ENV_LEAD_SYMS r.lead
      (s.setRg p { s.rg p with tree := s.get (Pg.LFR p) LFR0.TREE }).regEnter p RegSt.announce
    else s

/-- The same, or when the move of the port's Hook core ends. -/
def State.regTry (s : State) (p : Port) : State := s.orDue p .tryAnnounce (fun s => s.tryMove p)

/-- The state left on a defect loss (R235). -/
def State.lossMove (s : State) (p : Port) : State :=
  let st := s.regSt p
  if st = RegSt.announce ∨ st = RegSt.range ∨ st = RegSt.prove then s.regAbort p
  else if st = RegSt.work then s.regEnter p RegSt.hold
  else s

/-- A defect loss (R235). -/
def State.regDefectLoss (s : State) (p : Port) : State := s.orDue p .defectLoss (fun s => s.lossMove p)

/-! ### Defects (R117 to R119, R209) -/

/-- The defect reported: the highest of those present, as a bit mask (R118). -/
def reported : List Bool → Nat
  | [] => 0
  | true :: _ => 1
  | false :: ds => 2 * reported ds

/-- Whether LOS, LSS or LOF is present (R119). -/
def lossOf (raw : List Bool) : Bool := (raw.take 3).any id
def State.lineLost (s : State) (p : Port) : Bool := lossOf (s.down p).raw

/-- Defects below the highest present, from LOD on, start afresh (R118). -/
def maskRaw (raw : List Bool) : List Bool :=
  let at_ (i : Nat) : Bool := raw.getD i false
  let a := lossOf raw
  [at_ 0, at_ 1, at_ 2, at_ 3 && !a, at_ 4 && !a && !at_ 3, at_ 5 && !a && !at_ 3 && !at_ 4]

/-- Present defects replaced: the detection of those below one that was present starts afresh (R118); DS_STAT, the latch and the events follow (R118), LOF raises are counted, and a loss
discards the grants (R209) and reaches the registration (R235). -/
def State.setRaw (s : State) (p : Port) (raw : List Bool) : State :=
  let b := Pg.LFR p
  let d := s.down p
  let was := d.raw
  let now := maskRaw raw
  let zero : BerSum := ⟨0, 0, 0, 0⟩
  let clearLod := fun (m : SMap Stream) => m.map (fun x => (x.1, { x.2 with lodBad := 0, lodGood := 0 }))
  -- whether a defect above LOD, above SF, or above SD was or is present: what lies below starts afresh when it clears
  let loss := lossOf was || lossOf now
  let lod := loss || was.getD 3 false || now.getD 3 false
  let sf := lod || was.getD 4 false && !now.getD 4 false
  let s := s.setDown p { d with
    raw := now
    streams := if loss || was.getD 3 false && !now.getD 3 false then clearLod d.streams else d.streams
    w64 := if lod then zero else d.w64
    w1024 := if sf then zero else d.w1024
    ctrls := if lossOf now then [] else d.ctrls }
  let old := s.get b LFR0.DS_STAT_DEFECT
  let new := reported now
  let s := s.set b LFR0.DS_STAT_DEFECT new
  let s := (List.range 6).foldl (fun s i => if old / 2 ^ i % 2 = new / 2 ^ i % 2 then s else s.evt b (8 + i)) s
  let s := s.set b LFR0.DS_DEFECT_LATCH (s.get b LFR0.DS_DEFECT_LATCH ||| (new - (new &&& old)))
  let s := if now.getD 2 false && !was.getD 2 false then s.inc b LFR1.LOF_ENTRIES else s
  if lossOf now && !lossOf was then (s.discardGrants p LFR1.BURST_INHIBITED).regDefectLoss p else s

/-- One defect raised or cleared, on a port whose defects are evaluated (R553). -/
def State.setDefect (s : State) (p : Port) (i : Nat) (b : Bool) : State :=
  if s.lineOn p then s.setRaw p ((s.down p).raw.set i b) else s

/-- Whether a defect is reported (R118). -/
def State.hasDefect (s : State) (p : Port) (i : Nat) : Bool := decide (s.get (Pg.LFR p) LFR0.DS_STAT_DEFECT / 2 ^ i % 2 = 1)

/-! ### The transmitter's inhibits (R154) -/

/-- INHIBIT and its causes brought up to date; a cause ends the burst in progress (R154, R209). -/
def State.refreshInhibit (s : State) (p : Port) : State :=
  let b := Pg.LINE p
  let m := s.modem p
  let s := s.setBit b LINE1.TX_CTRL_INHIBIT_ABSENT m.absent
  let s := s.setBit b LINE1.TX_CTRL_INHIBIT_FAULT (m.fault || m.faultHeld)
  let s := s.setBit b LINE1.TX_CTRL_INHIBIT_CLOCK (!s.bit b LINE0.RX_STAT_CLK_SRC)
  let held := !s.bit b LINE0.RX_STAT_CLK_SRC || !s.bit b LINE1.TX_CTRL_LASER_EN || m.absent || m.fault || m.faultHeld
  let s := s.setBit b LINE1.TX_CTRL_INHIBIT held
  if held then s.cutBurst p else s

/-- Clock recovery back to FREE: the clocks switched back from LOCKED (R13, R128) and LSS raised (R129); `count` adds to
CDR_LOSSES. -/
def State.cdrToFree (s : State) (p : Port) (count : Bool) : State :=
  let b := Pg.LINE p
  let was := s.cdr p
  if was = cdrFree then s
  else
    let s := (s.set b LINE0.RX_STAT_CDR cdrFree).stopTimer (Tm.acquire p)
    let s := if count then s.inc b LINE3.CDR_LOSSES else s
    let s := s.setModem p { s.modem p with last := none, finds := [], good := 0, missed := 0 }
    if was = cdrLocked then
      let s := (((s.set b LINE0.RX_STAT_CLK_SRC 0).evt b 8).stopTimer (Tm.lss p)).refreshInhibit p
      s.setDefect p 1 true
    else s

end Sys2Proof.Machine
end

