-- ==== Sys2Proof/Machine/Operands.lean ====
section
/-!
DEFINITION. Machine/Operands.lean: the operands of Needle instructions (R167 to R170, R178, R179, R181): core registers,
address forms and the memories of an engine.

What can stop the engine answers `Except Nat`, the error being the FAULT_CODE (R189).
-/

namespace Sys2Proof.Machine

/-- What an unlisted engine says: as after a device reset. -/
def ndlReset : Nat → Ndl := fun _ => Ndl.reset

/-- An engine, and the same replaced. -/
def State.eng (s : State) (n : Fin 8) : Ndl := SMap.get ndlReset s.ndl n.val
def State.setEng (s : State) (n : Fin 8) (x : Ndl) : State := { s with ndl := SMap.set ndlReset s.ndl n.val x }

/-! FAULT_CODE values of the engines (R189). -/
namespace NFault
def noKernel : Nat := 0x80
def illegal : Nat := 0x81
def access : Nat := 0x82
def maxCycles : Nat := 0x83
def extWindow : Nat := 0x84
def callStack : Nat := 0x85
end NFault

/-! ### Sticky flags (R172, R173, R179) -/

/-- Bits of `NDLn.FLAGS` set; a bit that goes from 0 to 1 raises FLAG_SET. -/
def State.sticky (s : State) (n : Fin 8) (mask : BitVec 7) : State :=
  let old := s.get (Pg.NDL n) NDL.FLAGS
  let new := old ||| mask.toNat
  if new = old then s else (s.set (Pg.NDL n) NDL.FLAGS new).evt (Pg.NDL n) 10

/-- The bits: AOVa, CIRC_RELEN, SAT. -/
def aovBit (a : Fin 4) : BitVec 7 := BitVec.ofNat 7 (2 ^ a.val)
def relenBit : BitVec 7 := 0x20
def satBit : BitVec 7 := 0x40

/-! ### Core registers (R170) -/

/-- D registers. -/
def State.nd (s : State) (n : Fin 8) (k : Fin 16) : BitVec 16 := (s.eng n).d[k]
def State.setNd (s : State) (n : Fin 8) (k : Fin 16) (v : BitVec 16) : State :=
  s.setEng n { s.eng n with d := (s.eng n).d.set k v }

/-- The D register after an even one. -/
def odd (k : Fin 16) : Fin 16 := ⟨(k.val + 1) % 16, Nat.mod_lt _ (by decide)⟩

/-- Accumulators, as signed numbers; a write is modulo 2^40 (R172). -/
def State.acc (s : State) (n : Fin 8) (a : Fin 4) : Int := ((s.eng n).ac[a]).toInt
def State.setAcc (s : State) (n : Fin 8) (a : Fin 4) (v : Int) : State :=
  s.setEng n { s.eng n with ac := (s.eng n).ac.set a (BitVec.ofInt 40 v), steps := if a = 0 then 0 else (s.eng n).steps }

/-- Pointers. -/
def State.ptr (s : State) (n : Fin 8) (k : Fin 8) : BitVec 24 := (s.eng n).p[k]
def State.setPtr (s : State) (n : Fin 8) (k : Fin 8) (v : BitVec 24) : State :=
  s.setEng n { s.eng n with p := (s.eng n).p.set k v }

/-- The buffer a pointer is bound to, where it is bound (R170). -/
def Ndl.buffer (x : Ndl) (k : Fin 8) : Option (Fin 8) :=
  let b := x.bind.toNat / 2 ^ (4 * k.val)
  if b / 8 % 2 = 1 then some ⟨b % 8, Nat.mod_lt _ (by decide)⟩ else none

/-- A pointer after its modify by `m` (R178). -/
def Ndl.modified (x : Ndl) (k : Fin 8) (m : Int) : BitVec 24 :=
  let linear := BitVec.ofInt 24 ((x.p[k]).toNat + m)
  match x.buffer k with
  | none => linear
  | some j =>
    let len := (x.l[j]).toNat
    if len = 0 then linear
    else x.b[j] + BitVec.ofInt 24 (((x.p[k] - x.b[j]).toInt + m) % len)

/-- A write of Lk (R179): pointers at or beyond the new end come inside. -/
def Ndl.relen (x : Ndl) (j : Fin 8) (v : BitVec 16) : Ndl × Bool :=
  let outside : Fin 8 → Bool := fun k =>
    decide (v ≠ 0) && decide (x.buffer k = some j) && decide ((v.toNat : Int) ≤ (x.p[k] - x.b[j]).toInt)
  let x' := (List.finRange 8).foldl (fun (y : Ndl) k =>
    if outside k then { y with p := y.p.set k (x.b[j] + BitVec.ofInt 24 ((x.p[k] - x.b[j]).toInt % (v.toNat : Int))) } else y) x
  ({ x' with l := x'.l.set j v }, (List.finRange 8).any outside)

/-- The width of a register (R170). -/
def nregWidth : NReg → Nat
  | .p _ | .m _ | .b _ => 24
  | .bind => 32
  | _ => 16

/-- What a register reads as. -/
def State.nreg (s : State) (n : Fin 8) (r : NReg) : Nat :=
  let x := s.eng n
  match r with
  | .d k => (x.d[k]).toNat
  | .p k => (x.p[k]).toNat
  | .m k => (x.m[k]).toNat
  | .b k => (x.b[k]).toNat
  | .l k => (x.l[k]).toNat
  | .bind => x.bind.toNat
  | .ix => x.ix.toNat
  | .lc k => (x.lc[k]).toNat
  | .st =>
    let g := Pg.NDL n
    (Config.stWord x.z x.n x.c (s.bit g NDL.FLAGS_SAT) (s.bit g NDL.FLAGS_CIRC_RELEN) (s.get g NDL.FLAGS_AOV)).toNat

/-- A register written with the low bits of a value; a write of L re-bounds pointers (R179). -/
def State.setNreg (s : State) (n : Fin 8) (r : NReg) (v : Nat) : State :=
  let x := s.eng n
  match r with
  | .d k => s.setNd n k (BitVec.ofNat 16 v)
  | .p k => s.setPtr n k (BitVec.ofNat 24 v)
  | .m k => s.setEng n { x with m := x.m.set k (BitVec.ofNat 24 v) }
  | .b k => s.setEng n { x with b := x.b.set k (BitVec.ofNat 24 v) }
  | .l k =>
    let r := x.relen k (BitVec.ofNat 16 v)
    let s := s.setEng n r.1
    if r.2 then s.sticky n relenBit else s
  | .bind => s.setEng n { x with bind := BitVec.ofNat 32 v }
  | .ix => s.setEng n { x with ix := BitVec.ofNat 16 v }
  | .lc k => s.setEng n { x with lc := x.lc.set k (BitVec.ofNat 16 v) }
  | .st =>
    let w := BitVec.ofNat 16 v
    let s := s.setEng n { x with z := Config.stFlag w 0, n := Config.stFlag w 1, c := Config.stFlag w 2 }
    let g := Pg.NDL n
    let old := s.get g NDL.FLAGS
    let flags := Config.stAov w % 16 + (if Config.stFlag w 4 then 0x20 else 0) + (if Config.stFlag w 3 then 0x40 else 0)
    let s := s.set g NDL.FLAGS flags
    if flags &&& old = flags then s else s.evt g 10

/-! ### Memories (R167 to R169) -/

/-- The spaces that instructions reach (R167). -/
inductive NSpace where
  | x | y | mbox | c
deriving DecidableEq, Repr

/-- Whether the coefficient store exists: OPMODE 1 (R168, R175). -/
def State.threeMem (s : State) (n : Fin 8) : Bool := s.bit (Pg.NDL n) NDL.CFG_OPMODE

/-- The space of a word address, for instructions (R167). -/
def State.nspace (s : State) (n : Fin 8) (a : Nat) : Option NSpace :=
  if a < 0x8000 then some .x
  else if 0x10000 ≤ a ∧ a < 0x17FE0 then some .y
  else if 0x17FE0 ≤ a ∧ a < 0x18000 then some .mbox
  else if s.threeMem n ∧ 0x20000 ≤ a ∧ a < 0x22000 then some .c
  else none

/-- What a word of X, Y or C reads as before anything is written: X and Y zero, C open (R175). -/
def ndlWord : Nat → BitVec 16 := fun a => if a < 0x20000 then 0 else Config.coefWord a

/-- The MBOX half at a word address (R167). -/
def mboxHalf (a : Nat) : Fld := ⟨(NDL.MBOX ((a - 0x17FE0) / 2)).off, 16 * ((a - 0x17FE0) % 2), 16⟩

/-- A word read by an instruction. -/
def State.nread (s : State) (n : Fin 8) (a : Nat) : Except Nat (BitVec 16) :=
  match s.nspace n a with
  | none => .error NFault.access
  | some .mbox => .ok (BitVec.ofNat 16 (s.get (Pg.NDL n) (mboxHalf a)))
  | some _ => .ok (SMap.get ndlWord (s.eng n).mem a)

/-- A word put into X, Y or C. -/
def State.nput (s : State) (n : Fin 8) (a : Nat) (v : BitVec 16) : State :=
  s.setEng n { s.eng n with mem := SMap.set ndlWord (s.eng n).mem a v }

/-- A word written by an instruction; C space is never written so (R175). -/
def State.nwrite (s : State) (n : Fin 8) (a : Nat) (v : BitVec 16) : Except Nat State :=
  match s.nspace n a with
  | some .mbox => .ok (s.set (Pg.NDL n) (mboxHalf a) v.toNat)
  | some .x => .ok (s.nput n a v)
  | some .y => .ok (s.nput n a v)
  | _ => .error NFault.access

/-! ### Address forms (R178, R181) -/

/-- The address of an operand of `step` words, and the state after the modify of its pointer. -/
def State.nea (s : State) (n : Fin 8) (e : NEa) (step : Nat) : Nat × State :=
  let x := s.eng n
  let a := (x.p[e.p]).toNat
  match e.form with
  | .plain => (a, s)
  | .inc => (a, s.setPtr n e.p (x.modified e.p step))
  | .dec => (a, s.setPtr n e.p (x.modified e.p (-(step : Int))))
  | .addM k => (a, s.setPtr n e.p (x.modified e.p (x.m[k]).toInt))
  | .off o => ((x.p[e.p] + o.signExtend 24).toNat, s)

/-- The even address of a pair (R169). -/
def even (a : Nat) : Nat := a / 2 * 2

/-- A memory word read through an address form. -/
def State.nmem (s : State) (n : Fin 8) (e : NEa) : Except Nat (BitVec 16 × State) := do
  let r := s.nea n e 1
  let v ← s.nread n r.1
  return (v, r.2)

/-- A memory pair read through an address form: low word, high word. -/
def State.npair (s : State) (n : Fin 8) (e : NEa) : Except Nat (BitVec 16 × BitVec 16 × State) := do
  let r := s.nea n e 2
  let lo ← s.nread n (even r.1)
  let hi ← s.nread n (even r.1 + 1)
  return (lo, hi, r.2)

/-- A word written through an address form. -/
def State.nstore (s : State) (n : Fin 8) (e : NEa) (v : BitVec 16) : Except Nat State := do
  let r := s.nea n e 1
  r.2.nwrite n r.1 v

/-- A pair written through an address form. -/
def State.nstorePair (s : State) (n : Fin 8) (e : NEa) (lo hi : BitVec 16) : Except Nat State := do
  let r := s.nea n e 2
  let t ← r.2.nwrite n (even r.1) lo
  t.nwrite n (even r.1 + 1) hi

/-- An operand x. -/
def State.nx (s : State) (n : Fin 8) : NX → Except Nat (BitVec 16 × State)
  | .reg k => .ok (s.nd n k, s)
  | .mem e => s.nmem n e

/-- An operand xp or yp; an odd D register names no pair, and such an instruction is not defined (R170, R181). -/
def State.nxp (s : State) (n : Fin 8) : NX → Except Nat (BitVec 16 × BitVec 16 × State)
  | .reg k => if k.val % 2 = 0 then .ok (s.nd n k, s.nd n (odd k), s) else .error NFault.illegal
  | .mem e => s.npair n e

/-- Whether two memory operands fall in the same memory (R177); `t` is the state after the first's modify. -/
def State.sameMem (s t : State) (n : Fin 8) (x y : NX) : Bool :=
  match x, y with
  | .mem e, .mem f => decide (s.nspace n (s.nea n e 1).1 = t.nspace n (t.nea n f 1).1)
  | _, _ => false

/-- The amount of a 16-bit shift, and the count of LOOP and REP. -/
def State.nshift (s : State) (n : Fin 8) : NShift → Nat
  | .imm k => k.val
  | .reg t => (s.nd n t).toNat
def State.ncount (s : State) (n : Fin 8) : NCount → Nat
  | .imm c => c.toNat
  | .reg k => (s.nd n k).toNat

end Sys2Proof.Machine
end

