-- ==== Sys2Proof/Machine/Flags.lean ====
section
/-!
DEFINITION. Machine/Flags.lean: the flag computations and the rounding and saturation of Needle instructions (R171 to
R174, R181).
-/

namespace Sys2Proof.Machine

/-- Z and N of a 16-bit result. -/
def State.setZN (s : State) (n : Fin 8) (v : BitVec 16) : State :=
  s.setEng n { s.eng n with z := decide (v = 0), n := v.msb }

/-- C. -/
def State.setC (s : State) (n : Fin 8) (c : Bool) : State := s.setEng n { s.eng n with c := c }

/-- Z. -/
def State.setZ (s : State) (n : Fin 8) (z : Bool) : State := s.setEng n { s.eng n with z := z }

/-- C after a sum: the carry out of bit 15. -/
def carryOf (x y : BitVec 16) : Bool := decide (2 ^ 16 ≤ x.toNat + y.toNat)

/-- C after a difference: whether a borrow sets or clears it the spec does not say (a free value). -/
def borrowC (x y : BitVec 16) : Bool :=
  if Config.subBorrowSetsC then decide (x.toNat < y.toNat) else decide (y.toNat ≤ x.toNat)

/-- An accumulator written modulo 2^40; AOVa when the exact result lies outside the range (R172). -/
def State.putAcc (s : State) (n : Fin 8) (a : Fin 4) (v : Int) : State :=
  let s := s.setAcc n a v
  if v < -(2 : Int) ^ 39 ∨ (2 : Int) ^ 39 ≤ v then s.sticky n (aovBit a) else s

/-- A number saturated to 16 bits, with whether it was outside (R173, R174). -/
def sat16 (v : Int) : BitVec 16 × Bool :=
  if v < -32768 then (BitVec.ofInt 16 (-32768), true)
  else if 32767 < v then (BitVec.ofInt 16 32767, true)
  else (BitVec.ofInt 16 v, false)

/-- A number saturated to 32 bits, low word and high word, with whether it was outside (R173). -/
def sat32 (v : Int) : BitVec 16 × BitVec 16 × Bool :=
  let w := clampInt (-(2 : Int) ^ 31) ((2 : Int) ^ 31 - 1) v
  (BitVec.ofInt 16 w, BitVec.ofInt 16 (w / 65536), decide (w ≠ v))

/-- SAT set where a store or a result saturated. -/
def State.setSat (s : State) (n : Fin 8) (b : Bool) : State := if b then s.sticky n satBit else s

/-- The 16-bit value of an accumulator: rounded half up, then saturated (R173). -/
def accRound (v : Int) : BitVec 16 × Bool := sat16 ((v + 32768) / 65536)

/-- The last bit a shift by 1 to 15 moves out. -/
def shlOut (v : BitVec 16) (k : Nat) : Bool := v.getLsbD (16 - k)
def shrOut (v : BitVec 16) (k : Nat) : Bool := v.getLsbD (k - 1)

/-- Redundant sign bits of a 40-bit number, 0 to 39 (R181). -/
def signBits (v : BitVec 40) : Nat :=
  ((List.range 39).takeWhile (fun k => decide (v.getLsbD (38 - k) = v.msb))).length

/-- The products of R171. -/
def prodI (x y : BitVec 16) : Int := x.toInt * y.toInt
def prodF (x y : BitVec 16) : Int := 2 * (x.toInt * y.toInt)

end Sys2Proof.Machine
end

