-- ==== Sys2Proof/Machine/Needle.lean ====
section
/-!
DEFINITION. Machine/Needle.lean: the Needle engines (R165 to R189, R195 to R197): instructions, runs, claims, block moves.

An instruction is a command to one engine.  It acts while a run is in progress, and the program counter, the loop and call
stacks and REP follow what it does.
-/

namespace Sys2Proof.Machine

/-! ### Kernels (R165, R166, R175, R189 to R191) -/

/-- The kernel a cast-on loads. -/
def State.ndlKernel (s : State) (n : Fin 8) : Option NKernel := (s.eng n).kernel

/-- The default trigger of a vendor engine (R165): SRC and SLOT. -/
def vendorTrigger (n : Fin 8) : Nat × Nat :=
  match n.val with
  | 0 => (1, 8)
  | 1 => (1, 0)
  | 2 => (1, 9)
  | 3 => (1, 1)
  | 4 => (4, 0)
  | _ => (0, 0)

/-- The kernel of an engine in a vendor set (R165). -/
def vendorKernelOf (i : ImgInfo) (n : Fin 8) : NKernel :=
  let part := Config.vendorKernel i.digest n.val
  let op := (part 4).getD 1 0 % 2
  let words := fun k len => ((part k).take len).map (fun v => BitVec.ofNat 16 v)
  ⟨i.version, BitVec.ofNat 14 ((part 4).getD 0 0), ((part 0).take 16384).map (fun v => BitVec.ofNat 32 v),
    words 1 32768, words 2 32736, if op = 1 then words 3 8192 else [], op, (vendorTrigger n).1, (vendorTrigger n).2, 0,
    (part 4).getD 2 0⟩

/-- Whether an engine may run a customer kernel, its assignment apart (R166). -/
def State.userKernels (s : State) : Bool := s.feat 18 && s.fuses.userKernels

/-- Whether an engine may run the kernel it has (R166): one of NDL6 and NDL7 while it is the customer's. -/
def State.ndlMayRun (s : State) (n : Fin 8) : Bool :=
  (s.ndlKernel n).isSome && (decide (n.val < 6) || (s.userKernels && s.ndlCustomer (Pg.NDL n)))

/-- Without OPMODE 1 the coefficient store is powered down and keeps nothing (R175). -/
def State.ndlCoef (s : State) (n : Fin 8) : State :=
  if s.threeMem n then s else s.setEng n { s.eng n with mem := SMap.drop (fun a => decide (0x20000 ≤ a)) (s.eng n).mem }

/-- Cast-on clears the core registers and loads the kernel's program and images (R170, R189). -/
def State.ndlImages (s : State) (n : Fin 8) (k : NKernel) : State :=
  let s := s.ndlCoef n
  let x := s.eng n
  let mem := SMap.setList ndlWord (SMap.setList ndlWord x.mem 0 k.x) 0x10000 k.y
  let mem := if s.threeMem n then SMap.setList ndlWord mem 0x20000 k.c else mem
  (s.setEng n { Ndl.reset with mem := mem, prog := k.prog, kernel := x.kernel, next := x.next, lastFault := x.lastFault }).set
    (Pg.NDL n) NDL.FLAGS 0

/-- CASTING_ON entered by an engine (R189). -/
def State.ndlCastOn (s : State) (n : Fin 8) : State :=
  let s := s.moveFn (.ndl n) .castingOn false
  match s.ndlKernel n with
  | some k => s.ndlImages n k
  | none => s

/-- A kernel becomes the one loaded, with what its image sets (R190, R191). -/
def State.ndlInstall (s : State) (n : Fin 8) (k : NKernel) : State :=
  let b := Pg.NDL n
  let s := s.setEng n { s.eng n with kernel := some k, next := none }
  let s := ((s.set b NDL.CFG_OPMODE k.opmode).ndlCoef n).set b NDL.TRIG_EN 1
  let s := ((s.set b NDL.TRIG_SRC k.trigSrc).set b NDL.TRIG_SLOT k.trigSlot).set b NDL.TRIG_PERIOD_US k.periodUs
  (s.set b NDL.MAX_CYCLES k.maxCycles).set b NDL.KERNEL k.version

/-- A kernel that waited for the engine to stop is loaded (R191).  DESIGN CHOICE: also where the bind-off ends in FAULT or by
FORCE_STOP, and the engine is then left there (log entry 50). -/
def State.ndlNext (s : State) (n : Fin 8) : State :=
  match (s.eng n).next with
  | some k => s.ndlInstall n k
  | none => s

/-- Firmware loads a kernel (R191): at once into an engine that is OFF or in FAULT, else after a bind-off that ends in
cast-on. -/
def State.ndlTake (s : State) (n : Fin 8) (k : NKernel) : State :=
  match (s.fn (.ndl n)).st with
  | .off => s.ndlInstall n k
  | .fault => s.ndlInstall n k
  | .bindingOff => s.setEng n { s.eng n with next := some k }
  | _ =>
    let s := s.setEng n { s.eng n with next := some k }
    (s.set (Pg.NDL n) NDL.RUNSTAT_PEND 0).moveFn (.ndl n) .bindingOff true

/-! ### Runs (R187 to R189) -/

/-- Whether a run is in progress, and a trigger held. -/
def State.ndlBusy (s : State) (n : Fin 8) : Bool := s.bit (Pg.NDL n) NDL.RUNSTAT_BUSY
def State.ndlPend (s : State) (n : Fin 8) : Bool := s.bit (Pg.NDL n) NDL.RUNSTAT_PEND

/-- Whether the engine takes the next instruction: a run is in progress and has not reached HALT. -/
def State.ndlRuns (s : State) (n : Fin 8) : Bool := s.ndlBusy n && !(s.eng n).halting

/-- A run begins (R187). -/
def State.startRun (s : State) (n : Fin 8) : State :=
  match s.ndlKernel n with
  | none => s
  | some k =>
    (s.setEng n { s.eng n with pc := k.entry, loops := [], calls := [], rep := none, halting := false, accW := [], cycles := 0,
                               wait := .none }).set (Pg.NDL n) NDL.RUNSTAT_BUSY 1

/-- A trigger that the engine takes: a run, a held trigger, or one too many (R187). -/
def State.trigger (s : State) (n : Fin 8) : State :=
  let b := Pg.NDL n
  if !s.ndlBusy n then s.startRun n
  else if !s.ndlPend n then s.set b NDL.RUNSTAT_PEND 1
  else (s.inc b NDL.TRIG_OVERRUN).evt b 9

/-- The engine that the triggers addressed to one go to (R194). -/
def State.trigEngine (s : State) (n : Fin 8) : Fin 8 := if s.reload.phase = .routed n ∧ s.fnIs (.ndl 5) .running then 5 else n

/-- Whether triggers from a source that are addressed to an engine are taken (R166, R187, R194). -/
def State.takesFrom (s : State) (n : Fin 8) (src : Nat) : Bool :=
  let b := Pg.NDL n
  let m := s.trigEngine n
  s.fnIs (.ndl m) .running && s.ndlMayRun m && s.bit b NDL.TRIG_EN && decide (s.get b NDL.TRIG_SRC = src)

/-- The work of an engine stopped as by frogging (R189). -/
def State.ndlCut (s : State) (n : Fin 8) : State :=
  let b := Pg.NDL n
  let units := s.get b NDL.RUNSTAT_BUSY + s.get b NDL.RUNSTAT_PEND
  let s := s.setEng n { s.eng n with halting := false, moves := [], claims := [], loops := [], calls := [], rep := none,
                                     wait := .none }
  ((((s.set b NDL.RUNSTAT_BUSY 0).set b NDL.RUNSTAT_PEND 0).set b NDL.RUNSTAT_XFER 0).abandon (.ndl n) units).ndlNext n

/-! ### Live reload (R194) -/

/-- The engines left are reloaded one at a time: one that runs under the cover of NDL5, which begins to cast on with the new
kernel and the engine's external window; any other at once, or once it has stopped (R191, R194). -/
def State.reloadFrom (s : State) (i : ImgInfo) : List (Fin 8) → State
  | [] => { s with reload := ⟨.idle, false, []⟩ }
  | n :: rest =>
    let k := vendorKernelOf i n
    if s.fnIs (.ndl n) .running && s.fnIs (.ndl 5) .off then
      let c := Pg.NDL 5
      let s := ((s.ndlInstall 5 { k with trigSrc := 0, trigSlot := 0 }).set c NDL.CFG_ROLE 2).wr (c + NDL.EXT_BASE_LO.off)
        (s.rd (Pg.NDL n + NDL.EXT_BASE_LO.off))
      let s := s.wr (c + NDL.EXT_BASE_HI.off) (s.rd (Pg.NDL n + NDL.EXT_BASE_HI.off))
      ({ s with reload := ⟨.coverOn n, false, rest⟩ } : State).ndlCastOn 5
    else (s.ndlTake n k).reloadFrom i rest

/-- The reload goes on with the engines left; the cover is a vendor engine again, with no kernel. -/
def State.reloadRest (s : State) : State :=
  let s := (s.setEng 5 { s.eng 5 with kernel := none, next := none }).set (Pg.NDL 5) NDL.CFG_ROLE 0
  match s.boot.kernels with
  | some i => s.reloadFrom i s.reload.todo
  | none => { s with reload := ⟨.idle, false, []⟩ }

/-- A trigger held by an engine at its HALT goes to another, where it begins a run (R194). -/
def State.passTrigger (s : State) (a b : Fin 8) : State :=
  if s.ndlPend a then (s.set (Pg.NDL a) NDL.RUNSTAT_PEND 0).trigger b else s

/-- The engine being reloaded has stopped and takes its new kernel, or gave way at once (R194). -/
def State.reloadLoad (s : State) (n : Fin 8) : State :=
  match s.boot.kernels with
  | some i =>
    let s : State := { s with reload := { s.reload with loaded := true } }
    if s.fnIs (.ndl n) .off then (s.ndlInstall n (vendorKernelOf i n)).ndlCastOn n else s.ndlTake n (vendorKernelOf i n)
  | none => s

/-- The cover is bound off, or has stopped by itself (R194). -/
def State.coverEnds (s : State) : State :=
  let s : State := { s with reload := { s.reload with phase := .coverOff } }
  match (s.fn (.ndl 5)).st with
  | .off => s.reloadRest
  | .fault => (s.moveFn (.ndl 5) .off false).reloadRest
  | .bindingOff => s
  | _ => s.moveFn (.ndl 5) .bindingOff false

/-- The step of a live reload that the states of the engine and of its cover call for, if any (R194): each engine is asked
when it ends a run or changes its state.  DESIGN CHOICE: where the cover does not come up, or the engine is no longer in
RUNNING when the cover is, the engine is loaded without a cover (log entry 50). -/
def State.reloadStep (s : State) : State :=
  let cover := (s.fn (.ndl 5)).st
  match s.reload.phase with
  | .idle => s
  | .coverOn n =>
    match cover with
    | .castingOn => s
    | .running =>
      let s : State := { s with reload := { s.reload with phase := .covered n } }
      if s.fnIs (.ndl n) .running then
        if s.ndlBusy n then s
        else ({ s with reload := { s.reload with phase := .routed n } } : State).moveFn (.ndl n) .bindingOff false
      else (s.reloadLoad n).coverEnds
    | _ => (s.reloadLoad n).coverEnds
  | .covered n =>
    if s.fnIs (.ndl n) .running && decide (cover = .running) then
      if s.ndlBusy n then s
      else (({ s with reload := { s.reload with phase := .routed n } } : State).passTrigger n 5).moveFn (.ndl n) .bindingOff false
    else (s.reloadLoad n).coverEnds
  | .routed n =>
    if !s.reload.loaded then
      if s.fnIs (.ndl n) .off || s.fnIs (.ndl n) .fault then s.reloadLoad n else s
    else if s.fnIs (.ndl n) .running && !s.ndlBusy 5 then
      (({ s with reload := { s.reload with phase := .coverOff } } : State).passTrigger 5 n).coverEnds
    else s
  | .coverOff => if cover = .off || cover = .fault then s.coverEnds else s

/-- A new vendor kernel set comes into use (R54, R165, R194). -/
def State.reloadVendor (s : State) (i : ImgInfo) : State :=
  let s : State := { s with boot := { s.boot with kernels := some i } }
  match s.reload.phase with
  | .idle => s.reloadFrom i [0, 1, 2, 3, 4]
  | _ => { s with reload := { s.reload with todo := [0, 1, 2, 3, 4] } }

/-- A run ends after HALT with every move complete; a held trigger starts the next, unless a live reload routes it. -/
def State.runDone (s : State) (n : Fin 8) : State :=
  let b := Pg.NDL n
  let s := ((s.setEng n { s.eng n with halting := false }).set b NDL.RUNSTAT_BUSY 0).add64 b NDL.RUNS_LO 1
  let s := s.reloadStep
  if !s.ndlBusy n && s.ndlPend n && s.fnIs (.ndl n) .running && s.ndlMayRun n then (s.set b NDL.RUNSTAT_PEND 0).startRun n else s

/-- The engine enters FAULT (R38, R189). -/
def State.ndlFault (s : State) (n : Fin 8) (code : Nat) : State :=
  let s := s.setEng n { s.eng n with lastFault := code }
  let r := s.fn (.ndl n)
  (((s.setFnRec (.ndl n) { r with code := code }).moveFn (.ndl n) .fault false).ndlCut n).reloadStep

/-! ### Program flow (R176, R181) -/

/-- PC after an instruction that does not jump: the end of a loop goes round. -/
def Ndl.advanceIn (x : Ndl) : List NLoop → Ndl
  | [] => { x with loops := [], pc := x.pc + 1 }
  | h :: rest =>
    if h.end_ = x.pc then
      let c := x.lc[h.lc]
      if 1 < c.toNat then { x with lc := x.lc.set h.lc (c - 1), pc := h.start, loops := h :: rest }
      else { x with lc := x.lc.set h.lc 0 }.advanceIn rest
    else { x with loops := h :: rest, pc := x.pc + 1 }

/-- The same from the engine's loop stack. -/
def Ndl.advance (x : Ndl) : Ndl := x.advanceIn x.loops

/-- After an instruction: REP keeps PC while executions are left. -/
def Ndl.after (x : Ndl) : Ndl :=
  match x.rep with
  | some (k + 2) => { x with rep := some (k + 1) }
  | _ => { x with rep := none }.advance

/-- Whether a loop level holds an instruction. -/
def NLoop.holds (h : NLoop) (a : BitVec 14) : Bool := decide (h.start.toNat ≤ a.toNat) && decide (a.toNat ≤ h.end_.toNat)

/-- A branch taken: loops it leaves are over, and the repeat cache is emptied then (R176). -/
def Ndl.branch (x : Ndl) (a : BitVec 14) : Ndl :=
  let left := x.loops.dropWhile (fun h => !h.holds a)
  { x with pc := a, loops := left, cache := if left.length < x.loops.length then none else x.cache }

/-- What an instruction does: the state after, whether it set PC itself, and cycles beyond its base figure. -/
structure NOut where
  s : State
  jumped : Bool
  extra : Nat

/-- An ordinary instruction's outcome. -/
def nok (s : State) : Except Nat NOut := .ok ⟨s, false, 0⟩

/-- Cycles of an instruction counted, and the accumulators it wrote kept for the next (R177, R197). -/
def State.ndlCount (s : State) (n : Fin 8) (cycles : Nat) (writes : List (Fin 4)) : State :=
  (s.setEng n { s.eng n with accW := writes, cycles := (s.eng n).cycles + cycles, wait := .none }).add64 (Pg.NDL n)
    NDL.BUSY_CYCLES_LO cycles

/-- Cycles spent waiting, up to a cycle of the run (R181, R197). -/
def State.ndlWaitTo (s : State) (n : Fin 8) (cycle : Nat) : State :=
  let w := cycle - (s.eng n).cycles
  (s.setEng n { s.eng n with cycles := (s.eng n).cycles + w }).add64 (Pg.NDL n) NDL.BUSY_CYCLES_LO w

/-- An instruction executed: `repOk` says whether REP may precede it, `base` is its base figure of cycles, `reads` and
`writes` are the accumulators it reads and writes. -/
def State.nexec (s : State) (n : Fin 8) (repOk : Bool) (base : Nat) (reads writes : List (Fin 4))
    (f : State → Except Nat NOut) : State :=
  if s.ndlRuns n then
    if (s.eng n).rep.isSome && !repOk then s.ndlFault n NFault.illegal
    else
      match f s with
      | .error c => s.ndlFault n c
      | .ok o =>
        let stall := if reads.any (fun a => (s.eng n).accW.contains a) then 1 else 0
        let t := o.s.ndlCount n (base + o.extra + stall) writes
        if o.jumped then t else t.setEng n (t.eng n).after
  else s

/-! ### Loads, stores and moves -/

/-- LD. -/
def execNdlLd (n : Fin 8) (d : Fin 16) (e : NEa) (s : State) : Host.Outcome State Fault Refusal :=
  .next (s.nexec n true 1 [] [] fun s => do
    let r ← s.nmem n e
    nok (r.2.setNd n d r.1))

/-- LDP. -/
def execNdlLdp (n : Fin 8) (d : Fin 16) (e : NEa) (s : State) : Host.Outcome State Fault Refusal :=
  .next (s.nexec n true 1 [] [] fun s => do
    if d.val % 2 ≠ 0 then throw NFault.illegal
    let r ← s.npair n e
    nok ((r.2.2.setNd n d r.1).setNd n (odd d) r.2.1))

/-- ST. -/
def execNdlSt (n : Fin 8) (e : NEa) (d : Fin 16) (s : State) : Host.Outcome State Fault Refusal :=
  .next (s.nexec n true 1 [] [] fun s => do
    let t ← s.nstore n e (s.nd n d)
    nok t)

/-- STP. -/
def execNdlStp (n : Fin 8) (e : NEa) (d : Fin 16) (s : State) : Host.Outcome State Fault Refusal :=
  .next (s.nexec n true 1 [] [] fun s => do
    if d.val % 2 ≠ 0 then throw NFault.illegal
    let t ← s.nstorePair n e (s.nd n d) (s.nd n (odd d))
    nok t)

/-- What LDI puts into a register: sign-extended into D and M, zero-extended into others. -/
def ldiValue (r : NReg) (v : BitVec 16) : Nat :=
  match r with
  | .m _ => (v.signExtend 24).toNat
  | _ => v.toNat

/-- LDI. -/
def execNdlLdi (n : Fin 8) (r : NReg) (v : BitVec 16) (s : State) : Host.Outcome State Fault Refusal :=
  .next (s.nexec n true 1 [] [] fun s => nok (s.setNreg n r (ldiValue r v)))

/-- LDIL. -/
def execNdlLdil (n : Fin 8) (r : NReg) (v : BitVec 24) (s : State) : Host.Outcome State Fault Refusal :=
  .next (s.nexec n true 2 [] [] fun s => nok (s.setNreg n r v.toNat))

/-- What MOV puts into a register: the bits of the source; the upper bits of a wider register are open. -/
def movValue (r q : NReg) (v : Nat) : Nat :=
  if nregWidth q < nregWidth r then v + Config.movUpper v * 2 ^ nregWidth q else v

/-- MOV. -/
def execNdlMov (n : Fin 8) (r q : NReg) (s : State) : Host.Outcome State Fault Refusal :=
  .next (s.nexec n true 1 [] [] fun s => nok (s.setNreg n r (movValue r q (s.nreg n q))))

/-- LEA. -/
def execNdlLea (n : Fin 8) (pd ps mk : Fin 8) (s : State) : Host.Outcome State Fault Refusal :=
  .next (s.nexec n true 1 [] [] fun s => nok (s.setPtr n pd (s.ptr n ps + (s.eng n).m[mk])))

/-- A pair as a 32-bit signed number. -/
def pairInt (lo hi : BitVec 16) : Int := (hi ++ lo).toInt

/-- LDA. -/
def execNdlLda (n : Fin 8) (a : Fin 4) (e : NEa) (s : State) : Host.Outcome State Fault Refusal :=
  .next (s.nexec n true 1 [] [a] fun s => do
    let r ← s.npair n e
    nok (r.2.2.setAcc n a (pairInt r.1 r.2.1)))

/-- STH (R173). -/
def execNdlSth (n : Fin 8) (e : NEa) (a : Fin 4) (s : State) : Host.Outcome State Fault Refusal :=
  .next (s.nexec n true 1 [a] [] fun s => do
    let v := accRound (s.acc n a)
    let t ← s.nstore n e v.1
    nok (t.setSat n v.2))

/-- STL (R173). -/
def execNdlStl (n : Fin 8) (e : NEa) (a : Fin 4) (s : State) : Host.Outcome State Fault Refusal :=
  .next (s.nexec n true 1 [a] [] fun s => do
    let v := sat32 (s.acc n a)
    let t ← s.nstorePair n e v.1 v.2.1
    nok (t.setSat n v.2.2))

/-- STAH (R173). -/
def execNdlStah (n : Fin 8) (d : Fin 16) (a : Fin 4) (s : State) : Host.Outcome State Fault Refusal :=
  .next (s.nexec n true 1 [a] [] fun s =>
    let v := accRound (s.acc n a)
    nok ((s.setNd n d v.1).setSat n v.2))

/-! ### 16-bit arithmetic (R174, R180, R181) -/

/-- Dd := f Ds x, with Z and N, and what `g` does besides. -/
def State.nalu (s : State) (n : Fin 8) (d q : Fin 16) (x : NX) (f : BitVec 16 → BitVec 16 → BitVec 16)
    (g : BitVec 16 → BitVec 16 → State → State) : State :=
  s.nexec n true 1 [] [] fun s => do
    let u := s.nd n q
    let r ← s.nx n x
    nok (g u r.1 ((r.2.setNd n d (f u r.1)).setZN n (f u r.1)))

/-- ADD. -/
def execNdlAdd (n : Fin 8) (d q : Fin 16) (x : NX) (s : State) : Host.Outcome State Fault Refusal :=
  .next (s.nalu n d q x (fun u v => u + v) (fun u v t => t.setC n (carryOf u v)))

/-- SUB. -/
def execNdlSub (n : Fin 8) (d q : Fin 16) (x : NX) (s : State) : Host.Outcome State Fault Refusal :=
  .next (s.nalu n d q x (fun u v => u - v) (fun u v t => t.setC n (borrowC u v)))

/-- ADDS. -/
def execNdlAdds (n : Fin 8) (d q : Fin 16) (x : NX) (s : State) : Host.Outcome State Fault Refusal :=
  .next (s.nalu n d q x (fun u v => (sat16 (u.toInt + v.toInt)).1) (fun u v t => t.setSat n (sat16 (u.toInt + v.toInt)).2))

/-- SUBS. -/
def execNdlSubs (n : Fin 8) (d q : Fin 16) (x : NX) (s : State) : Host.Outcome State Fault Refusal :=
  .next (s.nalu n d q x (fun u v => (sat16 (u.toInt - v.toInt)).1) (fun u v t => t.setSat n (sat16 (u.toInt - v.toInt)).2))

/-- AND. -/
def execNdlAnd (n : Fin 8) (d q : Fin 16) (x : NX) (s : State) : Host.Outcome State Fault Refusal :=
  .next (s.nalu n d q x (fun u v => u &&& v) (fun _ _ t => t))

/-- OR. -/
def execNdlOr (n : Fin 8) (d q : Fin 16) (x : NX) (s : State) : Host.Outcome State Fault Refusal :=
  .next (s.nalu n d q x (fun u v => u ||| v) (fun _ _ t => t))

/-- XOR. -/
def execNdlXor (n : Fin 8) (d q : Fin 16) (x : NX) (s : State) : Host.Outcome State Fault Refusal :=
  .next (s.nalu n d q x (fun u v => u ^^^ v) (fun _ _ t => t))

/-- A 16-bit shift: C is the last bit moved out.  C of a shift by 0, and result and C of one by more than 15, are
free. -/
def State.nshiftOp (s : State) (n : Fin 8) (d q : Fin 16) (k : NShift) (f : BitVec 16 → Nat → BitVec 16)
    (out : BitVec 16 → Nat → Bool) : State :=
  s.nexec n true 1 [] [] fun s =>
    let u := s.nd n q
    let k := s.nshift n k
    let free := s.free
    let s := if k = 0 ∨ 15 < k then s.takeFree else s
    let v := if 15 < k then BitVec.ofNat 16 (Config.ndlFree 2 free) else f u k
    let c := if k = 0 then decide (Config.ndlFree 1 free % 2 = 1)
      else if 15 < k then decide (Config.ndlFree 3 free % 2 = 1) else out u k
    nok (((s.setNd n d v).setZN n v).setC n c)

/-- SHL. -/
def execNdlShl (n : Fin 8) (d q : Fin 16) (k : NShift) (s : State) : Host.Outcome State Fault Refusal :=
  .next (s.nshiftOp n d q k (fun u k => u <<< k) shlOut)

/-- SHR. -/
def execNdlShr (n : Fin 8) (d q : Fin 16) (k : NShift) (s : State) : Host.Outcome State Fault Refusal :=
  .next (s.nshiftOp n d q k (fun u k => u.sshiftRight k) shrOut)

/-- SHRL. -/
def execNdlShrl (n : Fin 8) (d q : Fin 16) (k : NShift) (s : State) : Host.Outcome State Fault Refusal :=
  .next (s.nshiftOp n d q k (fun u k => u >>> k) shrOut)

/-- ABS. -/
def execNdlAbs (n : Fin 8) (d q : Fin 16) (s : State) : Host.Outcome State Fault Refusal :=
  .next (s.nexec n true 1 [] [] fun s =>
    let v := sat16 ((s.nd n q).toInt.natAbs : Int)
    nok (((s.setNd n d v.1).setZN n v.1).setSat n v.2))

/-- CMP. -/
def execNdlCmp (n : Fin 8) (q : Fin 16) (x : NX) (s : State) : Host.Outcome State Fault Refusal :=
  .next (s.nexec n true 1 [] [] fun s => do
    let u := s.nd n q
    let r ← s.nx n x
    nok ((r.2.setZN n (u - r.1)).setC n (borrowC u r.1)))

/-- NORM. -/
def execNdlNorm (n : Fin 8) (d : Fin 16) (a : Fin 4) (s : State) : Host.Outcome State Fault Refusal :=
  .next (s.nexec n true 1 [a] [] fun s =>
    let v := BitVec.ofNat 16 (signBits (s.eng n).ac[a])
    nok ((s.setNd n d v).setZ n (decide (v = 0))))

/-- One step of division (R181): the accumulator shifted left, the divisor taken from its upper part where it fits. -/
def divStep (ac : BitVec 40) (ds : BitVec 16) : BitVec 40 :=
  let t := ac <<< 1
  if ds.toNat ≤ t.toNat / 2 ^ 16 then BitVec.ofNat 40 (t.toNat - ds.toNat * 2 ^ 16 + 1) else t

/-- DIVS: C is free.  DESIGN CHOICE: the step count counts the steps since AC0 was last written otherwise (log entry 51). -/
def execNdlDivs (n : Fin 8) (d q : Fin 16) (s : State) : Host.Outcome State Fault Refusal :=
  .next (s.nexec n true 1 [0] [0] fun s =>
    let x := s.eng n
    let v := divStep x.ac[0] (s.nd n q)
    let t := (s.setEng n { x with ac := x.ac.set 0 v, steps := x.steps + 1 }).takeFree
    nok ((t.setNd n d (BitVec.ofNat 16 (x.steps + 1))).setC n (decide (Config.ndlFree 4 s.free % 2 = 1))))

/-! ### Multiplies and accumulators (R171, R172) -/

/-- ACa := f ACa x y. -/
def State.nmul (s : State) (n : Fin 8) (a : Fin 4) (x : NX) (y : Fin 16) (reads : List (Fin 4))
    (f : Int → BitVec 16 → BitVec 16 → Int) : State :=
  s.nexec n true 1 reads [a] fun s => do
    let r ← s.nx n x
    nok (r.2.putAcc n a (f (s.acc n a) r.1 (s.nd n y)))

/-- MPY. -/
def execNdlMpy (n : Fin 8) (a : Fin 4) (x : NX) (y : Fin 16) (s : State) : Host.Outcome State Fault Refusal :=
  .next (s.nmul n a x y [] (fun _ u v => prodF u v))

/-- MPYI. -/
def execNdlMpyi (n : Fin 8) (a : Fin 4) (x : NX) (y : Fin 16) (s : State) : Host.Outcome State Fault Refusal :=
  .next (s.nmul n a x y [] (fun _ u v => prodI u v))

/-- MAC. -/
def execNdlMac (n : Fin 8) (a : Fin 4) (x : NX) (y : Fin 16) (s : State) : Host.Outcome State Fault Refusal :=
  .next (s.nmul n a x y [a] (fun c u v => c + prodF u v))

/-- MSU. -/
def execNdlMsu (n : Fin 8) (a : Fin 4) (x : NX) (y : Fin 16) (s : State) : Host.Outcome State Fault Refusal :=
  .next (s.nmul n a x y [a] (fun c u v => c - prodF u v))

/-- MACD. -/
def execNdlMacd (n : Fin 8) (a : Fin 4) (e f : NEa) (s : State) : Host.Outcome State Fault Refusal :=
  .next (s.nexec n true 1 [a] [a] fun s => do
    let r ← s.nmem n e
    let q ← r.2.nmem n f
    .ok ⟨q.2.putAcc n a (s.acc n a + prodF r.1 q.1), false, if s.sameMem r.2 n (.mem e) (.mem f) then 1 else 0⟩)

/-- The accumulator after an even one. -/
def accOdd (a : Fin 4) : Fin 4 := ⟨(a.val + 1) % 4, Nat.mod_lt _ (by decide)⟩

/-- ACa and ACa+1 advanced by the real and the imaginary part of a complex product (R181); a is 0 or 2. -/
def State.ncmac (s : State) (n : Fin 8) (a : Fin 4) (x y : NX)
    (re im : BitVec 16 → BitVec 16 → BitVec 16 → BitVec 16 → Int) : State :=
  s.nexec n true 1 [a, accOdd a] [a, accOdd a] fun s => do
    if a.val % 2 ≠ 0 then throw NFault.illegal
    let u ← s.nxp n x
    let v ← u.2.2.nxp n y
    let t := v.2.2.putAcc n a (s.acc n a + re u.1 u.2.1 v.1 v.2.1)
    let t := t.putAcc n (accOdd a) (s.acc n (accOdd a) + im u.1 u.2.1 v.1 v.2.1)
    .ok ⟨t, false, if s.sameMem u.2.2 n x y then 1 else 0⟩

/-- CMAC. -/
def execNdlCmac (n : Fin 8) (a : Fin 4) (x y : NX) (s : State) : Host.Outcome State Fault Refusal :=
  .next (s.ncmac n a x y (fun xr xi yr yi => prodF xr yr - prodF xi yi) (fun xr xi yr yi => prodF xr yi + prodF xi yr))

/-- CMACJ. -/
def execNdlCmacj (n : Fin 8) (a : Fin 4) (x y : NX) (s : State) : Host.Outcome State Fault Refusal :=
  .next (s.ncmac n a x y (fun xr xi yr yi => prodF xr yr + prodF xi yi) (fun xr xi yr yi => prodF xi yr - prodF xr yi))

/-- PWR. -/
def execNdlPwr (n : Fin 8) (a : Fin 4) (x : NX) (s : State) : Host.Outcome State Fault Refusal :=
  .next (s.nexec n true 1 [] [a] fun s => do
    let u ← s.nxp n x
    nok (u.2.2.putAcc n a (prodF u.1 u.1 + prodF u.2.1 u.2.1)))

/-- PWRA. -/
def execNdlPwra (n : Fin 8) (a : Fin 4) (x : NX) (s : State) : Host.Outcome State Fault Refusal :=
  .next (s.nexec n true 1 [a] [a] fun s => do
    let u ← s.nxp n x
    nok (u.2.2.putAcc n a (s.acc n a + (prodF u.1 u.1 + prodF u.2.1 u.2.1))))

/-- ADDA. -/
def execNdlAdda (n : Fin 8) (a b : Fin 4) (s : State) : Host.Outcome State Fault Refusal :=
  .next (s.nexec n true 1 [a, b] [a] fun s => nok (s.putAcc n a (s.acc n a + s.acc n b)))

/-- SUBA. -/
def execNdlSuba (n : Fin 8) (a b : Fin 4) (s : State) : Host.Outcome State Fault Refusal :=
  .next (s.nexec n true 1 [a, b] [a] fun s => nok (s.putAcc n a (s.acc n a - s.acc n b)))

/-- SHA: to the left by a positive amount, arithmetically to the right by a negative one; no other amount is defined. -/
def execNdlSha (n : Fin 8) (a : Fin 4) (k : Int) (s : State) : Host.Outcome State Fault Refusal :=
  .next (s.nexec n true 1 [a] [a] fun s => do
    if k < -16 ∨ 16 < k then throw NFault.illegal
    nok (s.putAcc n a (if 0 ≤ k then s.acc n a * 2 ^ k.toNat else s.acc n a / 2 ^ (-k).toNat)))

/-- NEGA. -/
def execNdlNega (n : Fin 8) (a : Fin 4) (s : State) : Host.Outcome State Fault Refusal :=
  .next (s.nexec n true 1 [a] [a] fun s => nok (s.putAcc n a (-(s.acc n a))))

/-- CLRA. -/
def execNdlClra (n : Fin 8) (a : Fin 4) (s : State) : Host.Outcome State Fault Refusal :=
  .next (s.nexec n true 1 [] [a] fun s => nok (s.setAcc n a 0))

/-! ### Indexed search (R180) -/

/-- SETIX. -/
def execNdlSetix (n : Fin 8) (v : BitVec 16) (s : State) : Host.Outcome State Fault Refusal :=
  .next (s.nexec n true 1 [] [] fun s => nok (s.setNreg n .ix v.toNat))

/-- One comparison: the word becomes the extreme where it beats Dv, and IX advances. -/
def State.search (s : State) (n : Fin 8) (v d : Fin 16) (w : BitVec 16) (less : Bool) : State :=
  let ix := (s.eng n).ix
  let hit := if less then decide (w.toInt < (s.nd n v).toInt) else decide ((s.nd n v).toInt < w.toInt)
  let s := if hit then (s.setNd n v w).setNd n d ix else s
  s.setEng n { s.eng n with ix := ix + 1 }

/-- IMIN. -/
def execNdlImin (n : Fin 8) (v d : Fin 16) (e : NEa) (s : State) : Host.Outcome State Fault Refusal :=
  .next (s.nexec n true 1 [] [] fun s => do
    let r ← s.nmem n e
    nok (r.2.search n v d r.1 true))

/-- IMAX. -/
def execNdlImax (n : Fin 8) (v d : Fin 16) (e : NEa) (s : State) : Host.Outcome State Fault Refusal :=
  .next (s.nexec n true 1 [] [] fun s => do
    let r ← s.nmem n e
    nok (r.2.search n v d r.1 false))

/-- IMIN2. -/
def execNdlImin2 (n : Fin 8) (v d : Fin 16) (e : NEa) (s : State) : Host.Outcome State Fault Refusal :=
  .next (s.nexec n true 1 [] [] fun s => do
    let r ← s.npair n e
    nok ((r.2.2.search n v d r.1 true).search n v d r.2.1 true))

/-- IMAX2. -/
def execNdlImax2 (n : Fin 8) (v d : Fin 16) (e : NEa) (s : State) : Host.Outcome State Fault Refusal :=
  .next (s.nexec n true 1 [] [] fun s => do
    let r ← s.npair n e
    nok ((r.2.2.search n v d r.1 false).search n v d r.2.1 false))

/-! ### Control flow -/

/-- Whether a condition of BR holds. -/
def Ndl.cond (x : Ndl) : NCond → Bool
  | .al => true
  | .z => x.z
  | .nz => !x.z
  | .n => x.n
  | .nn => !x.n
  | .c => x.c
  | .nc => !x.c

/-- BR. -/
def execNdlBr (n : Fin 8) (cond : NCond) (to_ : BitVec 14) (s : State) : Host.Outcome State Fault Refusal :=
  .next (s.nexec n false 1 [] [] fun s =>
    if (s.eng n).cond cond then .ok ⟨s.setEng n ((s.eng n).branch to_), true, 1⟩ else nok s)

/-- CALL. -/
def execNdlCall (n : Fin 8) (to_ : BitVec 14) (s : State) : Host.Outcome State Fault Refusal :=
  .next (s.nexec n false 2 [] [] fun s =>
    let x := s.eng n
    if 8 ≤ x.calls.length then .error NFault.callStack
    else .ok ⟨s.setEng n { x with calls := (x.pc + 1) :: x.calls, pc := to_ }, true, 0⟩)

/-- RET: where there is no call to return from, the PC is free. -/
def execNdlRet (n : Fin 8) (s : State) : Host.Outcome State Fault Refusal :=
  .next (s.nexec n false 2 [] [] fun s =>
    let x := s.eng n
    match x.calls with
    | a :: as => .ok ⟨s.setEng n { x with calls := as, pc := a }, true, 0⟩
    | [] => .ok ⟨(s.setEng n { x with pc := BitVec.ofNat 14 (Config.ndlFree 6 s.free) }).takeFree, true, 0⟩)

/-- A count of LOOP or REP: how often 0 runs is free. -/
def State.countOf (s : State) (c : Nat) : Nat × State :=
  if c = 0 then (Config.ndlFree 7 s.free % 65536, s.takeFree) else (c, s)

/-- LOOP. -/
def execNdlLoop (n : Fin 8) (k : Fin 2) (c : NCount) (end_ : BitVec 14) (s : State) : Host.Outcome State Fault Refusal :=
  .next (s.nexec n false 1 [] [] fun s =>
    let x := s.eng n
    if 2 ≤ x.loops.length then .error NFault.illegal
    else
      let r := s.countOf (s.ncount n c)
      let lc := x.lc.set k (BitVec.ofNat 16 r.1)
      let start := x.pc + 1
      let len := (end_ - x.pc).toNat
      let x := { x with lc := lc, cache := if len ≤ 64 then some (start, len) else none }
      .ok ⟨r.2.setEng n (if r.1 = 0 then { x with pc := end_ + 1 } else { x with pc := start, loops := ⟨k, start, end_⟩ :: x.loops }),
        true, 0⟩)

/-- REP. -/
def execNdlRep (n : Fin 8) (c : NCount) (s : State) : Host.Outcome State Fault Refusal :=
  .next (s.nexec n true 1 [] [] fun s =>
    let r := s.countOf (s.ncount n c)
    let x := { s.eng n with rep := none }.advance
    .ok ⟨r.2.setEng n (if r.1 = 0 then x.advance else { x with rep := some r.1, cache := some (x.pc, 1) }), true, 0⟩)

/-- CLRF. -/
def execNdlClrf (n : Fin 8) (mask : BitVec 8) (s : State) : Host.Outcome State Fault Refusal :=
  .next (s.nexec n true 1 [] [] fun s =>
    nok (s.wr (Pg.NDL n + NDL.FLAGS.off) (s.rd (Pg.NDL n + NDL.FLAGS.off) &&& ~~~ (mask.zeroExtend 32))))

/-! ### Claims and block moves (R182 to R186) -/

/-- Where a record of a slot begins in capture space (R182). -/
def recordBase (slot : Nat) (newer : Bool) : Nat :=
  if slot < 8 then 0x200000 + 0x30000 * slot + (if newer then 0x18000 else 0)
  else 0x380000 + 0x8000 * (slot - 8) + (if newer then 0x4000 else 0)

/-- The record that holds a word of capture space, by 2 * slot + record, and the place of the word in it. -/
def recordOf (a : Nat) : Nat × Nat :=
  if a < 0x380000 then ((a - 0x200000) / 0x18000, (a - 0x200000) % 0x18000)
  else (16 + (a - 0x380000) / 0x4000, (a - 0x380000) % 0x4000)

/-- The newest complete record of a slot. -/
def State.newest (s : State) (slot : Nat) : Option Bool := SMap.get (fun _ => none) s.capture.newest slot

/-- CLAIM (R183). -/
def execNdlClaim (n : Fin 8) (p : Fin 8) (slot : Fin 16) (s : State) : Host.Outcome State Fault Refusal :=
  .next (s.nexec n true 2 [] [] fun s =>
    match s.newest slot.val with
    | none => nok (s.setZ n true)
    | some r =>
      let s := s.setPtr n p (BitVec.ofNat 24 (recordBase slot.val r))
      let x := s.eng n
      nok (s.setEng n { x with z := false, claims := if x.claims.contains (slot, r) then x.claims else x.claims ++ [(slot, r)] }))

/-- RELEASE (R183). -/
def execNdlRelease (n : Fin 8) (slot : Fin 16) (s : State) : Host.Outcome State Fault Refusal :=
  .next (s.nexec n true 1 [] [] fun s =>
    nok (s.setEng n { s.eng n with claims := (s.eng n).claims.filter (fun c => decide (c.1 ≠ slot)) }))

/-- The external window of an engine (R167). -/
def State.extBase (s : State) (n : Fin 8) : Nat :=
  s.get (Pg.NDL n) NDL.EXT_BASE_LO * 2 ^ 24 + s.get (Pg.NDL n) NDL.EXT_BASE_HI * 2 ^ 32

/-- The FAULT_CODE of a run of words in the external window, where it has one (R189). -/
def State.extFault (s : State) (n : Fin 8) (a w : Nat) : Option Nat :=
  if 0x1000000 < a + w then some NFault.extWindow
  else if usableMem < s.extBase n + 2 * (a - 0x800000) + 2 * w then some NFault.access
  else none

/-- The FAULT_CODE of a run of words as the source of a move (R167, R168). -/
def State.srcFault (s : State) (n : Fin 8) (a w : Nat) : Option Nat :=
  if a + w ≤ 0x8000 then none
  else if 0x10000 ≤ a ∧ a + w ≤ 0x17FE0 then none
  else if 0x200000 ≤ a ∧ a + w ≤ 0x3C0000 then none
  else if 0x800000 ≤ a then s.extFault n a w
  else some NFault.access

/-- The FAULT_CODE of a run of words as the destination of a move. -/
def State.dstFault (s : State) (n : Fin 8) (a w : Nat) : Option Nat :=
  if a + w ≤ 0x8000 then none
  else if 0x10000 ≤ a ∧ a + w ≤ 0x17FE0 then none
  else if s.threeMem n ∧ 0x20000 ≤ a ∧ a + w ≤ 0x22000 then none
  else if 0x800000 ≤ a then s.extFault n a w
  else some NFault.access

/-- The cycle of the run with which a move completes that is issued now (R186): 24 cycles after its issue and 8 words in a
cycle between on-chip spaces, a free value more for the external window; moves complete in issue order. -/
def State.xferDue (s : State) (n : Fin 8) (dst src k : Nat) : Nat :=
  let x := s.eng n
  let took := if 0x800000 ≤ dst ∨ 0x800000 ≤ src then Config.ndlFree 5 s.free else 24 + (2 * k + 7) / 8
  (x.moves.map NMove.due).foldl max (x.cycles + 1 + took)

/-- XFER (R186): a third move waits at issue, and so nothing happens yet. -/
def execNdlXfer (n : Fin 8) (pd ps : Fin 8) (d : Fin 16) (s : State) : Host.Outcome State Fault Refusal :=
  .next (
    if s.ndlRuns n && (s.eng n).rep.isNone && decide (2 ≤ (s.eng n).moves.length) then
      s.setEng n { s.eng n with wait := .xfer }
    else s.nexec n false 1 [] [] fun s =>
      let k := (s.nd n d).toNat
      let src := even (s.ptr n ps).toNat
      let dst := even (s.ptr n pd).toNat
      match s.srcFault n src (max 1 (2 * k)), s.dstFault n dst (max 1 (2 * k)) with
      | some c, _ => .error c
      | none, some c => .error c
      | none, none =>
        if k = 0 then nok s
        else nok ((s.setEng n { s.eng n with moves := (s.eng n).moves ++ [⟨dst, src, k, s.xferDue n dst src k⟩] }).takeFree.set (Pg.NDL n)
          NDL.RUNSTAT_XFER 1))

/-- The words a move reads, whether any is poisoned (R399), and the state after. -/
def State.moveRead (s : State) (n : Fin 8) (a w : Nat) : List (BitVec 16) × Bool × State :=
  if 0x800000 ≤ a then
    let r := s.memRead (s.extBase n + 2 * (a - 0x800000)) (2 * w) 4
    ((List.range w).map (fun k => BitVec.ofNat 16 (leNat ((r.1.drop (2 * k)).take 2))), r.2.1, r.2.2)
  else if 0x200000 ≤ a then
    ((List.range w).map (fun k =>
      let x := recordOf (a + k)
      (SMap.get (fun _ => []) s.capture.words x.1).getD x.2 0), false, s)
  else (SMap.getList ndlWord (s.eng n).mem a w, false, s)

/-- The words of a move written. -/
def State.moveWrite (s : State) (n : Fin 8) (a : Nat) (ws : List (BitVec 16)) : State :=
  if 0x800000 ≤ a then
    s.memWrite (s.extBase n + 2 * (a - 0x800000)) (ws.map (fun w => leBytes 2 w.toNat)).flatten 4
  else s.setEng n { s.eng n with mem := SMap.setList ndlWord (s.eng n).mem a ws }

/-- An engine that waits for a move at WAITX, XFER or HALT has waited for its last cycle (R186, R187, R197); WAITX takes
its own cycle with the last it waits. -/
def State.moveWaited (s : State) (n : Fin 8) (m : NMove) : State :=
  if (s.eng n).halting || decide ((s.eng n).wait = .xfer) then s.ndlWaitTo n m.due
  else if (s.eng n).wait = .waitx then s.ndlWaitTo n (m.due - 1)
  else s

/-- XFER_COMPLETE (R186, R187, R399). -/
def execXferComplete (n : Fin 8) (s : State) : Host.Outcome State Fault Refusal :=
  .next (
    match (s.eng n).moves with
    | [] => s
    | m :: rest =>
      let r := s.moveRead n m.src (2 * m.pairs)
      if r.2.1 then r.2.2.ndlFault n 0x02
      else
        let s := (r.2.2.moveWrite n m.dst r.1).moveWaited n m
        let s := (s.setEng n { s.eng n with moves := rest }).add64 (Pg.NDL n) NDL.XFER_PAIRS_LO m.pairs
        let s := s.setBit (Pg.NDL n) NDL.RUNSTAT_XFER !rest.isEmpty
        if (s.eng n).halting && rest.isEmpty then s.runDone n else s)

/-- WAITX: while a move is outstanding the engine waits, and nothing happens. -/
def execNdlWaitx (n : Fin 8) (s : State) : Host.Outcome State Fault Refusal :=
  .next (
    if s.ndlRuns n && (s.eng n).rep.isNone && !(s.eng n).moves.isEmpty then s.setEng n { s.eng n with wait := .waitx }
    else s.nexec n false 1 [] [] nok)

/-- SIGNAL. -/
def execNdlSignal (n : Fin 8) (code : Byte) (s : State) : Host.Outcome State Fault Refusal :=
  .next (s.nexec n true 1 [] [] fun s =>
    nok (((s.set (Pg.NDL n) NDL.RUNSTAT_LAST_SIGNAL code.toNat).evt (Pg.NDL n) 8).emit (.signal n.val code)))

/-- HALT (R187): claims are released; the run ends once no move is outstanding. -/
def execNdlHalt (n : Fin 8) (s : State) : Host.Outcome State Fault Refusal :=
  .next (
    let t := s.nexec n true 1 [] [] fun s => .ok ⟨s.setEng n { s.eng n with claims := [], halting := true, rep := none }, true, 0⟩
    if s.ndlRuns n && (t.eng n).halting && (t.eng n).moves.isEmpty then t.runDone n else t)

/-- NOP. -/
def execNdlNop (n : Fin 8) (s : State) : Host.Outcome State Fault Refusal := .next (s.nexec n true 1 [] [] nok)

/-- ILLEGAL_INSTRUCTION (R181, R189). -/
def execIllegalInstruction (n : Fin 8) (s : State) : Host.Outcome State Fault Refusal :=
  .next (if s.ndlRuns n then s.ndlFault n NFault.illegal else s)

/-! ### Triggers and the run limit (R187, R188) -/

/-- NEEDLE_TRIGGER. -/
def execNeedleTrigger (n : Fin 8) (source : BitVec 3) (slot : Fin 16) (s : State) : Host.Outcome State Fault Refusal :=
  .next (
    if s.takesFrom n source.toNat && decide (source.toNat ≠ 0)
        && (decide (source.toNat ≠ 1) || decide (s.get (Pg.NDL n) NDL.TRIG_SLOT = slot.val)) then s.trigger (s.trigEngine n)
    else s)

/-- NEEDLE_PERIOD_TIMER. -/
def execNeedlePeriodTimer (n : Fin 8) (s : State) : Host.Outcome State Fault Refusal :=
  .next (if s.takesFrom n 2 then s.trigger (s.trigEngine n) else s)

/-- A write of `NDLn.KICK`. -/
def State.kick (s : State) (src : Source) (n : Fin 8) (val : Word) : State :=
  match s.accessReg src (Pg.NDL n + NDL.KICK.off) true with
  | .rejected p r => s.refuse src p r true (Pg.NDL n + NDL.KICK.off)
  | .ok _ => if val.toNat % 2 = 1 ∧ s.takesFrom n 3 = true then s.trigger (s.trigEngine n) else s

/-- KICK (R166, R187). -/
def execKick (src : Source) (n : Fin 8) (val : Word) (s : State) : Host.Outcome State Fault Refusal := .next (s.kick src n val)

/-- MAX_CYCLES_EXCEEDED (R188). -/
def execMaxCyclesExceeded (n : Fin 8) (s : State) : Host.Outcome State Fault Refusal :=
  .next (if s.ndlBusy n then s.ndlFault n NFault.maxCycles else s)

end Sys2Proof.Machine
end

