-- ==== Sys2Proof/Machine/Kernel.lean ====
section
/-!
DEFINITION. Machine/Kernel.lean: kernel images and the mailbox commands of the Needle engines (R166, R190 to R193), and the
capture records that the modem writes (R150, R151, R182 to R185).
-/

namespace Sys2Proof.Machine

/-! ### Kernel images (R190) -/

/-- Words of 16 bits from bytes. -/
def halfWords : Nat → List Byte → List (BitVec 16)
  | 0, _ => []
  | k + 1, bs => BitVec.ofNat 16 (leNat (bs.take 2)) :: halfWords k (bs.drop 2)

/-- A length padded to 16 bytes. -/
def pad16Len (k : Nat) : Nat := (k + 15) / 16 * 16

/-- The kernel of an image whose checks passed; none when the body is malformed (R190). -/
def kernelOf (img : List Byte) : Option NKernel :=
  let h := img.take 0x140
  let body := (img.drop 0x140).take (hdrBodyLength h)
  let f := hdrField body
  let prog := f 0x10 4
  let x := f 0x14 4
  let y := f 0x18 4
  let c := f 0x1C 4
  let entry := hdrField h 0x14 4
  let xAt := 0x40 + pad16Len (4 * prog)
  let yAt := xAt + pad16Len (2 * x)
  let cAt := yAt + pad16Len (2 * y)
  if body.take 4 = [0x4E, 0x44, 0x4C, 0x4B] ∧ f 4 1 ≤ 1 ∧ f 5 1 ≤ 4 ∧ f 6 1 ≤ 15 ∧ f 8 4 < 2 ^ 24
      ∧ prog ≤ 16384 ∧ x ≤ 32768 ∧ y ≤ 32736 ∧ c ≤ (if f 4 1 = 1 then 8192 else 0)
      ∧ cAt + pad16Len (2 * c) ≤ body.length ∧ entry % 4 = 0 ∧ 0x40 ≤ entry ∧ entry < 0x40 + 4 * prog then
    some ⟨hdrField h 0xC 4, BitVec.ofNat 14 ((entry - 0x40) / 4), leWords prog (body.drop 0x40),
      halfWords x (body.drop xAt), halfWords y (body.drop yAt), halfWords c (body.drop cAt),
      f 4 1, f 5 1, f 6 1, f 8 4, f 0xC 4⟩
  else none

/-- The engine a mailbox command names, where it is one that can be assigned. -/
def spareEngine (args : List Word) : Option (Fin 8) :=
  match argWord args 1 % 16 with
  | 6 => some 6
  | 7 => some 7
  | _ => none

/-- The image checked and taken (R191). -/
def State.ndlLoadImage (s : State) (n : Fin 8) (img : List Byte) : Nat × List Word × State :=
  if !(s.userKernels && s.ndlCustomer (Pg.NDL n)) then (Sts.notPermitted, [], s)
  else
    match s.imageCheck 3 img with
    | some c => (checkStatus c, [], s)
    | none =>
      match kernelOf img with
      | none => (Sts.badArg, [], s)
      | some k =>
        let s := { s with boot := { s.boot with customer := some (imgInfo (img.take 0x140)) } }
        (Sts.ok, [], (s.measExtend 3 (signedDigest (img.take 0x140))).ndlTake n k)

/-- NDL_LOAD (R191): `image` is what lies at the host address on channel 0, as far as it could be read. -/
def mbxNdlLoad (ch : Chan) (args : List Word) (image : List Byte) (s : State) : Nat × List Word × State :=
  match spareEngine args with
  | none => (Sts.badArg, [], s)
  | some n =>
    match ch with
    | .ch0 =>
      let len := argWord args 4
      if image.length < len then (Sts.dmaError, [], s) else s.ndlLoadImage n (image.take len)
    | .ch1 =>
      let off := argWord args 2
      let bs := bytesOfWords ((args.drop 2).take 29)
      let have_ := putChunk s.ndlChunks off bs
      let total := 0x140 + hdrBodyLength (have_.take 0x140)
      if 0x140 ≤ have_.length ∧ off < total ∧ total ≤ off + bs.length then
        ({ s with ndlChunks := [] } : State).ndlLoadImage n (have_.take total)
      else (Sts.ok, [], { s with ndlChunks := have_ })

/-- The vendor kernel set of a bank verified and loaded (R54, R68, R76): the engines that run are reloaded live (R85, R194). -/
def State.loadKernels (s : State) (b : Bank) : State :=
  let img := s.flashImage (s.bankSecond b)
  if s.imageCheck 2 img = none then
    let h := img.take 0x140
    (s.measExtend 2 (signedDigest h)).reloadVendor (imgInfo h)
  else s

/-- NDL_ASSIGN (R192). -/
def mbxNdlAssign (args : List Word) (s : State) : Nat × List Word × State :=
  match spareEngine args with
  | none => (Sts.badArg, [], s)
  | some n =>
    let b := Pg.NDL n
    let customer := argWord args 1 / 256 % 2 = 1
    if !s.fnIs (.ndl n) .off then (Sts.busy, [], s)
    else if customer then
      if s.userKernels then (Sts.ok, [], s.set b NDL.CFG_ROLE 1) else (Sts.notPermitted, [], s)
    else
      let x := s.eng n
      let s := s.setEng n { x with kernel := none, next := none, mem := SMap.drop (fun a => decide (a < 0x20000)) x.mem }
      let s := s.wrWords (b + (NDL.MBOX 0).off) (List.replicate 16 0)
      (Sts.ok, [], (s.set b NDL.CFG_ROLE 0).set b NDL.KERNEL 0)

/-- The word of NDL_STATUS for an engine (R193). -/
def State.ndlWord (s : State) (n : Fin 8) : Word :=
  let k := s.ndlKernel n
  let v := match k with
    | some k => k.version / 2 ^ 16 % 2 ^ 16
    | none => 0
  BitVec.ofNat 32 ((s.eng n).lastFault * 2 ^ 24 + v * 2 ^ 8 + s.get (Pg.NDL n) NDL.CFG_ROLE * 2 ^ 6
    + (s.fn (.ndl n)).st.code * 2 ^ 3 + (if k.isSome then 4 else 0))

/-- NDL_STATUS (R193). -/
def mbxNdlStatus (s : State) : Nat × List Word × State := (Sts.ok, (List.finRange 8).map (fun n => s.ndlWord n), s)

/-! ### Capture records (R150, R151, R182 to R185) -/

/-- Whether any engine holds a claim on a record (R183). -/
def State.pinned (s : State) (slot : Nat) (r : Bool) : Bool :=
  s.ndl.any (fun kv => kv.2.claims.any (fun c => decide (c.1.val = slot ∧ c.2 = r)))

/-- The record of a slot that a new one is written into: one not pinned, the older first; none when both are pinned
(R184). -/
def State.recordFor (s : State) (slot : Nat) : Option Bool :=
  let old := match s.newest slot with
    | some r => !r
    | none => false
  if !s.pinned slot old then some old
  else if !s.pinned slot (!old) then some (!old)
  else none

/-- A record written, or discarded with PIN_BLOCK at every engine that holds a claim in the slot (R184). -/
def State.writeCapture (s : State) (p : Port) (slot : Nat) (ws : List (BitVec 16)) : State :=
  match s.recordFor slot with
  | some r =>
    let k := 2 * slot + (if r then 1 else 0)
    let old := SMap.get (fun _ => []) s.capture.words k
    let s := { s with capture := ⟨SMap.set (fun _ => []) s.capture.words k (ws ++ old.drop ws.length),
      SMap.set (fun _ => none) s.capture.newest slot (some r)⟩ }
    s.evt (Pg.LINE p) 14
  | none =>
    (List.finRange 8).foldl (fun s n =>
      if (s.eng n).claims.any (fun c => decide (c.1.val = slot)) then (s.inc (Pg.NDL n) NDL.PIN_BLOCK).evt (Pg.NDL n) 11
      else s) s

/-- A number as four words, the low one first (R185). -/
def fourWords (v : Nat) : List (BitVec 16) := (List.range 4).map (fun k => BitVec.ofNat 16 (v / 2 ^ (16 * k)))

/-- A channel-estimate record (R150, R185). -/
def State.eqRecord (s : State) (p : Port) : List (BitVec 16) :=
  let m := s.modem p
  fourWords (s.down p).count ++ fourWords (s.down p).boundary ++ List.replicate 24 0
    ++ ((List.range 2048).map (fun k =>
      if 16 ≤ k ∧ k ≤ 1919 then [Config.estWord (m.rawAt k).1, Config.estWord (m.rawAt k).2, Config.noiseWord (m.noiseAt k), 0]
      else [0, 0, 0, 0])).flatten

/-- What the vendor kernel on NDL0 or NDL2 does with a capture (R143, R144, R165, R305): it keeps |E|² of the last 64 captures
for the power average, forms the smoothed SNR, takes the least of the last 16 captures, and proposes the loading they lead to
unless it was proposed last. -/
def State.propose (s : State) (p : Port) : State :=
  let n : Fin 8 := match p with
    | .portA => 0
    | .portB => 2
  if s.takesFrom n 1 && decide (s.get (Pg.NDL n) NDL.TRIG_SLOT = s.get (Pg.LINE p) LINE0.EQ_CAP_SLOT) then
    let m := s.modem p
    let snrs := ((List.range 1904).map (Config.smoothedSnr m.raw m.noise) :: m.snrs).take 16
    let least := (List.range 1904).map (fun i => (snrs.map (fun x => x.getD i 0)).foldl min ((snrs.headD []).getD i 0))
    let load := proposal 10 9520 (s.rg p).margin least
    let power := (List.range 1904).map (fun i => let e := m.raw.getD i (0, 0); (e.1 * e.1 + e.2 * e.2).toNat)
    let s := s.setModem p { m with powers := (power :: m.powers).take 64, powersAt := s.clock.cycles, snrs := snrs,
                                   proposed := (load, m.proposed.2) }
    if m.proposed.1 = load then s else s.sendProposal p false load
  else s

/-- EQ_CAPTURE_RECORD (R143, R150): after every EVERY line frames while EN is 1. -/
def execEqCaptureRecord (p : Port) (s : State) : Host.Outcome State Fault Refusal :=
  .next (
    let b := Pg.LINE p
    if s.bit b LINE0.EQ_CAP_EN && decide (max 1 (s.get b LINE0.EQ_CAP_EVERY) ≤ (s.modem p).eqCount) then
      ((s.setModem p { s.modem p with eqCount := 0 }).writeCapture p (s.get b LINE0.EQ_CAP_SLOT) (s.eqRecord p)).propose p
    else s)

/-- TXMON_CAPTURE_DONE (R151, R185): 16,384 samples of TXMON, each taken TXMON_DELAY DAC samples after every fourth DAC
sample, and the 65,536 samples of the DPD input. -/
def execTxmonCaptureDone (p : Port) (first : Int) (input : List Int) (s : State) : Host.Outcome State Fault Refusal :=
  .next (
    match (s.modem p).txmonBurst with
    | none => s
    | some (frame, dac, prof, off, chain) =>
      let b := Pg.LINE p
      let at_ := fun (n : Int) => if n < first then 0 else input.getD (n - first).toNat 0
      let samples := (List.range 16384).map (fun (i : Nat) => at_ (4 * i + s.get b LINE1.TX_LAT_TXMON_DELAY : Nat))
      let ws := fourWords frame ++ fourWords dac.toNat ++ [BitVec.ofNat 16 prof, BitVec.ofNat 16 off] ++ List.replicate 22 0
        ++ samples.map (fun v => BitVec.ofInt 16 (v * 256)) ++ (chain.monitor off).map (fun v => BitVec.ofInt 16 v)
      let s := (s.setModem p { s.modem p with txmonBurst := none }).set b LINE2.TXMON_CAP_BUSY 0
      s.writeCapture p (s.get b LINE2.TXMON_CAP_SLOT) ws)

end Sys2Proof.Machine
end

