-- ==== Sys2Proof/Machine/Modem.lean ====
section
/-!
DEFINITION. Machine/Modem.lean: the modem and the optics interface of a line port (R126 to R163): clock recovery, gain,
equaliser, the decoder queue, the loading tables, captures of the transmit monitor, and the BOSA's pins.
-/

namespace Sys2Proof.Machine

/-! ### Clock recovery (R128, R129, R157) -/

/-- Spacing of line frame boundaries, its tolerance in ACQUIRE, and how far from its prediction a boundary may lie, in
ADC samples or in Fladon-1 bits (R115, R121, R128, R157). -/
def State.period (s : State) (p : Port) : Nat := if s.gen1 p then 6656000 else 12480000
def State.spacingTol (s : State) (p : Port) : Nat := if s.gen1 p then 1024 else 1536
def State.placeTol (s : State) (p : Port) : Nat := if s.gen1 p then 17 else 32

/-- Whether two positions lie within `tol` of each other. -/
def near (a b tol : Nat) : Bool := decide (a ≤ b + tol) && decide (b ≤ a + tol)

/-- TRACK left for LOCKED: the clocks switched to the recovered one (R13), and 1 ms of symbol sync begun (R117). -/
def State.cdrLock (s : State) (p : Port) : State :=
  let b := Pg.LINE p
  ((((s.set b LINE0.RX_STAT_CDR cdrLocked).set b LINE0.RX_STAT_CLK_SRC 1).evt b 8).startTimer (Tm.lss p) ms).refreshInhibit p

/-- A sync symbol placed, as clock recovery takes it. -/
def State.cdrFound (s : State) (p : Port) (o : SyncObs) : State :=
  let b := Pg.LINE p
  let m := s.modem p
  let st := s.cdr p
  let s := if st = cdrFree then s else s.set b LINE0.RX_FREQ (ofSigned 16 o.freq)
  if st = cdrAcquire then
    if m.finds.any (fun l => near o.place (l + s.period p) (s.spacingTol p)) then
      ((s.set b LINE0.RX_STAT_CDR cdrTrack).stopTimer (Tm.acquire p)).setModem p
        { m with last := some o.place, finds := [], good := 0, missed := 0 }
    else s.setModem p { m with last := some o.place, finds := o.place :: m.finds }
  else if st = cdrTrack then
    if 10000 < o.freq.natAbs then s.cdrToFree p true
    else
      let good := if o.freqError.natAbs ≤ 50 then m.good + 1 else 0
      let s := s.setModem p { m with last := some o.place, good := good, missed := 0 }
      if good = 16 then s.cdrLock p else s
  else if st = cdrLocked then
    match m.last with
    | some l =>
      if near o.place (l + s.period p) (s.placeTol p) then s.setModem p { m with last := some o.place, missed := 0 }
      else s.cdrToFree p true
    | none => s.setModem p { m with last := some o.place, missed := 0 }
  else s

/-- A sync symbol missed, as clock recovery takes it. -/
def State.cdrMissed (s : State) (p : Port) : State :=
  let m := s.modem p
  let st := s.cdr p
  if st = cdrTrack ∨ st = cdrLocked then
    if m.missed = 7 then s.cdrToFree p true
    else s.setModem p { m with missed := m.missed + 1, good := 0, last := m.last.map (· + s.period p) }
  else s

/-- CDR_ACQUIRE_START (R128). -/
def execCdrAcquireStart (p : Port) (s : State) : Host.Outcome State Fault Refusal :=
  .next (
    if decide (s.cdr p = cdrFree) && (s.fnIs (.line p) .castingOn || s.fnIs (.line p) .running) && !(s.down p).raw.getD 0 false then
      ((s.set (Pg.LINE p) LINE0.RX_STAT_CDR cdrAcquire).startTimer (Tm.acquire p) (20 * ms)).setModem p
        { s.modem p with last := none, finds := [], good := 0, missed := 0 }
    else s)

/-- CDR_ACQUIRE_TIMEOUT (R128). -/
def execCdrAcquireTimeout (p : Port) (s : State) : Host.Outcome State Fault Refusal :=
  .next (if decide (s.cdr p = cdrAcquire) && s.running (Tm.acquire p) then s.cdrToFree p true else s)

/-- CDR_LOSS (R128, R157): LOCKED is left for FREE. -/
def execCdrLoss (p : Port) (s : State) : Host.Outcome State Fault Refusal :=
  .next (if s.cdr p = cdrLocked then s.cdrToFree p true else s)

/-- LSS_CLEAR (R117). -/
def execLssClear (p : Port) (s : State) : Host.Outcome State Fault Refusal :=
  .next (
    if decide (s.cdr p = cdrLocked) && s.running (Tm.lss p) then (s.stopTimer (Tm.lss p)).setDefect p 1 false else s)

/-! ### Gain, power and equaliser (R126, R127, R131 to R133) -/

/-- The gain in force with AGC_EN at 0 (R126). -/
def State.fixedGain (s : State) (p : Port) : State :=
  let b := Pg.LINE p
  if s.bit b LINE0.RX_CTRL_AGC_EN then s else s.set b LINE0.RX_STAT_GAIN_NOW (min 30 (s.get b LINE0.RX_CTRL_GAIN))

/-- The gain of a line frame, in 0.5 dB steps: a power of 48 steps of 0.25 dB below full scale is aimed at (R126). -/
def State.agc (s : State) (p : Port) (power : Nat) : State :=
  let b := Pg.LINE p
  let g : Int := s.get b LINE0.RX_STAT_GAIN_NOW
  if s.bit b LINE0.RX_CTRL_AGC_EN then
    s.set b LINE0.RX_STAT_GAIN_NOW (clampInt 0 30 (g + ((power : Int) - 48) / 2)).toNat
  else s.fixedGain p

/-- α is 2^-EQ_AVG (R131). -/
def State.eqShift (s : State) (p : Port) : Nat := min 7 (s.get (Pg.LINE p) LINE0.RX_CTRL_EQ_AVG)

/-- E + α (raw − E). -/
def average (a : Nat) (old new : Int) : Int := old + (new - old) / 2 ^ a

/-- The squared residual of a subcarrier of the sync symbol after equalisation (R132), in units of 2^-16: |Y/E − c|² is
|raw − E|² over |E|², since c is 1 or −1. -/
def residualAt (raw e : Int × Int) : Nat :=
  (divFree 132 (((raw.1 - e.1) ^ 2 + (raw.2 - e.2) ^ 2) * 2 ^ 16) (e.1 ^ 2 + e.2 ^ 2)).toNat

/-- The estimates and the noise variances after a sync symbol (R131, R132); they hold from symbol 1 on. -/
def State.equalise (s : State) (p : Port) (o : SyncObs) : State :=
  let m := s.modem p
  let a := s.eqShift p
  let raw := rawEstimates o.samples
  let est := (List.range 1904).map (fun i =>
    let old := m.est.getD i (0, 0)
    let new := raw.getD i (0, 0)
    (average a old.1 new.1, average a old.2 new.2))
  let noise := (List.range 952).map (fun i =>
    (average a (m.noise.getD i 0 : Nat) (residualAt (raw.getD (2 * i) (0, 0)) (est.getD (2 * i) (0, 0)) : Nat)).toNat)
  s.setModem p { m with est := est, raw := raw, noise := noise }

/-- Clipped ADC samples counted, ADC_CLIP at most once per line frame (R127). -/
def State.adcClip (s : State) (p : Port) (n : Nat) : State :=
  if n = 0 then s else (s.addCnt (Pg.LINE p) LINE3.ADC_CLIP n).evtOnce (Pg.LINE p) 13 (s.down p).count

/-- LOS raised: clock recovery goes to FREE, counted from LOCKED only (R128). -/
def State.raiseLos (s : State) (p : Port) : State :=
  (s.cdrToFree p (decide (s.cdr p = cdrLocked))).setDefect p 0 true

/-- LOS_WINDOW (R117, R127, R553).  Powers are in 0.25 dB below full scale: a greater number is a lower power. -/
def execLosWindow (p : Port) (power clipped : Nat) (s : State) : Host.Outcome State Fault Refusal :=
  let b := Pg.LINE p
  .next (
    if s.domIsOff (match p with | .portA => .lineA | .portB => .lineB) then s
    else
      let rx := power + 2 * s.get b LINE0.RX_STAT_GAIN_NOW
      let s := (s.set b LINE0.RX_POWER (min 255 rx)).adcClip p clipped
      if !s.lineOn p then s
      else
        let thresh := s.get (Pg.LFR p) LFR0.LOS_CFG_THRESH
        let clear := thresh - s.get (Pg.LFR p) LFR0.LOS_CFG_HYST
        let d := s.down p
        let bad := if thresh < rx then d.losBad + 1 else 0
        let good := if rx < clear then d.losGood + 1 else 0
        let s := s.setDown p { d with losBad := min 8 bad, losGood := min 1000 good }
        if d.raw.getD 0 false then (if good < 1000 then s else s.setDefect p 0 false)
        else if bad < 8 then s
        else s.raiseLos p)

/-! ### Demapping (R134, R135, R156) -/

/-- Range of the data subcarriers of a table, and its greatest entry. -/
def loadRange (table : Nat) : Nat × Nat × Nat :=
  if 1 ≤ table ∧ table ≤ 7 then (16, 1919, 10) else if table ≤ 11 then (24, 923, 8) else (24, 923, 255)

/-- The key of a table's entry; bank 1 is active, and a table of one bank is kept as bank 1. -/
def loadKey (table bank k : Nat) : Nat := table * 4096 + (if table ≤ 7 then bank else 1) * 2048 + k

/-- An entry of a loading table; 0 outside the data subcarriers. -/
def State.loadAt (s : State) (p : Port) (table bank k : Nat) : Nat :=
  let r := loadRange table
  if r.1 ≤ k ∧ k ≤ r.2.1 then SMap.get (fun _ => 0) (s.modem p).load (loadKey table bank k) else 0

/-- Bits of a subcarrier that the demapper takes a soft value of: BPSK for the preamble, P0_MODE's loading for the header body
and profile 0, the loading in force for the others. -/
def State.rxLoading (s : State) (p : Port) (kind : CwKind) (profile k : Nat) : Nat :=
  if kind = .preamble then 1
  else if kind = .payload ∧ profile ≠ 0 then s.loadAt p profile 1 k
  else if s.bit (Pg.LFR p) LFR0.DS_STAT_P0_MODE then 1 else 2

/-- The soft values of a codeword's coded bits, and the modem after it: a bit that its subcarrier's loading has not gives
none (R134). -/
def State.demap (s : State) (p : Port) (kind : CwKind) (profile : Nat) (rx : RxWord) : List Int × State :=
  let m := s.modem p
  match rx with
  | .symbols samples bits =>
    if s.gen1 p then ([], s)
    else (bits.filterMap (fun x =>
      let b := s.rxLoading p kind profile x.2.1
      if b ≤ x.2.2 then none
      else some (softBit b x.2.2 (equalised (fftAt (samples.getD x.1 []) x.2.1) (m.estAt x.2.1)) (m.noiseAt x.2.1))), s)
  | .nrz adc n =>
    if s.gen1 p then
      let r := m.nrz.soft (s.get (Pg.LINE p) LINE0.RX_CTRL_FFE_MU) adc n
      (r.1, s.setModem p { m with nrz := r.2 })
    else ([], s)

/-! ### The decoder queue (R136 to R139) -/

/-- Iteration limit of payload codewords. -/
def State.maxIter (s : State) (p : Port) : Nat := max 4 (min 24 (s.get (Pg.LINE p) LINE0.RX_CTRL_MAX_ITER))

/-- A codeword that ends uncorrectable, and whether R137 is why (R138). -/
def State.cwBad (s : State) (p : Port) (cut : Bool) : State :=
  let b := Pg.LINE p
  let s := s.inc b LINE3.CW_UNCORR
  if cut then (s.inc b LINE3.CW_CUT).evtOnce b 9 (s.down p).count else s

/-- Codewords towards the ratios of R117. -/
def BerSum.add (x : BerSum) (ok : Bool) (corrected coded : Nat) : BerSum :=
  if ok then { x with corrected := x.corrected + corrected, coded := x.coded + coded, decoded := x.decoded + 1 }
  else { x with uncorr := x.uncorr + 1 }
def State.berAdd (s : State) (p : Port) (ok : Bool) (corrected coded : Nat) : State :=
  let d := s.down p
  s.setDown p { d with w64 := d.w64.add ok corrected coded, w1024 := d.w1024.add ok corrected coded }

/-- The `n`th codeword still to come from the decoder marked as one that will not come. -/
def loseCw : Nat → List Cw → List Cw
  | _, [] => []
  | n, c :: cs =>
    if c.gone then c :: loseCw n cs
    else match n with
      | 0 => { c with gone := true } :: cs
      | n + 1 => c :: loseCw n cs

/-- The `n`th codeword still to come from the decoder. -/
def nthCw (n : Nat) (cs : List Cw) : Option Cw := (cs.filter (fun c => !c.gone))[n]?

/-- The control bytes of a codeword put in the control area of its line frame (R97). -/
def State.placeCtrl (s : State) (p : Port) (c : Cw) (data : Option (List Byte)) (at_ : Nat) : State :=
  if c.ctrl = 0 then s
  else
    s.setDown p { s.down p with ctrls := (s.down p).ctrls.map (fun a =>
      if a.frame = c.frame then { a with parts := a.parts ++ [(c.pos, c.ctrl, data.map (·.take c.ctrl), c.ends, at_)] } else a) }

/-- Codewords that will not come, at the front of a layout, turned into erased bytes (R112, R552). -/
def flushCws (x : Stream) : List Cw → Stream
  | c :: cs =>
    if c.gone then
      flushCws { x with chunks := if c.info - c.ctrl = 0 then x.chunks else x.chunks ++ [⟨c.info - c.ctrl, none⟩] } cs
    else { x with layout := c :: cs }
  | [] => { x with layout := [] }
def Stream.flush (x : Stream) : Stream := flushCws x x.layout

/-- A decoded payload codeword's bytes put where its layout says: the control area first, then the stream (R97, R98). -/
def State.placeCw (s : State) (p : Port) (k : Nat) (info : Option (List Byte)) (at_ : Nat) : State :=
  let x := s.stream p k
  match x.flush.layout with
  | [] => s.setStream p k x.flush
  | c :: cs =>
    let x := x.flush
    let data := (if c.erased then none else info).map (padTo c.info)
    let s := s.placeCtrl p c data at_
    let n := c.info - c.ctrl
    let chunks := if n = 0 then x.chunks else x.chunks ++ [⟨n, data.map (·.drop c.ctrl)⟩]
    s.setStream p k ({ x with chunks := chunks, layout := cs } : Stream).flush

/-- The codeword in decode ends with its information bytes and parity bits, or uncorrectable; `early` when R137 is why
(R138, R139). -/
def State.endCw (s : State) (p : Port) (info : Option (List Byte)) (parity : List Bool) (early : Bool) (iters at_ : Nat) : State :=
  let b := Pg.LINE p
  let m := s.modem p
  match m.queue with
  | [] => s
  | q :: qs =>
    let s := (s.setModem p { m with queue := qs, cut := 0 }).add64 b LINE3.ITER_TOTAL_LO iters
    let corrected := match info with
      | some bs => changedBits q.soft (bitsOfBytes bs ++ parity)
      | none => 0
    let s := if info.isSome then
        ((s.add64 b LINE3.CW_DECODED_LO 1).add64 b LINE3.BITS_CORRECTED_LO corrected).add64 b LINE3.CODED_BITS_LO q.soft.length
      else s.cwBad p early
    let s := s.berAdd p info.isSome corrected q.soft.length
    if q.kind = .payload then s.placeCw p q.profile info at_ else s

/-- Codewords that wait behind the one in decode. -/
def Modem.waiting (m : Modem) : Nat := m.queue.length - 1

/-- Whether the codeword in decode carries payload. -/
def Modem.decodesPayload (m : Modem) : Bool := decide (m.queue.head?.map QCw.kind = some .payload)

/-- A codeword put in the queue; a full queue ends the payload codeword in decode after its current iteration (R137). -/
def State.putCw (s : State) (p : Port) (q : QCw) : State :=
  let m := s.modem p
  let n : Modem := { m with queue := m.queue ++ [q] }
  s.setModem p (if 64 ≤ n.waiting && n.decodesPayload then { n with cut := 2 } else n)

/-- A payload codeword that is not decoded (R137, R138). -/
def State.leaveCw (s : State) (p : Port) (profile : Nat) : State :=
  let before := ((s.modem p).queue.filter (fun q => decide (q.kind = .payload) && decide (q.profile = profile))).length
  let x := s.stream p profile
  let s := match nthCw before x.layout with
    | some c => s.placeCtrl p c none 0
    | none => s
  ((s.cwBad p true).setStream p profile ({ x with layout := loseCw before x.layout } : Stream).flush).berAdd p false 0 0

/-- CODEWORD_ARRIVAL (R134, R137).  The first of the queue is in decode; 64 may wait behind it.  An arrival at a full queue
finds the payload codeword in decode past the iteration it was to end after; one of a profile that is not enabled is not
demapped. -/
def execCodewordArrival (p : Port) (kind : CwKind) (rx : RxCodeword) (s : State) : Host.Outcome State Fault Refusal :=
  .next (
    let k := rx.profile.val
    if decide (kind = .payload) && !(s.stream p k).on then s
    else
      let r := s.demap p kind k rx.signal
      let s := r.2
      let m := s.modem p
      let q : QCw := ⟨kind, k, r.1⟩
      if 64 ≤ m.waiting && m.decodesPayload then (s.endCw p none [] true 1 0).putCw p q
      else if kind ≠ .payload ∨ m.waiting < 48 then s.putCw p q
      else if m.decodesPayload then (s.setModem p { m with cut := max 1 m.cut }).putCw p q
      else if m.waiting < 64 then s.putCw p q
      else s.leaveCw p k)

/-- CODEWORD_DECODED (R136 to R139): the codeword in decode ends, at its limit of iterations with a non-zero syndrome
when it has not converged by then. -/
def execCodewordDecoded (p : Port) (zero : Bool) (info : List Byte) (parity : List Bool) (iters at_ : Nat) (s : State) :
    Host.Outcome State Fault Refusal :=
  .next (
    let m := s.modem p
    let limit := if m.decodesPayload then s.maxIter p else 12
    let early := decide (iters < limit) && (decide (m.cut = 2) || (decide (m.cut = 1) && decide (12 ≤ iters)))
    s.endCw p (if zero && decide (iters ≤ limit) then some info else none) parity early (min limit iters) at_)

/-! ### Loading tables (R140 to R142) -/

/-- Bits per symbol of a table (R98, R213). -/
def State.loadSum (s : State) (p : Port) (table bank : Nat) : Nat :=
  let m := (s.modem p).load.filter (fun x => decide (x.1 / 2048 = loadKey table bank 0 / 2048))
  (m.map (fun x => x.2)).sum

/-- Entries of a table replaced from a subcarrier on, each held to the table's maximum (R141). -/
def State.loadPut (s : State) (p : Port) (table bank k : Nat) (vs : List Nat) : State :=
  let r := loadRange table
  let put := fun (m : SMap Nat) (i : Nat) =>
    if r.1 ≤ k + i ∧ k + i ≤ r.2.1 then SMap.set (fun _ => 0) m (loadKey table bank (k + i)) (min r.2.2 (vs.getD i 0)) else m
  let s := s.setModem p { s.modem p with load := (List.range vs.length).foldl put (s.modem p).load }
  if 8 ≤ table ∧ table ≤ 11 then s.set (Pg.LFR p) (LFR0.US_BPROF_BITS (table - 8)) (s.loadSum p table 1) else s

/-- The banks of a downstream profile exchanged at a switch (R142). -/
def State.loadSwap (s : State) (p : Port) (table : Nat) : State :=
  let lo := table * 4096
  let mine := fun (x : Nat × Nat) => decide (lo ≤ x.1) && decide (x.1 < lo + 4096)
  let m := (s.modem p).load
  let swapped := (m.filter mine).map (fun x => (if x.1 < lo + 2048 then x.1 + 2048 else x.1 - 2048, x.2))
  s.setModem p { s.modem p with
    load := swapped.foldl (fun m x => SMap.set (fun _ => 0) m x.1 x.2) (m.filter (fun x => !mine x)) }

/-- Whether a pending grant names a burst profile (R141, R247). -/
def State.profNamed (s : State) (p : Port) (prof : Nat) : Bool :=
  let u := s.up p
  let names := fun (g : Grant) => !g.discovery && !g.ranging && decide (g.bprof = prof)
  u.store.any names || u.drawn.any (fun b => names b.grant)

/-- LOAD_DATA_ACCESS (R141). -/
def execLoadDataAccess (src : Source) (p : Port) (write : Option Word) (s : State) : Host.Outcome State Fault Refusal :=
  let b := Pg.LINE p
  let a := b + LINE0.LOAD_DATA.off
  .next (
    match s.accessReg src a write.isSome with
    | .rejected pg r => s.refuse src pg r write.isSome a
    | .ok _ =>
      let table := s.get b LINE0.LOAD_SEL_TABLE
      let bank := s.get b LINE0.LOAD_SEL_BANK
      let k := s.get b LINE0.LOAD_SEL_INDEX / 4 * 4
      let known := decide (1 ≤ table) && decide (table ≤ 12)
      let on := fun (s : State) => s.set b LINE0.LOAD_SEL_INDEX ((k + 4) % 2048)
      match write with
      | none =>
        let v := if known then ((List.range 4).map (fun i => s.loadAt p table bank (k + i) * 256 ^ i)).sum else 0
        on { s with rdata := BitVec.ofNat 32 v }
      | some w =>
        if !known then on s
        else if decide (table ≤ 7) && decide (bank = 1) || (decide (8 ≤ table) && decide (table ≤ 11) && s.profNamed p (table - 8)) then
          s.refuse src b .locked true a
        else on (s.loadPut p table bank k ((List.range 4).map (fun i => bitsOf w.toNat (8 * i) 8))))

/-! ### The transmit-monitor capture (R151) -/

/-- A write of `TXMON_CAP`: the settings, CANCEL, and ARM unless BUSY. -/
def State.txmonWrite (s : State) (src : Source) (p : Port) (val : Word) : State :=
  let b := Pg.LINE p
  let a := b + LINE2.TXMON_CAP.off
  match s.accessReg src a true with
  | .rejected pg r => s.refuse src pg r true a
  | .ok _ =>
    let s := s.storeReg a val
    let s := if val.toNat / 4 % 2 = 1 then
        (s.setModem p { s.modem p with txmonBurst := none }).set b LINE2.TXMON_CAP_BUSY 0
      else s
    if val.toNat % 2 = 1 then s.set b LINE2.TXMON_CAP_BUSY 1 else s

/-- TXMON_ARM (R151). -/
def execTxmonArm (src : Source) (p : Port) (val : Word) (s : State) : Host.Outcome State Fault Refusal :=
  .next (s.txmonWrite src p val)

/-- TXMON_CANCEL (R151). -/
def execTxmonCancel (src : Source) (p : Port) (val : Word) (s : State) : Host.Outcome State Fault Refusal :=
  .next (s.txmonWrite src p val)

/-! ### Laser, optics and bias (R154, R155, R160 to R162) -/

/-- LASER_EN written (R154, R155): a 1 clears INHIBIT_BEN and, with the fault gone, what the fault held. -/
def State.laserWrite (s : State) (p : Port) (on : Bool) : State :=
  let b := Pg.LINE p
  let m := s.modem p
  let s := s.setBit b LINE1.TX_CTRL_LASER_EN on
  (if on then (s.set b LINE1.TX_CTRL_INHIBIT_BEN 0).setModem p { m with faultHeld := m.fault } else s).refreshInhibit p

/-- LASER_EN_WRITE (R154, R155, R161). -/
def execLaserEnWrite (src : Source) (p : Port) (val : Word) (s : State) : Host.Outcome State Fault Refusal :=
  let a := Pg.LINE p + LINE1.TX_CTRL.off
  .next (
    match s.accessReg src a true with
    | .rejected pg r => s.refuse src pg r true a
    | .ok _ => (s.storeReg a val).laserWrite p (decide (val.toNat % 2 = 1)))

/-- BEN_STUCK (R155). -/
def execBenStuck (p : Port) (s : State) : Host.Outcome State Fault Refusal :=
  let b := Pg.LINE p
  .next (
    if s.pin (Pin.ben p) then
      let s := s.cutBurst p
      ((((s.set b LINE1.TX_CTRL_LASER_EN 0).set b LINE1.TX_CTRL_INHIBIT_BEN 1).inc b LINE3.BEN_STUCK).evt b 12).refreshInhibit p
    else s)

/-- The pins LA_FAULT_N and LA_PRESENT_N as `OPT_STAT` shows them. -/
def State.optPins (s : State) (p : Port) : State :=
  let b := Pg.LINE p
  (s.setBit b LINE2.OPT_STAT_FAULT (s.modem p).fault).setBit b LINE2.OPT_STAT_PRESENT (!(s.modem p).absent)

/-- OPT_FAULT (R161): LA_FAULT_N goes low, or else LA_PRESENT_N high. -/
def execOptFault (p : Port) (faultPin : Bool) (s : State) : Host.Outcome State Fault Refusal :=
  let b := Pg.LINE p
  .next (
    let m := s.modem p
    if (if faultPin then m.fault else m.absent) then s
    else
      let s := s.cutBurst p
      let m := s.modem p
      let s := s.setModem p (if faultPin then { m with fault := true, faultHeld := true } else { m with absent := true })
      let s := ((s.set b LINE1.TX_CTRL_LASER_EN 0).set b LINE2.OPT_CTRL_BIAS 0).evt b (if faultPin then 10 else 11)
      let s := if m.fault || m.absent then s else s.inc b LINE3.OPT_FAULTS
      (s.optPins p).refreshInhibit p)

/-- OPT_PRESENT (R161): LA_PRESENT_N goes low, or else LA_FAULT_N high. -/
def execOptPresent (p : Port) (presentPin : Bool) (s : State) : Host.Outcome State Fault Refusal :=
  .next (
    let m := s.modem p
    if (if presentPin then !m.absent else !m.fault) then s
    else
      let s := s.setModem p (if presentPin then { m with absent := false } else { m with fault := false })
      let s := if presentPin then s.evt (Pg.LINE p) 11 else s
      (s.optPins p).refreshInhibit p)

/-- BIAS stays 0, whatever is written, while the BOSA is at fault or absent (R161). -/
def State.biasHeld (s : State) (p : Port) : State :=
  if (s.modem p).absent || (s.modem p).fault then s.set (Pg.LINE p) LINE2.OPT_CTRL_BIAS 0 else s

/-- BIAS_RAMP_STEP (R160): one step towards the target. -/
def execBiasRampStep (p : Port) (s : State) : Host.Outcome State Fault Refusal :=
  let b := Pg.LINE p
  let s := s.biasHeld p
  let target := s.get b LINE2.OPT_CTRL_BIAS
  let now := s.get b LINE2.OPT_STAT_BIAS_NOW
  let step := max 1 (s.get b LINE2.OPT_CTRL_BIAS_STEP)
  .next (s.set b LINE2.OPT_STAT_BIAS_NOW (if now ≤ target then min target (now + step) else max target (now - step)))

/-- RSSI_SAMPLE (R162): the mean of the samples of the last 1 ms. -/
def execRssiSample (p : Port) (sample : Fin 4096) (s : State) : Host.Outcome State Fault Refusal :=
  let xs := (sample.val :: (s.modem p).rssi).take 100
  .next ((s.setModem p { s.modem p with rssi := xs }).set (Pg.LINE p) LINE2.OPT_STAT_RSSI
    (divFree 162 (xs.sum : Nat) (xs.length : Nat)).toNat)

end Sys2Proof.Machine
end

