-- ==== Sys2Proof/Machine/Downstream.lean ====
section
/-!
DEFINITION. Machine/Downstream.lean: the downstream framer of a line port (R89 to R125): alignment, the header, the
control area, delineation, and what becomes of a delineated frame.
-/

namespace Sys2Proof.Machine

/-! ### The header preamble (R93, R122) -/

/-- What a valid preamble, or a valid Fladon-1 header, says. -/
structure Preamble where
  frame : Nat
  tree : Nat
  h : Nat
  p0 : Nat
deriving DecidableEq, Repr

/-- A preamble read, if it is valid (R93). -/
def readPreamble2 (bs : List Byte) : Option Preamble :=
  let v := beNat bs
  if bs.length = 16 ∧ bitsOf v 124 4 = 2 ∧ crc16 (bs.take 14) = v % 65536 then
    some ⟨bitsOf v 68 51, bitsOf v 52 16, bitsOf v 120 4, bitsOf v 119 1⟩
  else none

/-- A Fladon-1 header read, if it is valid (R121, R122). -/
def readPreamble1 (bs : List Byte) : Option Preamble :=
  if bs.length = 256 ∧ msgField bs 0 1 = 1 ∧ leNat (bs.drop 252) = Crypto.crc32 (bs.take 252) then
    some ⟨msgField bs 4 8 % 2 ^ 51, msgField bs 2 2, 0, 0⟩
  else none

/-- The preamble of a line frame. -/
def State.readPreamble (s : State) (p : Port) (bs : Option (List Byte)) : Option Preamble :=
  bs.bind (if s.gen1 p then readPreamble1 else readPreamble2)

/-- The registers that show the last valid preamble. -/
def State.showPreamble (s : State) (p : Port) (r : Preamble) : State :=
  let b := Pg.LFR p
  let s := (s.set b LFR0.FRAME_COUNT_LO r.frame).set b LFR0.FRAME_COUNT_HI (r.frame / 2 ^ 32)
  let s := (s.set b LFR0.TREE r.tree).setDown p { s.down p with tree := some r.tree }
  let s := s.gaugeKeep p r.tree
  if s.gen1 p then s else (s.set b LFR0.DS_STAT_H r.h).set b LFR0.DS_STAT_P0_MODE r.p0

/-! ### Line frames (R91, R98, R101, R116, R552) -/

/-- The enabled profiles: profile 0 alone on Fladon-1 and in line doze (R101, R123, R260). -/
def State.profOn (s : State) (p : Port) (k : Nat) : Bool :=
  decide (k = 0)
    || (!s.gen1 p && !(s.rg p).doze && decide (s.get (Pg.LFR p) LFR0.DS_CTRL_PROF_EN / 2 ^ k % 2 = 1))

/-- A change of PROF_EN taken up at a line frame boundary (R101). -/
def State.applyProf (s : State) (p : Port) : State :=
  (List.range 8).foldl (fun s k =>
    let on := (s.stream p k).on
    if s.profOn p k = on then s
    else if on then s.dropStream p k false
    else s.setStream p k { Stream.off with on := true }) s

/-- The erased run of a lost header added to every enabled stream (R116, R552). -/
def State.loseStreams (s : State) (p : Port) (frame : Nat) : State :=
  (List.range 8).foldl (fun s k =>
    let x := s.stream p k
    if x.on then
      s.setStream p k ({ x with segs := x.segs ++ [⟨x.top, 32768, none, true, false⟩], hadRuns := false,
                                layout := x.layout ++ [⟨frame, 0, 32768, 0, true, true, 0⟩] } : Stream).flush
    else s) s

/-- A line frame begins in LOCKED (R125, R246): enables, counts. -/
def State.frameStart (s : State) (p : Port) (frame place : Nat) (lost : Bool) : State :=
  let s := (s.applyProf p).add64 (Pg.LFR p) LFR1.LINE_FRAMES_LO 1
  let d := s.down p
  let s := s.setDown p { d with count := frame, boundary := place, lostRecent := (lost :: d.lostRecent).take 8,
                                bodyDue := !lost }
  let s := s.setRg p { s.rg p with retire := (s.rg p).retire.map (fun x => (x.1, x.2 - 1)) }
  if s.bit (Pg.LINE p) LINE0.EQ_CAP_EN then s.setModem p { s.modem p with eqCount := (s.modem p).eqCount + 1 } else s

/-- The header of the line frame now received is lost (R116). -/
def State.headerLost (s : State) (p : Port) : State :=
  (s.inc (Pg.LFR p) LFR1.HDR_LOST).loseStreams p (s.down p).count

/-- The stamp of a line frame's boundary kept for the time messages (R276): none unless it may be used. -/
def State.pushStamp (s : State) (p : Port) (frame : Nat) (stamp : Option Nat) : State :=
  let t := s.tport p
  s.setTport p { t with stamps := ((frame, stamp) :: t.stamps).take 64 }

/-! ### Alignment (R115, R121) -/

/-- Alignment leaves LOCKED for SEEK. -/
def State.alignLost (s : State) (p : Port) : State :=
  let s := (s.set (Pg.LFR p) LFR0.DS_STAT_ALIGN alSeek).setDown p { s.down p with bodyDue := false, miss := 0 }
  let s := s.dropStreams p
  (s.setRg p { s.rg p with fresh := false }).setDefect p 2 true

/-- A predicted boundary without its sync symbol, or with a preamble that is not valid; `found` holds the place and the stamp
of a sync symbol found there, whose place is the base of the next prediction. -/
def State.alignMiss (s : State) (p : Port) (found : Option (Nat × Nat)) : State :=
  let d := s.down p
  if s.align p = alConfirm then s.set (Pg.LFR p) LFR0.DS_STAT_ALIGN alSeek
  else if s.align p = alLocked then
    let s := s.setDown p { d with miss := d.miss + 1 }
    let s := s.frameStart p (d.count + 1) ((found.map (·.1)).getD (d.boundary + s.period p)) true
    let s := (s.pushStamp p (d.count + 1) (found.map (·.2))).headerLost p
    if d.miss = 3 then s.alignLost p else s
  else s

/-- A line frame with a valid preamble in LOCKED. -/
def State.alignGood (s : State) (p : Port) (r : Preamble) (place stamp : Nat) : State :=
  let b := Pg.LFR p
  let d := s.down p
  let s := s.setDown p { d with miss := 0 }
  let s := if decide (s.align p = alLocked) && decide (r.frame ≠ d.count + 1) then (s.inc b LFR1.COUNT_JUMP).evt b 19 else s
  let other := decide (s.align p = alLocked) && d.tree.isSome && decide (d.tree ≠ some r.tree)
  let s := s.showPreamble p r
  let s := (s.frameStart p r.frame place false).pushStamp p r.frame (some stamp)
  if other then (s.evt b 20).regTreeChange p else s.regTry p

/-- A sync symbol found while clock recovery is LOCKED, as alignment takes it. -/
def State.alignFound (s : State) (p : Port) (o : SyncObs) : State :=
  let b := Pg.LFR p
  let d := s.down p
  let pre := s.readPreamble p o.preamble
  let here := near o.place (d.boundary + s.period p) (s.placeTol p)
  let stamp := s.stampRx o.phase
  if s.align p = alSeek then
    match pre with
    | some r =>
      let s := (s.showPreamble p r).set b LFR0.DS_STAT_ALIGN alConfirm
      s.setDown p { s.down p with count := r.frame, boundary := o.place, miss := 0 }
    | none => s
  else
    match pre with
    | some r =>
      if !here then s.alignMiss p none
      else if s.align p = alLocked then s.alignGood p r o.place stamp
      else if r.frame = d.count + 1 then
        ((s.alignGood p r o.place stamp).set b LFR0.DS_STAT_ALIGN alLocked).setDefect p 2 false
      else (s.showPreamble p r).set b LFR0.DS_STAT_ALIGN alSeek
    | none => s.alignMiss p (if here then some (o.place, stamp) else none)

/-- SYNC_SYMBOL_MISS (R115, R116, R128, R133). -/
def State.syncMiss (s : State) (p : Port) : State :=
  if s.lineOn p then (s.cdrMissed p).alignMiss p none else s
def execSyncSymbolMiss (p : Port) (s : State) : Host.Outcome State Fault Refusal := .next (s.syncMiss p)

/-- SYNC_SYMBOL_FOUND (R115, R121, R126, R128, R131, R132): a Fladon-1 sync word counts as found with no bit error in SEEK
and with at most 3 at a predicted boundary; while clock recovery is not LOCKED the boundary is missed. -/
def execSyncSymbolFound (p : Port) (obs : SyncObs) (s : State) : Host.Outcome State Fault Refusal :=
  .next (
    if !s.lineOn p || decide (s.cdr p = cdrFree) || s.scan then s
    else if s.gen1 p && decide ((if s.align p = alSeek then 0 else 3) < syncWordErrors obs.syncWord) then s.syncMiss p
    else
      let s := s.agc p obs.power
      let s := if s.gen1 p then s else s.equalise p obs
      let s := s.cdrFound p obs
      if s.cdr p = cdrLocked then s.alignFound p obs else s.alignMiss p none)

/-! ### The header body (R94 to R103, R122, R254) -/

/-- The pointers of the control area, in the header's order: grant map, management and time, each offset and length, and
ENC_OFF. -/
structure Pointers where
  grant : Nat × Nat
  mgmt : Nat × Nat
  time : Nat × Nat
  enc : Nat
deriving DecidableEq, Repr

/-- The pointers read at an offset. -/
def readPointers (bs : List Byte) (o : Nat) : Pointers :=
  let f := fun i => msgField bs (o + 2 * i) 2
  ⟨(f 0, f 1), (f 2, f 3), (f 4, f 5), f 6⟩

/-- Whether two sections, present when their length is not 0, overlap. -/
def sectionsMeet (a b : Nat × Nat) : Bool :=
  decide (a.2 ≠ 0) && decide (b.2 ≠ 0) && decide (a.1 < b.1 + b.2) && decide (b.1 < a.1 + a.2)

/-- The control-area rules of R97. -/
def Pointers.good (q : Pointers) (bytes : Nat) : Bool :=
  let inside := fun (a : Nat × Nat) => decide (a.2 = 0) || decide (a.1 + a.2 ≤ q.enc)
  decide (q.enc ≤ bytes) && inside q.grant && inside q.mgmt && inside q.time
    && !sectionsMeet q.grant q.mgmt && !sectionsMeet q.grant q.time && !sectionsMeet q.mgmt q.time

/-- A run: profile, first symbol, symbols. -/
structure Run where
  prof : Nat
  start : Nat
  len : Nat
deriving DecidableEq, Repr

/-- The runs of a header body. -/
def readRuns (bs : List Byte) : List Run :=
  (List.range (msgField bs 1 1)).map (fun i =>
    let w := msgField bs (0x5C + 4 * i) 4
    ⟨bitsOf w 29 3, bitsOf w 12 12, bitsOf w 0 12⟩)

/-- Whether no two runs of a list overlap. -/
def runsApart : List Run → Bool
  | [] => true
  | a :: rs => rs.all (fun b => decide (a.start + a.len ≤ b.start) || decide (b.start + b.len ≤ a.start)) && runsApart rs

/-- Full codewords and information bytes of the shortened one in a coded capacity (R98). -/
def capacity (c : Nat) : Nat × Nat := (c / 17280, if 2752 ≤ c % 17280 then (c % 17280 - 2688) / 8 else 0)

/-- Stream bytes of a coded capacity. -/
def capBytes (c : Nat) : Nat := (capacity c).1 * 1824 + (capacity c).2

/-- What R102 makes of a profile in a line frame: its loading, or none. -/
inductive GenCase where
  | current | switch | missing
deriving DecidableEq, Repr

/-- The cases of R102; profile 0 has no generations. -/
def State.genCase (s : State) (p : Port) (k gen : Nat) : GenCase :=
  let b := Pg.LFR p
  let i := k - 1
  if k = 0 then .current
  else if s.bit b (LFR0.PROF_GEN_CUR_VALID i) && decide (s.get b (LFR0.PROF_GEN_CURRENT i) = gen) then .current
  else if s.bit b (LFR0.PROF_GEN_STAGED_VALID i) && decide (s.get b (LFR0.PROF_GEN_STAGED i) = gen) then .switch
  else .missing

/-- B of a profile in a line frame (R93, R98). -/
def State.profBits (s : State) (p : Port) (k gen : Nat) : Nat :=
  if k = 0 then (if s.bit (Pg.LFR p) LFR0.DS_STAT_P0_MODE then 1904 else 3808)
  else s.loadSum p k (if s.genCase p k gen = .switch then 0 else 1)

/-- Coded capacity of a profile in a line frame (R98). -/
def State.profCap (s : State) (p : Port) (k gen : Nat) (runs : List Run) : Nat :=
  ((runs.filter (fun r => decide (r.prof = k))).map Run.len).sum * s.profBits p k gen

/-- GEN, NEXT_GEN, COUNTDOWN and SEGMENT of a profile. -/
def hdrGen (bs : List Byte) (k : Nat) : Nat := msgField bs (4 + k) 1
def hdrNext (bs : List Byte) (k : Nat) : Nat := msgField bs (0xC + k) 1
def hdrCountdown (bs : List Byte) (k : Nat) : Nat := msgField bs (0x14 + k) 1
def hdrSegment (bs : List Byte) (k : Nat) : Nat := msgField bs (0x1C + 6 * k) 6
def hdrFirst (bs : List Byte) (k : Nat) : Nat := bitsOf (hdrSegment bs k) 0 22

/-- FIRST_FEH when no FEH begins in the line frame. -/
def noFeh : Nat := 0x3FFFFF

/-- Bytes of a profile's stream in a line frame, the control area taken off profile 0's. -/
def State.profBytes (s : State) (p : Port) (bs : List Byte) (k : Nat) : Nat :=
  capBytes (s.profCap p k (hdrGen bs k) (readRuns bs)) - (if k = 0 then (readPointers bs 0x4C).enc else 0)

/-- Whether a Fladon-2 header body is consistent (R96). -/
def State.bodyGood (s : State) (p : Port) (bs : List Byte) : Bool :=
  let h := s.get (Pg.LFR p) LFR0.DS_STAT_H
  let n := 0x5C + 4 * msgField bs 1 1
  let room := if s.bit (Pg.LFR p) LFR0.DS_STAT_P0_MODE then 70 * (h - 1) else 140 * (h - 1)
  let runs := readRuns bs
  decide (n + 4 ≤ room) && decide (n + 4 ≤ bs.length)
    && decide (leNat ((bs.drop n).take 4) = Crypto.crc32 (bs.take n))
    && runs.all (fun r => decide (h + 1 ≤ r.start) && decide (r.start + r.len ≤ 3000)) && runsApart runs
    && (readPointers bs 0x4C).good (capBytes (s.profCap p 0 0 runs))
    && (List.range 8).all (fun k => !(s.stream p k).on || decide (s.genCase p k (hdrGen bs k) = .missing)
        || decide (hdrFirst bs k = noFeh) || decide (hdrFirst bs k < s.profBytes p bs k))

/-- The symbol that carries a coded bit of a profile with `b` bits per symbol. -/
def symbolOf (b : Nat) : List Run → Nat → Nat
  | [], _ => 2999
  | r :: rs, n => if n < r.len * b then r.start + n / b else symbolOf b rs (n - r.len * b)

/-- Codewords laid out: information bytes and end, from an offset among the line frame's bytes on. -/
def layCws (frame enc : Nat) (erased gone : Bool) : Nat → List (Nat × Nat) → List Cw
  | _, [] => []
  | pos, (info, ends) :: cs =>
    ⟨frame, pos, info, min info (enc - pos), erased, gone, ends⟩ :: layCws frame enc erased gone (pos + info) cs

/-- The codewords of a Fladon-2 profile in a line frame: bytes, and the end of the last symbol that carries coded bits of
each, in ticks of 1/768 ns (R98, R206). -/
def profCws (b : Nat) (runs : List Run) : List (Nat × Nat) :=
  let c := capacity ((runs.map Run.len).sum * b)
  let ends := fun n => (symbolOf b runs n + 1) * 4160 * 8
  (List.range c.1).map (fun j => (1824, ends (17280 * (j + 1) - 1)))
    ++ (if c.2 = 0 then [] else [(c.2, ends (17280 * c.1 + 8 * c.2 + 2688 - 1))])

/-- The codewords of a Fladon-1 line frame (R120, R123). -/
def cws1 : List (Nat × Nat) := (1400, 240000) :: (List.range 415).map (fun j => (1664, (j + 2) * 240000))

/-- A line frame's bytes of a stream laid out, with its anchor (R97, R98, R110). -/
def State.laySeg (s : State) (p : Port) (k : Nat) (cws : List Cw) (bytes first : Nat) (hadRuns : Bool) : State :=
  let x := s.stream p k
  let at_ := x.top
  let anchor := if first = noFeh then none else some (at_ + first)
  s.setStream p k ({ x with segs := x.segs ++ [⟨at_, bytes, anchor, false, false⟩], layout := x.layout ++ cws,
                            hadRuns := hadRuns } : Stream).flush

/-- A profile of a line frame (R98, R99, R102, R103). -/
def State.layProf (s : State) (p : Port) (bs : List Byte) (k : Nat) : State :=
  let b := Pg.LFR p
  let frame := (s.down p).count
  let gen := hdrGen bs k
  let seg := hdrSegment bs k
  let runs := (readRuns bs).filter (fun r => decide (r.prof = k))
  let had := !runs.isEmpty
  let enc := if k = 0 then (readPointers bs 0x4C).enc else 0
  match s.genCase p k gen with
  | .missing =>
    let bytes := bitsOf seg 37 11 * 1824 + bitsOf seg 26 11
    ((s.inc b (LFR1.PSTAT_GEN_MISSING k)).evt b 14).laySeg p k (if bytes = 0 then [] else [⟨frame, 0, bytes, 0, true, true, 0⟩])
      bytes (hdrFirst bs k) had
  | c =>
    let bits := s.profBits p k gen
    let s := if c = .switch then
        let i := k - 1
        let s := (s.loadSwap p k).set b (LFR0.PROF_GEN_CURRENT i) (s.get b (LFR0.PROF_GEN_STAGED i))
        (s.set b (LFR0.PROF_GEN_CUR_VALID i) 1).set b (LFR0.PROF_GEN_STAGED_VALID i) 0
      else s
    let cap := capacity ((runs.map Run.len).sum * bits)
    let bad := decide (cap.1 ≠ bitsOf seg 37 11) || decide (cap.2 ≠ bitsOf seg 26 11)
    let s := if bad then s.inc b (LFR1.PSTAT_SEG_MISMATCH k) else s
    s.laySeg p k (layCws frame enc bad false 0 (profCws bits runs)) (cap.1 * 1824 + cap.2 - enc) (hdrFirst bs k) had

/-- A descriptor written into the standby bank of its profile and staged (R103, R245, R246). -/
def State.stageDesc (s : State) (p : Port) (d : Desc) : State :=
  let b := Pg.LFR p
  let i := d.profile - 1
  ((s.loadPut p d.profile 0 16 d.load).set b (LFR0.PROF_GEN_STAGED i) d.gen).set b (LFR0.PROF_GEN_STAGED_VALID i) 1

/-- The descriptor firmware keeps for a profile and generation. -/
def State.heldDesc (s : State) (p : Port) (prof gen : Nat) : Option Desc :=
  (s.rg p).held.find? (fun d => decide (d.profile = prof) && decide (d.gen = gen))

/-- An announcement of a profile (R103): a descriptor kept for it is staged (R245). -/
def State.announceProf (s : State) (p : Port) (bs : List Byte) (k : Nat) : State :=
  let b := Pg.LFR p
  let i := k - 1
  let n := hdrNext bs k
  let c := hdrCountdown bs k
  let same := fun (v g : Fld) => s.bit b v && decide (s.get b g = n)
  if c = 0 ∨ same (LFR0.PROF_GEN_CUR_VALID i) (LFR0.PROF_GEN_CURRENT i) = true
      ∨ same (LFR0.PROF_GEN_STAGED_VALID i) (LFR0.PROF_GEN_STAGED i) = true then s
  else
    let old := s.get b (LFR0.PROF_GEN_COUNTDOWN i)
    let again := decide (old ≠ 0) && decide (s.get b (LFR0.PROF_GEN_ANNOUNCED i) = n)
    let s := (s.set b (LFR0.PROF_GEN_ANNOUNCED i) n).set b (LFR0.PROF_GEN_COUNTDOWN i) c
    if again then s
    else
      match s.heldDesc p k n with
      | some d => (s.evt b 15).stageDesc p d
      | none => s.evt b 15

/-- The switching-request bytes of a consistent header (R95, R254). -/
def State.takeSr (s : State) (p : Port) (sr0 sr1 : Nat) : State :=
  let b := Pg.LFR p
  let r := s.rg p
  let moved := s.bit b LFR0.SR_RX_VALID
    && (decide (s.get b LFR0.SR_RX_SR0 ≠ sr0) || decide (s.get b LFR0.SR_RX_SR1 ≠ sr1))
  let s := ((s.set b LFR0.SR_RX_VALID 1).set b LFR0.SR_RX_SR0 sr0).set b LFR0.SR_RX_SR1 sr1
  let s := if moved then s.evt b 16 else s
  let run := if decide (r.srNew = sr0) && decide (0 < r.srRun) then min 15 (r.srRun + 1) else 1
  s.setRg p { r with srNew := sr0, srRun := run, sr0 := if s.dual.persist ≤ run then sr0 else r.sr0 }

/-- The sections of a control area noted, unless LOS, LSS or LOF is present (R97, R119). -/
def State.noteCtrl (s : State) (p : Port) (q : Pointers) : State :=
  let some? := fun (a : Nat × Nat) => if a.2 = 0 then none else some a
  if s.lineLost p || decide (q.grant.2 = 0 ∧ q.mgmt.2 = 0 ∧ q.time.2 = 0) then s
  else
    let d := s.down p
    s.setDown p { d with ctrls := d.ctrls ++ [⟨d.count, q.enc, [], some? q.grant, some? q.mgmt, some? q.time⟩] }

/-- A consistent Fladon-2 header body applied. -/
def State.takeBody2 (s : State) (p : Port) (bs : List Byte) : State :=
  let s := (s.takeSr p (msgField bs 2 1) (msgField bs 3 1)).noteCtrl p (readPointers bs 0x4C)
  let on := (List.range 8).filter (fun k => (s.stream p k).on)
  let s := on.foldl (fun s k => s.layProf p bs k) s
  (on.filter (fun k => decide (0 < k))).foldl (fun s k => s.announceProf p bs k) s

/-- A consistent Fladon-1 header applied (R122, R123). -/
def State.takeBody1 (s : State) (p : Port) (bs : List Byte) : State :=
  let q := readPointers bs 0xE
  let s := (s.takeSr p (msgField bs 0xC 1) (msgField bs 0xD 1)).noteCtrl p q
  s.laySeg p 0 (layCws (s.down p).count q.enc false false 0 cws1) (691960 - q.enc) (msgField bs 0x1C 4 % 2 ^ 22) true

/-- Whether a Fladon-1 header is consistent (R96, R97, R122). -/
def bodyGood1 (bs : List Byte) : Bool :=
  let q := readPointers bs 0xE
  let first := msgField bs 0x1C 4 % 2 ^ 22
  (readPreamble1 bs).isSome && q.good 691960 && (decide (first = noFeh) || decide (first < 691960 - q.enc))

/-- A header body that is not consistent, or not decoded: the header counts as lost (R96, R116). -/
def State.headerBad (s : State) (p : Port) : State :=
  let b := Pg.LFR p
  let s := (s.inc b LFR1.HDR_INCONSISTENT).evt b 21
  (s.setDown p { s.down p with lostRecent := true :: (s.down p).lostRecent.drop 1 }).headerLost p

/-- HEADER_BODY (R95 to R103, R116, R122, R254): of the line frame whose preamble was valid. -/
def execHeaderBody (p : Port) (body : Option (List Byte)) (s : State) : Host.Outcome State Fault Refusal :=
  .next (
    if !(s.down p).bodyDue then s
    else
      let s := s.setDown p { s.down p with bodyDue := false }
      match body with
      | some bs =>
        if s.gen1 p then (if bodyGood1 bs then s.takeBody1 p bs else s.headerBad p)
        else if s.bodyGood p bs then s.takeBody2 p bs
        else s.headerBad p
      | none => s.headerBad p)

end Sys2Proof.Machine
end

