-- ==== Sys2Proof/Machine/Delineate.lean ====
section
/-!
DEFINITION. Machine/Delineate.lean: the delineators (R110 to R112), delineated frames (R106 to R109, R113, R114), the
sections of the control area, and the windows of the defects (R117, R118).
-/

namespace Sys2Proof.Machine

/-! ### Delineators (R110 to R112, R552) -/

/-- Stream bytes no longer needed taken off: those before the oldest frame kept and the delineator's position. -/
def dropChunks : List Chunk → Nat → Nat → List Chunk × Nat
  | [], base, _ => ([], base)
  | c :: cs, base, low => if base + c.len ≤ low then dropChunks cs (base + c.len) low else (c :: cs, base)
def Stream.trim (x : Stream) : Stream :=
  let low := ((x.ready ++ x.held).map DFrame.at_).foldl min (if x.st = .presync then min x.cand x.q else x.q)
  let r := dropChunks x.chunks x.base low
  let last := match x.segs.getLast? with
    | some g => [g]
    | none => []
  { x with chunks := r.1, base := r.2,
           segs := (x.segs.dropLast.filter (fun g => decide (low < g.start + g.len) || decide (x.q < g.start + g.len))) ++ last }

/-- The line frame that holds a stream position. -/
def Stream.segAt (x : Stream) (q : Nat) : Option Seg := x.segs.find? (fun g => decide (g.start ≤ q) && decide (q < g.start + g.len))

/-- The nearest anchor beyond a stream position. -/
def Stream.anchorAfter (x : Stream) (q : Nat) : Option Nat :=
  ((x.segs.filterMap Seg.anchor).filter (fun a => decide (q < a))).head?

/-- The line frame of the position marked: its first predicted position has been judged. -/
def Stream.meet (x : Stream) (q : Nat) : Stream :=
  { x with segs := x.segs.map (fun g => if g.start ≤ q ∧ q < g.start + g.len then { g with met := true } else g) }

/-- The anchor that the position must meet now, if it is the first predicted position of an anchored line frame. -/
def Stream.anchorDue (x : Stream) : Option Nat :=
  if (x.st = .sync ∨ x.st = .anchored) ∧ x.waitAnchor = false then
    match x.segAt x.q with
    | some g => if g.met then none else g.anchor
    | none => none
  else none

/-- Whether a frame's bytes reach into the run of a lost header (R552). -/
def Stream.reachesLost (x : Stream) (f : DFrame) : Bool :=
  x.segs.any (fun g => g.lost && decide (f.at_ < g.start + g.len) && decide (g.start < f.at_ + 8 + fehLength f.feh))

/-- Held frames dropped as FALSE_LOCK; `signal` raises the event (R110).  Those that reach into the run of a lost header count
in ERASED instead (R552). -/
def State.falseLock (s : State) (p : Port) (k : Nat) (signal : Bool) : State :=
  let x := s.stream p k
  let kept := x.held.filter (fun f => !f.gone)
  let lost := (kept.filter x.reachesLost).length
  let s := (s.releaseHeld p x).addCnt (Pg.LFR p) (LFR1.PSTAT_FALSE_LOCK k) (kept.length - lost)
  let s := s.addCnt (Pg.LFR p) (LFR1.PSTAT_ERASED k) lost
  let s := s.setStream p k { s.stream p k with held := [] }
  if signal then s.evt (Pg.LFR p) 18 else s

/-- A delineator's return to HUNT from PRESYNC or SYNC (R110). -/
def State.toHunt (s : State) (p : Port) (k q : Nat) : State :=
  (s.setStream p k { s.stream p k with st := .hunt, q := q, confirms := 0, miss := 0, waitAnchor := false }).inc (Pg.LFR p)
    (LFR1.PSTAT_HUNTS k)

/-- An invalid FEH at a predicted position of SYNC (R110); `next` is the next position where it is known. -/
def State.synInvalid (s : State) (p : Port) (k : Nat) (next : Option Nat) : State :=
  let x := s.stream p k
  let s := if x.st = .sync then s.falseLock p k (decide (x.miss < 2) || !x.held.isEmpty) else s
  let x := s.stream p k
  if x.miss = 2 then s.toHunt p k (x.q + 1)
  else
    match next with
    | some a => s.setStream p k { (x.meet a) with miss := x.miss + 1, q := a }
    | none => s.setStream p k { x with miss := x.miss + 1, waitAnchor := true }

/-- The anchor judged (R110, R111). -/
def State.anchorJudge (s : State) (p : Port) (k a : Nat) : State :=
  let x := s.stream p k
  if x.q = a then
    let y := x.meet a
    if x.st = .sync then s.setStream p k { y with st := .anchored, ready := y.ready ++ y.held, held := [] }
    else s.setStream p k y
  else if x.st = .sync then (s.falseLock p k true).toHunt p k a
  else (s.inc (Pg.LFR p) (LFR1.PSTAT_ANCHOR_MISS k)).synInvalid p k (some a)

/-- A frame delineated in SYNC (R111, R113, R114): released when anchored, else held in the receive buffer.  An idle FEH keeps
delineation and is otherwise ignored (R106). -/
def State.delineated (s : State) (p : Port) (k feh : Nat) : State :=
  let x := s.stream p k
  let len := fehLength feh
  let y : Stream := { x with miss := 0, q := x.q + 8 + len }
  if fehIdle feh then s.setStream p k y
  else if x.st = .anchored then s.setStream p k { y with ready := y.ready ++ [⟨x.q, feh, 0, false⟩] }
  else
    match s.rxReserve p (rxUnits len) with
    | (true, t) => t.setStream p k { y with held := y.held ++ [⟨x.q, feh, rxUnits len, false⟩] }
    | (false, t) =>
      let z : Stream := if fehFrag feh = 0 then y else { y with held := y.held ++ [⟨x.q, feh, 0, true⟩] }
      (t.setStream p k z).rxOverflow p len

/-- The second confirmation (R110): SYNC is entered, and where this is the first predicted position of an anchored line
frame the anchor judges it; frames from this FEH on are delineated. -/
def State.secondConfirmed (s : State) (p : Port) (k feh : Nat) : State :=
  let x := s.stream p k
  match x.anchorDue with
  | some a => if x.q = a then (s.anchorJudge p k a).delineated p k feh else s.anchorJudge p k a
  | none => s.delineated p k feh

/-- A position tested: `feh` when its eight bytes form a valid FEH.  In PRESYNC the line frame of a confirmed position has
had its first predicted position, and a prediction in the run of a lost header resumes the search after it (R552). -/
def State.fehTested (s : State) (p : Port) (k : Nat) (feh : Option Nat) : State :=
  let x := s.stream p k
  match x.st, feh with
  | .hunt, some f => s.setStream p k { x with st := .presync, cand := x.q, confirms := 0, q := x.q + 8 + fehLength f }
  | .hunt, none =>
    s.setStream p k { x with q := match x.segAt x.q with
      | some g => if g.lost then g.start + g.len else x.q + 1
      | none => x.q + 1 }
  | .presync, some f =>
    if x.confirms = 0 then s.setStream p k { (x.meet x.q) with confirms := 1, q := x.q + 8 + fehLength f }
    else (s.setStream p k { x with st := .sync, confirms := 0, miss := 0 }).secondConfirmed p k f
  | .presync, none => s.toHunt p k (match x.segAt x.q with
    | some g => if g.lost then g.start + g.len else x.cand + 1
    | none => x.cand + 1)
  | .sync, some f => s.delineated p k f
  | .anchored, some f => s.delineated p k f
  | .sync, none => s.synInvalid p k none
  | .anchored, none => s.synInvalid p k none

/-- One step of a delineator (R110): an anchor that is due is judged first; a position set to the next anchor waits for
it; HUNT moves to an anchor beyond its position when ANCHOR_JUMP is 1; else the eight bytes are tested, once they are
received. -/
def State.delinStep (s : State) (p : Port) (k : Nat) : State :=
  let x := s.stream p k
  match x.anchorDue with
  | some a => s.anchorJudge p k a
  | none =>
    if x.waitAnchor then
      match x.anchorAfter x.q with
      | some a =>
        let y := x.meet a
        s.setStream p k { y with q := a, waitAnchor := false, st := .anchored, ready := y.ready ++ y.held, held := [] }
      | none => s
    else
      let atAnchor := (x.segs.filterMap Seg.anchor).contains x.q
      let jump := if x.st = .hunt ∧ s.bit (Pg.LFR p) LFR0.DS_CTRL_ANCHOR_JUMP = true ∧ atAnchor = false then x.anchorAfter x.q else none
      match jump with
      | some a => s.setStream p k { x with q := a }
      | none =>
        match x.bytes x.q 8 with
        | none => s
        | some none => s.fehTested p k none
        | some (some bs) => s.fehTested p k (if fehValid (beNat bs) then some (beNat bs) else none)

/-- DELINEATOR_FEH (R105, R110 to R114). -/
def execDelineatorFeh (p : Port) (profile : Fin 8) (s : State) : Host.Outcome State Fault Refusal :=
  .next (
    let k := profile.val
    if (s.stream p k).on && decide (s.align p = alLocked) then
      let t := s.delinStep p k
      t.setStream p k (t.stream p k).trim
    else s)

/-- DELINEATOR_ANCHOR (R110, R111). -/
def execDelineatorAnchor (p : Port) (profile : Fin 8) (s : State) : Host.Outcome State Fault Refusal :=
  .next (
    let k := profile.val
    match (s.stream p k).anchorDue with
    | some a => if (s.stream p k).on then s.anchorJudge p k a else s
    | none => s)

/-! ### Frames (R106 to R109) -/

/-- The slot of the line MAC filter that takes a DEST: none, broadcast as slot 8, else the lowest that matches (R107). -/
def State.macSlot (s : State) (p : Port) (dest : Nat) : Option Nat :=
  if dest = 0xFFF then some 8
  else if dest = 0 then none
  else (List.range 8).find? (fun i => s.bit (Pg.LFR p) (LFR0.ADDR_VALID i) && decide (s.get (Pg.LFR p) (LFR0.ADDR_ADDR i) = dest))

/-- Largest LENGTH delivered (R106). -/
def State.maxLen (s : State) (p : Port) : Nat := max 18 (s.get (Pg.LFR p) LFR0.MAX_LEN)

/-- Steps 7 to 9 of R109: a whole frame decrypted, checked and passed on. -/
def State.passFrame (s : State) (p : Port) (k feh : Nat) (payload : List Byte) (units : Nat) : State :=
  let b := Pg.LFR p
  let r := s.lineDecrypt p (fehDest feh) (fehPort feh) (fehKey feh) (fehTunnel feh) payload
  match r.1 with
  | none => r.2.rxRelease p units
  | some pt =>
    let s := r.2
    let body := pt.take (pt.length - 4)
    if pt.length < 4 ∨ leNat (pt.drop (pt.length - 4)) ≠ Crypto.crc32 body then
      (s.inc b (LFR1.PSTAT_FCS_ERR k)).rxRelease p units
    else
      let s := (s.add64 b (LFR1.PSTAT_FRAMES_LO k) 1).add64 b (LFR1.PSTAT_BYTES_LO k) payload.length
      let s := match s.macSlot p (fehDest feh) with
        | some 8 => s.inc b LFR1.BROADCAST
        | some (_ + 1) => s.inc b LFR1.GROUP
        | _ => s
      if fehTunnel feh then
        let s := (s.inc b LFR1.MGMT_TUNNEL).rxRelease p units
        s.setDown p { s.down p with tunnelIn := (s.down p).tunnelIn ++ [(fehPort feh, pt)] }
      else s.setInq p.num (s.inq p.num ++ [⟨p.num, body, fehPort feh, fehCe feh, 0, [], units, none, false, []⟩])

/-- A whole frame delivered; in REST only management messages in the clear are, after step 6 of R109 (R482). -/
def State.deliverFrame (s : State) (p : Port) (k feh : Nat) (payload : List Byte) (units : Nat) : State :=
  if s.get Pg.PWR PWR.STATE_CURRENT = 2 ∧ ¬(fehTunnel feh = true ∧ fehKey feh = 0) then
    (s.inc Pg.HOLD (HOLD.REST_DROP p.num)).rxRelease p units
  else s.passFrame p k feh payload units

/-- The open frame of a stream dropped, counted in FRAG_ERR (R108). -/
def State.dropCtx (s : State) (p : Port) (k : Nat) : State :=
  let x := s.stream p k
  match x.ctx with
  | none => s
  | some c => ((s.setStream p k { x with ctx := none }).inc (Pg.LFR p) (LFR1.PSTAT_FRAG_ERR k)).rxRelease p c.units

/-- Space for an accepted piece, unless it was reserved while the piece was held (R113, R114): whether there is any. -/
def State.takeSpace (s : State) (p : Port) (len held : Nat) : Bool × State :=
  if held ≠ 0 then (true, s)
  else
    match s.rxReserve p (rxUnits len) with
    | (true, t) => (true, t)
    | (false, t) => (false, t.rxOverflow p len)

/-- A fragment dropped on its own account (R108). -/
def State.dropFrag (s : State) (p : Port) (k held : Nat) : State := (s.inc (Pg.LFR p) (LFR1.PSTAT_FRAG_ERR k)).rxRelease p held

/-- An accepted fragment (R108). -/
def State.fragment (s : State) (p : Port) (k feh : Nat) (payload : List Byte) (held : Nat) : State :=
  let len := payload.length
  let first := decide (fehFrag feh = 1)
  if len = 0 then (s.dropCtx p k).dropFrag p k held
  else if first then
    let s := s.dropCtx p k
    match s.takeSpace p len held with
    | (false, t) => t
    | (true, t) => t.setStream p k { t.stream p k with ctx := some ⟨feh, payload, rxUnits len⟩ }
  else
    match (s.stream p k).ctx with
    | none => s.dropFrag p k held
    | some c =>
      if fehDest c.feh ≠ fehDest feh ∨ fehKey c.feh ≠ fehKey feh ∨ 16383 < c.bytes.length + len then
        (s.dropCtx p k).dropFrag p k held
      else
        match s.takeSpace p len held with
        | (false, t) => t.dropCtx p k
        | (true, t) =>
          let bytes := c.bytes ++ payload
          let units := c.units + rxUnits len
          if fehFrag feh = 2 then t.setStream p k { t.stream p k with ctx := some ⟨c.feh, bytes, units⟩ }
          else
            let t := t.setStream p k { t.stream p k with ctx := none }
            if bytes.length < 18 ∨ t.maxLen p < bytes.length then
              (t.inc (Pg.LFR p) (LFR1.PSTAT_LEN_ERR k)).rxRelease p units
            else t.deliverFrame p k c.feh bytes units

/-- A fragment that found no room while it was held, in its turn (R108, R114): the open reassembly is dropped where the
fragment would have extended or replaced it. -/
def State.goneTurn (s : State) (p : Port) (k : Nat) (f : DFrame) (payload : Option (List Byte)) : State :=
  if payload.isSome && (s.macSlot p (fehDest f.feh)).isSome && decide (fehKey f.feh ≠ 1) then s.dropCtx p k else s

/-- A released frame, with its payload: none when a byte of it is erased (R109). -/
def State.frameSteps (s : State) (p : Port) (k : Nat) (f : DFrame) (payload : Option (List Byte)) : State :=
  let b := Pg.LFR p
  if f.gone then s.goneTurn p k f payload
  else if fehIdle f.feh then s.rxRelease p f.units
  else
  match payload with
  | none => (s.inc b (LFR1.PSTAT_ERASED k)).rxRelease p f.units
  | some pl =>
    if fehFrag f.feh = 0 ∧ (pl.length < 18 ∨ s.maxLen p < pl.length) then (s.inc b (LFR1.PSTAT_LEN_ERR k)).rxRelease p f.units
    else if (s.macSlot p (fehDest f.feh)).isNone then (s.inc b (LFR1.PSTAT_FOREIGN k)).rxRelease p f.units
    else if fehKey f.feh = 1 then (s.inc b (LFR1.PSTAT_KEY_INVALID k)).rxRelease p f.units
    else if fehFrag f.feh = 0 then
      match s.takeSpace p pl.length f.units with
      | (false, t) => t
      | (true, t) => t.deliverFrame p k f.feh pl (rxUnits pl.length)
    else s.fragment p k f.feh pl f.units

/-- DOWNSTREAM_FRAME (R106 to R109, R113, R114, R119): the oldest frame released, once its payload has been received;
none is delivered while LOS, LSS or LOF is present. -/
def execDownstreamFrame (p : Port) (profile : Fin 8) (s : State) : Host.Outcome State Fault Refusal :=
  .next (
    let k := profile.val
    let x := s.stream p k
    match x.ready with
    | [] => s
    | f :: fs =>
      match x.bytes (f.at_ + 8) (fehLength f.feh) with
      | none => s
      | some pl =>
        let s := s.setStream p k { x with ready := fs }
        let t := s.frameSteps p k f (if s.lineLost p then none else pl)
        t.setStream p k (t.stream p k).trim)

/-! ### The sections of the control area (R97, R119, R227, R229, R275) -/

/-- Bytes of a control area: none when they have not all been decoded, `some none` when one is erased. -/
def readParts (parts : List (Nat × Nat × Option (List Byte) × Nat × Nat)) : Nat → Nat → Nat → Option (Option (List Byte))
  | 0, _, n => if n = 0 then some (some []) else none
  | k + 1, pos, n =>
    if n = 0 then some (some [])
    else
      match parts.find? (fun c => decide (c.1 ≤ pos) && decide (pos < c.1 + c.2.1)) with
      | none => none
      | some c =>
        let m := min n (c.1 + c.2.1 - pos)
        match readParts parts k (pos + m) (n - m), c.2.2.1 with
        | none, _ => none
        | some (some r), some d => some (some ((d.drop (pos - c.1)).take m ++ r))
        | some _, _ => some none
def CtrlArea.bytes (a : CtrlArea) (pos n : Nat) : Option (Option (List Byte)) := readParts a.parts (a.parts.length + 1) pos n

/-- End of the codeword that holds a byte of a control area, and the instant of its decoding. -/
def CtrlArea.instant (a : CtrlArea) (pos : Nat) : Nat × Nat :=
  match a.parts.find? (fun c => decide (c.1 ≤ pos) && decide (pos < c.1 + c.2.1)) with
  | some c => (c.2.2.2.1, c.2.2.2.2)
  | none => (0, 0)

/-- A control area whose sections have all been passed on. -/
def CtrlArea.spent (a : CtrlArea) : Bool := a.grant.isNone && a.mgmt.isNone && a.time.isNone

/-- The oldest section of a kind taken from the control areas: its area and its bytes, none when they were lost.  A
section not yet decoded waits. -/
def State.takeSection (s : State) (p : Port) (get : CtrlArea → Option (Nat × Nat)) (clear : CtrlArea → CtrlArea) :
    Option (CtrlArea × (Nat × Nat) × Option (List Byte)) × State :=
  let d := s.down p
  match d.ctrls.find? (fun a => (get a).isSome) with
  | none => (none, s)
  | some a =>
    match get a with
    | none => (none, s)
    | some sec =>
      match a.bytes sec.1 sec.2 with
      | none => (none, s)
      | some data =>
        let s := s.setDown p { d with
          ctrls := (d.ctrls.map (fun x => if x.frame = a.frame then clear x else x)).filter (fun x => !x.spent) }
        let s := if data.isNone then s.inc (Pg.LFR p) LFR1.CTRL_ERASED else s
        (some (a, sec, data), s)

/-- Types of downstream short messages (R232). -/
def shortTypeKnown (t : Nat) : Bool := decide (1 ≤ t) && decide (t ≤ 13)

/-- Whether a short message's CRC is right (R228, R548). -/
def shortCrcOk (m : List Byte) : Bool := decide (leNat ((m.drop 0x3C).take 4) = Crypto.crc32 (m.take 0x3C))

/-- Whether a short message is addressed to this terminal (R229). -/
def State.shortForUs (s : State) (p : Port) (m : List Byte) : Bool :=
  let addr := msgField m 2 2 % 4096
  decide (addr = 0xFFF) || (s.bit (Pg.LFR p) (LFR0.ADDR_VALID 0) && decide (addr = s.get (Pg.LFR p) (LFR0.ADDR_ADDR 0)))

/-- A run of bytes cut into messages of `n` bytes. -/
def cutBytes (n : Nat) : Nat → List Byte → List (List Byte)
  | 0, _ => []
  | k + 1, bs => bs.take n :: cutBytes n k (bs.drop n)

/-- A short message received (R229, R232): kept for its command, or discarded. -/
def State.shortIn (s : State) (p : Port) (m : List Byte) : State :=
  if !shortCrcOk m then s.inc (Pg.LFR p) LFR1.MGMT_ERR
  else if !shortTypeKnown (msgField m 0 1) then s.inc (Pg.LFR p) LFR1.MGMT_ERR
  else s.setDown p { s.down p with mgmtIn := (s.down p).mgmtIn ++ [m] }

/-- MGMT_SECTION (R97, R227 to R229). -/
def execMgmtSection (p : Port) (s : State) : Host.Outcome State Fault Refusal :=
  .next (
    match s.takeSection p CtrlArea.mgmt (fun a => { a with mgmt := none }) with
    | (some (_, _, some bs), s) =>
      if bs.length % 64 ≠ 0 then s.inc (Pg.LFR p) LFR1.MGMT_ERR
      else (cutBytes 64 (bs.length / 64) bs).foldl (fun s m => s.shortIn p m) s
    | (_, s) => s)

/-- TIME_SECTION (R97, R275). -/
def execTimeSection (p : Port) (s : State) : Host.Outcome State Fault Refusal :=
  .next (
    match s.takeSection p CtrlArea.time (fun a => { a with time := none }) with
    | (some (_, _, some bs), s) =>
      if bs.length % 48 ≠ 0 then s.inc Pg.TIME TIME1.TMSG_ERR
      else s.setDown p { s.down p with timeIn := (s.down p).timeIn ++ cutBytes 48 (bs.length / 48) bs }
    | (_, s) => s)

/-! ### Windows of the defects (R117, R118) -/

/-- Whether corrected bits over coded bits exceed, or lie below, a threshold in units of 2^-20. -/
def BerSum.berAbove (x : BerSum) (t : Nat) : Bool := decide (t * x.coded < x.corrected * 2 ^ 20)
def BerSum.berBelow (x : BerSum) (t : Nat) : Bool := decide (x.corrected * 2 ^ 20 < t * x.coded)

/-- The same of uncorrectable codewords. -/
def BerSum.uncAbove (x : BerSum) (t : Nat) : Bool := decide (t * (x.uncorr + x.decoded) < x.uncorr * 2 ^ 20)
def BerSum.uncBelow (x : BerSum) (t : Nat) : Bool := decide (x.uncorr * 2 ^ 20 < t * (x.uncorr + x.decoded))

/-- DEFECT_WINDOW_END (R117): the 64 line frames judge SF's raise; the 1,024 judge SD and the clearing of both.  SD's
clearing level is half its threshold. -/
def execDefectWindowEnd (p : Port) (long : Bool) (s : State) : Host.Outcome State Fault Refusal :=
  let b := Pg.LFR p
  .next (
    if !s.lineOn p then s
    else
      let d := s.down p
      let zero : BerSum := ⟨0, 0, 0, 0⟩
      let sf := d.raw.getD 4 false
      let sd := d.raw.getD 5 false
      let ber := s.get b LFR0.SF_CFG_BER
      let unc := s.get b LFR0.SF_CFG_UNCORR
      let sdBer := s.get b LFR0.SD_CFG
      if long then
        let w := d.w1024
        let s := s.setDown p { d with w1024 := zero }
        if sf then (if w.berBelow ber && w.uncBelow unc then s.setDefect p 4 false else s)
        else if !sd && w.berAbove sdBer then s.setDefect p 5 true
        else if sd && decide (2 * w.corrected * 2 ^ 20 < sdBer * w.coded) then s.setDefect p 5 false
        else s
      else
        let w := d.w64
        let s := s.setDown p { d with w64 := zero }
        if !sf && (w.berAbove ber || w.uncAbove unc) then s.setDefect p 4 true else s)

/-- LOD_EVALUATION (R117): a line frame ends; one with a lost header takes no part.  LOD clears once the delineators that raised
it, profile 0's, and those of profiles with runs have been anchored for two line frames. -/
def execLodEvaluation (p : Port) (s : State) : Host.Outcome State Fault Refusal :=
  .next (
    let d := s.down p
    if !s.lineOn p || lossOf d.raw || d.lostRecent.headD true then s
    else
      let up := d.raw.getD 3 false
      let judge := fun (x : Stream) =>
        let good := if x.st = .anchored then min 2 (x.lodGood + 1) else 0
        if !x.on then x
        else if !x.hadRuns then { x with lodGood := good }
        else if x.st = .anchored then { x with lodBad := if up then x.lodBad else 0, lodGood := good }
        else { x with lodBad := min 8 (x.lodBad + 1), lodGood := good }
      let ss := d.streams.map (fun x => (x.1, judge x.2))
      let s := s.setDown p { d with streams := ss }
      if up then
        let live := ss.filter (fun x => x.2.on && (x.2.hadRuns || decide (x.1 = 0) || decide (8 ≤ x.2.lodBad)))
        (if live.all (fun x => decide (2 ≤ x.2.lodGood)) then s.setDefect p 3 false else s)
      else if ss.any (fun x => x.2.on && decide (8 ≤ x.2.lodBad)) then s.setDefect p 3 true
      else s)

/-! ### DS_CTRL (R101, R124) -/

/-- DS_CTRL_WRITE (R40, R124): PROF_EN is written by firmware only; GEN differs only in OFF. -/
def execDsCtrlWrite (src : Source) (val : Word) (p : Port) (s : State) : Host.Outcome State Fault Refusal :=
  let a := Pg.LFR p + LFR0.DS_CTRL.off
  .next (
    match s.accessReg src a true with
    | .rejected pg r => s.refuse src pg r true a
    | .ok _ =>
      let gen := decide (val.toNat % 2 = 1)
      if gen ≠ s.gen1 p ∧ s.fnIs (.line p) .off = false then s.refuse src (Pg.LFR p) .offOnly true a
      else
        let en := s.get (Pg.LFR p) LFR0.DS_CTRL_PROF_EN
        let s := s.storeReg a val
        s.set (Pg.LFR p) LFR0.DS_CTRL_PROF_EN (if src.isHook then bitsOf val.toNat 16 8 / 2 * 2 + 1 else en))

end Sys2Proof.Machine
end

