-- ==== Sys2Proof/Machine/Upstream.lean ====
section
/-!
DEFINITION. Machine/Upstream.lean: grants (R198 to R210), the draw of a burst (R211 to R222, R468, R469), and bursts as
they begin and end.
-/

namespace Sys2Proof.Machine

/-! ### Burst structure (R205, R211, R213, R224) -/

/-- Whether a grant is a data grant (R203). -/
def Grant.isData (g : Grant) : Bool := !g.discovery && !g.ranging

/-- Training symbols, and payload symbols P, of a grant (R205). -/
def Grant.npre (g : Grant) : Nat := if g.long then 16 else 8
def Grant.payload (g : Grant) : Nat := g.len - g.lead - g.npre - 1

/-- Bits of a payload symbol: the burst profile's loading, the robust loading, or a Fladon-1 block. -/
def State.symBits (s : State) (p : Port) (g : Grant) : Nat :=
  if s.gen1 p then 832 else if g.isData then s.loadSum p (8 + g.bprof) 1 else 900

/-- Coded bits and information bytes of a full codeword (R213, R224). -/
def State.cwCoded (s : State) (p : Port) : Nat := if s.gen1 p then 16000 else 17280
def State.cwInfo (s : State) (p : Port) : Nat := if s.gen1 p then 1664 else 1824

/-- CW_COUNT and LAST_INFO of a capacity (R213). -/
def State.cwCount (s : State) (p : Port) (c : Nat) : Nat := c / s.cwCoded p
def State.lastInfo (s : State) (p : Port) (c : Nat) : Nat :=
  let r := c % s.cwCoded p
  if 2752 ≤ r then (r - 2688) / 8 else 0

/-- Information capacity in bytes of a grant (R213). -/
def State.infoBytes (s : State) (p : Port) (g : Grant) : Nat :=
  let c := g.payload * s.symBits p g
  s.cwCount p c * s.cwInfo p + s.lastInfo p c

/-- The bytes a grant requires (R205). -/
def Grant.required (g : Grant) : Nat :=
  max 8 ((if g.isData && g.report then 24 else 0) + (if g.mgmt then 64 else 0))

/-- Whether a grant is short (R205). -/
def State.isShort (s : State) (p : Port) (g : Grant) : Bool :=
  decide (g.len < g.lead + g.npre + 2) || decide (s.infoBytes p g < g.required)

/-- S0 in DAC samples, counted from line frame 0 (R198, R211); LA_BEN asserted and deasserted (R152). -/
def Grant.s0 (g : Grant) : Int := (g.frame * 8320000 + 2560000 + g.eqd + g.start * 2080 : Nat)
def Grant.assert_ (g : Grant) : Int := g.s0 - g.adv
def Grant.deassert (g : Grant) : Int := g.s0 + ((g.len * 2080 + g.hold : Nat) : Int) - 1

/-! ### The grant map (R201 to R207) -/

/-- A grant map entry as a grant: `order` numbers the entries taken, the settings are those in force now (R200, R205); a lead
below 2 acts as 2. -/
def State.mkGrant (s : State) (p : Port) (frame order e : Nat) : Grant :=
  let id := bitsOf e 50 14
  let disc := bitsOf e 19 1 = 1
  let rang := bitsOf e 20 1 = 1
  let b := Pg.LFR p
  let env := Pg.LINE p
  { frame := frame, start := bitsOf e 38 12, len := bitsOf e 25 13, allocId := id
    slot := if disc then none else
      (List.range 64).find? (fun i => s.bit b (LFR0.ALLOC_VALID i) && decide (s.get b (LFR0.ALLOC_ALLOC_ID i) = id))
    bprof := bitsOf e 23 2, report := bitsOf e 22 1 = 1, mgmt := bitsOf e 21 1 = 1 || disc || rang
    ranging := rang, discovery := disc, long := bitsOf e 18 1 = 1, eqd := s.get b LFR0.US_EQD
    lead := max 2 (s.get env LINE1.TX_ENV_LEAD_SYMS), adv := s.get env LINE1.TX_ENV_BEN_ADV, hold := s.get env LINE1.TX_ENV_BEN_HOLD
    order := order, trunc := false, announce := if disc then (s.up p).announce else none }

/-- Whether the framer takes an entry (R203). -/
def Grant.taken (g : Grant) : Bool :=
  if g.discovery then decide (g.allocId = 0x3FFF) else decide (g.allocId ≠ 0x3FFF) && g.slot.isSome

/-- Whether a burst profile may be named in data grants (R204, R20): VALID reads 0 while BITS exceeds 3,380. -/
def State.bprofValid (s : State) (p : Port) (n : Nat) : Bool :=
  s.bit (Pg.LFR p) (LFR0.US_BPROF_VALID n) && decide (s.get (Pg.LFR p) (LFR0.US_BPROF_BITS n) ≤ 3380)

/-- Check 1 of R204.  On Fladon-1 burst profiles do not apply (R223). -/
def State.malformed (s : State) (p : Port) (g : Grant) : Bool :=
  decide (3999 < g.start) || decide (g.len = 0) || decide (4000 < g.len) || (g.discovery && g.ranging)
    || (g.isData && (if s.gen1 p then decide (g.bprof ≠ 0) else !s.bprofValid p g.bprof))

/-- Check 2 of R204. -/
def State.permitted (s : State) (p : Port) (g : Grant) : Bool :=
  let b := Pg.LFR p
  if g.discovery then s.bit b LFR0.US_CTRL_SERVE_DISCOVERY && (s.up p).announce.isSome
  else if g.ranging then s.bit b LFR0.US_CTRL_SERVE_RANGING && (s.up p).rangingResp.isSome
  else s.bit b LFR0.US_CTRL_SERVE_DATA

/-- Whether a grant is late (R206): `ends` and `at_` are the end of its entry's codeword and the instant of its
decoding, in ticks of 1/768 ns after the line frame boundary; a DAC sample is 12 ticks. -/
def Grant.late (g : Grant) (ends at_ : Nat) : Bool :=
  let a : Int := (((2560000 + g.eqd + g.start * 2080 : Nat) : Int) - g.adv) * 12
  decide (a < (ends + 6144000 : Nat)) || decide (a < (at_ + 4608000 : Nat))

/-- The counter of the first check of R204 that a taken grant fails; none when it enters the store. -/
def State.grantFate (s : State) (p : Port) (g : Grant) (ends at_ : Nat) : Option Fld :=
  if s.malformed p g then some LFR1.GRANT_MALFORMED
  else if !s.permitted p g then some LFR1.GRANT_NOT_PERMITTED
  else if s.isShort p g then some LFR1.GRANT_SHORT
  else if g.late ends at_ then some LFR1.GRANT_LATE
  else none

/-- A grant skipped or truncated: GRANT_SKIP, at most once per upstream frame. -/
def State.grantSkip (s : State) (p : Port) (g : Grant) (F : Fld) : State := (s.inc (Pg.LFR p) F).evtOnce (Pg.LFR p) 23 g.frame

/-- Whether one grant is served before another (R207). -/
def Grant.before (a b : Grant) : Bool := decide (a.s0 < b.s0) || (decide (a.s0 = b.s0) && decide (a.order < b.order))

/-- A grant put at its place in the store. -/
def storeInsert (g : Grant) : List Grant → List Grant
  | [] => [g]
  | h :: hs => if g.before h then g :: h :: hs else h :: storeInsert g hs

/-- The collisions of the store in the order of S0, from the LA_BEN deassertion before it (R207): what is kept, and the
grants truncated for the first time, or skipped, in order. -/
def State.collide (s : State) (p : Port) : Option Int → List Grant → List Grant × List (Grant × Fld)
  | _, [] => ([], [])
  | last, g :: gs =>
    let n : Nat := match last with
      | some e => ((e + 64 - g.assert_ + 2079) / 2080).toNat
      | none => 0
    if n = 0 then
      let r := s.collide p (some g.deassert) gs
      (g :: r.1, r.2)
    else
      let h : Grant := { g with start := g.start + n, len := g.len - n, trunc := true }
      if s.isShort p h then
        let r := s.collide p last gs
        (r.1, (g, LFR1.GRANT_COLLIDE) :: r.2)
      else
        let r := s.collide p (some h.deassert) gs
        (h :: r.1, if g.trunc then r.2 else (g, LFR1.GRANT_TRUNC) :: r.2)

/-- The last LA_BEN deassertion of the bursts drawn or in progress: a burst that has ended lies before any grant that
R206 lets pass. -/
def Up.lastEnd (u : Up) : Option Int := (((u.burst.toList ++ u.drawn).map (fun b => b.grant.deassert))).max?

/-- The collisions carried out. -/
def State.settleStore (s : State) (p : Port) : State :=
  let u := s.up p
  let r := s.collide p u.lastEnd u.store
  r.2.foldl (fun s x => s.grantSkip p x.1 x.2) (s.setUp p { u with store := r.1 })

/-- The entries of a map in order (R203, R204): `full` once the store has refused one. -/
def State.takeGrants (s : State) (p : Port) (a : CtrlArea) (pos : Nat) : Bool → List (List Byte) → State
  | _, [] => s
  | full, e :: es =>
    let u := s.up p
    let g := s.mkGrant p a.frame u.order (beNat e)
    if !g.taken then s.takeGrants p a (pos + 8) full es
    else
      let i := a.instant pos
      let j := a.instant (pos + 7)
      match s.grantFate p g (max i.1 j.1) (max i.2 j.2) with
      | some F => (s.grantSkip p g (if full then LFR1.GRANT_OVF else F)).takeGrants p a (pos + 8) full es
      | none =>
        if full ∨ 256 ≤ u.store.length + u.drawn.length then
          (s.grantSkip p g LFR1.GRANT_OVF).takeGrants p a (pos + 8) true es
        else
          (s.setUp p { u with store := storeInsert g u.store, order := u.order + 1 }).takeGrants p a (pos + 8) full es

/-- GRANT_MAP (R97, R119, R201 to R207). -/
def execGrantMap (p : Port) (s : State) : Host.Outcome State Fault Refusal :=
  .next (
    match s.takeSection p CtrlArea.grant (fun a => { a with grant := none }) with
    | (some (a, sec, some bs), s) =>
      let n := beNat (bs.take 2)
      if 511 < n ∨ bs.length ≠ 8 + 8 * n ∨ leNat (bs.drop (4 + 8 * n)) ≠ Crypto.crc32 (bs.take (4 + 8 * n)) then
        (s.inc (Pg.LFR p) LFR1.GMAP_ERR).evt (Pg.LFR p) 22
      else (s.takeGrants p a (sec.1 + 4) false (cutBytes 8 n (bs.drop 4))).settleStore p
    | (_, s) => s)

/-- A write of an allocation slot (R203, R210): one that loses VALID gives up its grants. -/
def State.allocWrite (s : State) (p : Port) (slot : Nat) (val : Word) : State :=
  (if val.toNat < 2 ^ 31 then s.allocClear p slot else s).storeReg (Pg.LFR p + (LFR0.ALLOC slot).off) val

/-- ALLOC_INVALIDATE (R210, R225). -/
def execAllocInvalidate (src : Source) (p : Port) (slot : Fin 64) (val : Word) (s : State) :
    Host.Outcome State Fault Refusal :=
  let a := Pg.LFR p + (LFR0.ALLOC slot.val).off
  .next (
    match s.accessReg src a true with
    | .rejected pg r => s.refuse src pg r true a
    | .ok _ => s.allocWrite p slot.val val)

/-! ### Reports (R220, R221) -/

/-- Units of 64 bytes of a frame, or of what is left of one, with its FEH (R221). -/
def reportUnits (n : Nat) : Nat := (8 + n + 63) / 64

/-- The frames that wait for an allocation of a port: those of its queues, and those of its lanes. -/
def State.allocQueued (s : State) (at_ : Nat) : List QFrame :=
  (s.sched.queues.filter (fun x => decide (s.classAt (s.queueClass x.1) = at_))).flatMap (fun x => x.2)
def State.allocLanes (s : State) (at_ : Nat) : List QFrame := (s.egressesAt at_).flatMap (fun e => s.lane e)

/-- The deadline band of a due time: 0 to 3 (R220). -/
def State.band (s : State) (due : Nat) : Nat :=
  let d := due - s.clock.cnt
  if d ≤ 250000 * 2 ^ 40 then 0 else if d ≤ 10 ^ 6 * 2 ^ 40 then 1 else if d ≤ 4 * 10 ^ 6 * 2 ^ 40 then 2 else 3

/-- The report block of an allocation slot, with its SEQ advanced (R220, R221). -/
def State.reportBlock (s : State) (p : Port) (slot allocId : Nat) : List Byte × State :=
  let at_ := 64 * p.num + slot
  let units := fun (f : QFrame) => reportUnits (s.usLength p (f.len + 4))
  let u := s.up p
  let part : List (Option Nat × Nat) := match SMap.get (fun _ => none) u.open_ slot with
    | none => []
    | some o => [(match o.src with
        | .queued _ none f => some f.due
        | _ => none, reportUnits (o.bytes.length - o.sent))]
  let all := part ++ (s.allocLanes at_).map (fun f => (some f.due, units f)) ++ (s.allocQueued at_).map (fun f => (none, units f))
  let sum := fun (ok : Option Nat → Bool) => min 0xFFFFFFFF (((all.filter (fun x => ok x.1)).map (fun x => x.2)).sum)
  let inBand := fun (k : Nat) => sum (fun d => match d with
    | some t => decide (s.band t = k)
    | none => false)
  let seq := SMap.get (fun _ => 0) u.reportSeq slot
  (beBytes 2 allocId ++ [if part.isEmpty then 0 else 1, BitVec.ofNat 8 seq] ++ beBytes 4 (sum (fun _ => true))
     ++ beBytes 4 (inBand 0) ++ beBytes 4 (inBand 1) ++ beBytes 4 (inBand 2) ++ beBytes 4 (inBand 3),
   s.setUp p { u with reportSeq := SMap.set (fun _ => 0) u.reportSeq slot ((seq + 1) % 256) })

/-! ### The draw (R215 to R218) -/

/-- A draw in progress: the size of the frame area, what is left of it, and what has been placed. -/
structure Draw where
  cap : Nat
  left : Nat
  bytes : List Byte
  frameBytes : Nat
  frames : Nat
  fragments : Nat
  done : List UpFrame
  openId : Option Nat
  marks : List (Nat × Nat × Nat)
deriving DecidableEq, Repr

/-- The identifier of the transmit stamp a frame asks for. -/
def UpFrame.tsId (u : UpFrame) : Option Nat :=
  match u.src with
  | .queued _ _ f => f.c.pkt.send.bind (fun d => d.tsId)
  | .fw _ => none

/-- A frame, or what is left of it, placed: whole or LAST where it fits, else FIRST or MIDDLE filling the area (R217). -/
def State.place (s : State) (p : Port) (slot : Nat) (d : Draw) (u : UpFrame) : Draw × State :=
  let rest := u.bytes.length - u.sent
  let fits := decide (8 + rest ≤ d.left)
  let n := if fits then rest else d.left - 8
  let frag := if u.sent = 0 then (if fits then 0 else 1) else (if fits then 3 else 2)
  let feh := mkFeh n (s.get (Pg.LFR p) (LFR0.ADDR_ADDR 0)) u.port u.key frag u.tunnel u.ce
  let v : UpFrame := { u with sent := u.sent + n }
  let marks := if u.sent = 0 then (u.tsId.map (fun t => (u.id, t, d.cap - d.left))).toList else []
  let e : Draw := { d with left := d.left - (8 + n), bytes := d.bytes ++ beBytes 8 feh ++ (u.bytes.drop u.sent).take n,
                           frameBytes := d.frameBytes + 8 + n, marks := d.marks ++ marks }
  let s := s.setUp p { s.up p with open_ := SMap.set (fun _ => none) (s.up p).open_ slot (if fits then none else some v) }
  if fits then
    ({ e with frames := d.frames + 1, done := d.done ++ [v] },
      match u.src with
      | .queued e none f => s.dlLeave e f
      | _ => s)
  else ({ e with fragments := d.fragments + 1, openId := some u.id }, s)

/-- A frame that goes no further: dropped, with Q reduced when it came from a lane. -/
def State.dropDrawn (s : State) (src : UpSrc) (status : Nat) : State :=
  match src with
  | .fw _ => s
  | .queued e none f => (s.dlLeave e f).dropPkt f.c.pkt status
  | .queued _ (some _) f => s.dropPkt f.c.pkt status

/-- A frame drawn for the first time: encrypted (R468) and placed; dropped when its key has no packet number left. -/
def State.drawFrame (s : State) (p : Port) (slot : Nat) (d : Draw) (src : UpSrc) (port : Nat) (ce : Bool)
    (plain : List Byte) : Draw × State :=
  let tunnel := match src with
    | .fw _ => true
    | .queued _ _ _ => false
  match s.lineEncrypt p (s.get (Pg.LFR p) (LFR0.ADDR_ADDR 0)) port (plain ++ leBytes 4 (Crypto.crc32 plain)) with
  | (none, t) => (d, (t.dropDrawn src t.openStatus).takeFree)
  | (some (key, bytes), t) =>
    let u := t.up p
    (t.setUp p { u with nextId := u.nextId + 1 }).place p slot d ⟨src, port, ce, tunnel, key, bytes, 0, u.nextId, false, none⟩

/-- What a draw does with the next frame. -/
inductive Fit where
  | take | tooLong | wait
deriving DecidableEq, Repr

/-- Whether a frame of this LENGTH is placed, dropped, or ends the draw (R216, R217).  A LENGTH above 16,383 cannot be
said in an FEH (R104): its frame is longer than its egress can carry (R426). -/
def State.fit (s : State) (p : Port) (d : Draw) (len : Nat) : Fit :=
  if 16383 < len then .tooLong
  else if 8 + len ≤ d.left then .take
  else if s.bit (Pg.LFR p) LFR0.US_CTRL_FRAG_EN then (if 128 ≤ d.left then .take else .wait)
  else if d.left = d.cap then .tooLong
  else .wait

/-- The draw of the frames of an allocation slot (R216, R217, R243): firmware's own first, in slot 0; then as the
scheduler releases them, for a departure at `now`. -/
def State.drawAll (s : State) (p : Port) (slot now : Nat) : Nat → Draw → Draw × State
  | 0, d => (d, s)
  | k + 1, d =>
    if (SMap.get (fun _ => none) (s.up p).open_ slot).isSome then (d, s)
    else
      let at_ := 64 * p.num + slot
      match (if slot = 0 then (s.up p).tunnelQ else []) with
      | m :: ms =>
        let t := s.setUp p { s.up p with tunnelQ := ms }
        match s.fit p d (s.usLength p (m.length + 4)) with
        | .wait => (d, s)
        | .tooLong => (t.inc (Pg.LFR p) LFR1.TOO_LONG).drawAll p slot now k d
        | .take =>
          match t.drawFrame p slot d (.fw m) 0 false m with
          | (d, t) => t.drawAll p slot now k d
      | [] =>
        match s.pickNext at_ now (fun q f => s.egressTakes at_ q f) with
        | none => (d, s)
        | some (pick, t) =>
          let k' := pick.frame.c.pkt
          if k'.poison then (s.dropPoison pick).drawAll p slot now k d
          else
            let src : UpSrc := .queued pick.egress pick.queue pick.frame
            match s.fit p d (s.usLength p (pick.frame.len + 4)) with
            | .wait => (d, s)
            | .tooLong => (((t.takeOut pick).dropDrawn src Snd.tooLong).inc (Pg.LFR p) LFR1.TOO_LONG).drawAll p slot now k d
            | .take =>
              match (t.takeOut pick).drawFrame p slot d src k'.svc k'.ce k'.bytes with
              | (d, t) => t.drawAll p slot now k d

/-- The frame area of a data burst: the open fragment of the slot first (R217). -/
def State.drawArea (s : State) (p : Port) (slot now cap : Nat) : Draw × State :=
  let d : Draw := ⟨cap, cap, [], 0, 0, 0, [], none, []⟩
  let fuel := ((s.sched.queues ++ s.sched.lanes).map (fun x => x.2.length)).sum + (s.up p).tunnelQ.length + 1
  match SMap.get (fun _ => none) (s.up p).open_ slot with
  | none => s.drawAll p slot now fuel d
  | some u =>
    if 8 < cap ∨ u.bytes.length ≤ u.sent ∧ 8 ≤ cap then
      match s.place p slot d u with
      | (d, t) => t.drawAll p slot now fuel d
    else (d, s)

/-- Idle FEHs back to back, and zeros in the last 1 to 7 bytes (R215). -/
def idleFill (n : Nat) : List Byte :=
  (List.replicate (n / 8) (beBytes 8 (mkFeh 0 0 0 0 0 false false))).flatten ++ List.replicate (n % 8) 0

/-- KEY_USE carried out at the first draw for its upstream frame or a later one (R250, R469). -/
def State.keySwitch (s : State) (p : Port) (frame : Nat) : State :=
  match (s.rg p).keyUse with
  | some (idx, from_) =>
    if (frame + 2 ^ 32 - from_ % 2 ^ 32) % 2 ^ 32 < 2 ^ 31 then
      ((s.setRg p { s.rg p with keyUse := none }).set Pg.CIPH (fldUsOn p) 1).set Pg.CIPH (fldUsIdx p) idx
    else s
  | none => s

/-- The management message that a burst carries (R222). -/
def State.mgmtOf (s : State) (p : Port) (g : Grant) : Option (List Byte) :=
  let u := s.up p
  if !g.mgmt then none else if g.discovery then g.announce else if g.ranging then u.rangingResp else u.mgmtQ.head?

/-- First payload symbol of a grant after S0, in units of 2^-40 ns: 32.5 ns a symbol. -/
def Grant.payloadAt (g : Grant) : Nat := (g.lead + g.npre + 1) * (65 * 2 ^ 39)

/-- A burst's draw closed (R215, R216, R221). -/
def State.closeDraw (s : State) (p : Port) (g : Grant) : State :=
  let s := s.keySwitch p g.frame
  let info := s.infoBytes p g
  let mgmt := s.mgmtOf p g
  let slotBytes := if g.mgmt then padTo 64 (mgmt.getD []) else []
  let empty : Draw := ⟨0, 0, [], 0, 0, 0, [], none, []⟩
  let data := g.isData
  let reports := data && g.report
  let pre := (if reports then 24 else 0) + slotBytes.length
  let slot := g.slot.getD 0
  let r : Draw × State :=
    if data then s.drawArea p slot (s.clock.cnt + 3000 * 2 ^ 40 + g.payloadAt) (info - pre) else (empty, s)
  let d := r.1
  let t := r.2
  let rep : List Byte × State := if reports then t.reportBlock p slot g.allocId else ([], t)
  let t := rep.2
  let payload := rep.1 ++ slotBytes ++ d.bytes ++ idleFill (info - pre - d.bytes.length)
  let b : Burst := ⟨g, payload, mgmt, d.frameBytes, d.frames, d.fragments, d.done, d.openId,
    d.marks.map (fun x => (x.1, x.2.1, pre + x.2.2)), [], none⟩
  t.setUp p { t.up p with drawn := (t.up p).drawn ++ [b] }

/-- DRAW_CLOSE (R207, R215 to R222). -/
def execDrawClose (p : Port) (s : State) : Host.Outcome State Fault Refusal :=
  .next (
    match (s.up p).store with
    | [] => s
    | g :: gs => (s.setUp p { s.up p with store := gs }).closeDraw p g)

/-! ### Bursts (R208, R214, R219) -/

/-- RDI and SDI as they would be sent now (R219). -/
def State.rdiNow (s : State) (p : Port) : Bool :=
  let b := Pg.LFR p
  s.bit b LFR0.US_CTRL_FORCE_RDI || (s.hasDefect p 3 && s.bit b LFR0.US_CTRL_RDI_LOD)
    || (s.hasDefect p 4 && s.bit b LFR0.US_CTRL_RDI_SF) || ((s.down p).lostRecent.any id && s.bit b LFR0.US_CTRL_RDI_HDR)
def State.sdiNow (s : State) (p : Port) : Bool := s.hasDefect p 5 && s.bit (Pg.LFR p) LFR0.US_CTRL_SDI_EN

/-- The burst header of 96 bits (R214, R224). -/
def State.burstHeader (s : State) (p : Port) (g : Grant) : List Byte :=
  let c := g.payload * s.symBits p g
  let bit := fun (b : Bool) => if b then 1 else 0
  let hi := ((if s.gen1 p then 1 else 2) * 2 ^ 14 + g.allocId % 2 ^ 14) * 2 ^ 16 + s.lineAddr p % 2 ^ 12 * 2 ^ 4
    + (if g.isData && !s.gen1 p then g.bprof % 4 else 0) * 4 + bit (g.isData && g.report) * 2 + bit g.mgmt
  let lo := ((bit (s.rdiNow p) * 2 + bit (s.sdiNow p)) * 2 ^ 11 + s.cwCount p c % 2 ^ 11) * 2 ^ 11 + s.lastInfo p c % 2 ^ 11
  let m := beBytes 4 hi ++ beBytes 3 lo ++ [0, 0, 0]
  m ++ beBytes 2 (crc16 m)

/-- The payload symbol that carries the first information bit of a payload byte; information bits come first in a
codeword. -/
def State.symOf (s : State) (p : Port) (g : Grant) (off : Nat) : Nat :=
  let i := s.cwInfo p
  (off / i * s.cwCoded p + off % i * 8) / max 1 (s.symBits p g)

/-- Whether the modem must not transmit (R154), a thermal trip (R541) and an active boundary scan (R62) among the
reasons. -/
def State.txInhibited (s : State) (p : Port) : Bool :=
  s.bit (Pg.LINE p) LINE1.TX_CTRL_INHIBIT || s.bit Pg.MON MON.THERM_TRIPPED || s.scan

/-- Whether the capture armed is taken from a burst (R151): a data burst of its profile that its window does not
outrun. -/
def State.txmonTakes (s : State) (p : Port) (g : Grant) : Bool :=
  let b := Pg.LINE p
  s.bit b LINE2.TXMON_CAP_BUSY && (s.modem p).txmonBurst.isNone && g.isData
    && decide (g.bprof = s.get b LINE2.TXMON_CAP_PROFILE)
    && decide ((g.lead + s.get b LINE2.TXMON_CAP_OFFSET) * 2080 + 65536 ≤ g.len * 2080)

/-- A grant's burst as the transmit chain takes it, with the settings in force at its first sample (R146 to R148): the DPD bank
is the one that DPD_SEL names for its burst profile, profile 0 on robust loading (R214). -/
def State.txChain (s : State) (p : Port) (g : Grant) (payload : List Byte) : TxChain :=
  let b := Pg.LINE p
  let prof := if g.isData then g.bprof else 0
  let bank := s.get b LINE1.DPD_SEL / 2 ^ prof % 2
  let coef := fun (i : Nat) =>
    let o := 0x1100 + 0x100 * bank + 0x40 * prof + 4 * i
    (s.getSigned b ⟨o, 0, 16⟩, s.getSigned b ⟨o, 16, 16⟩)
  { gen1 := s.gen1 p, lead := g.lead, npre := g.npre, len := g.len, adv := g.adv, hold := g.hold
    header := s.burstHeader p g, payload := payload
    load := if s.gen1 p then [] else (List.range 900).map (fun i => (i + 24, if g.isData then s.loadAt p (8 + g.bprof) 1 (i + 24) else 1))
    mask := if s.bit b LINE1.TX_CTRL_MASK_EN && !s.gen1 p then some ((List.range 900).map (fun i => s.loadAt p 12 1 (i + 24))) else none
    taps := if s.bit b LINE1.TX_CTRL_FIR_EN then some ((List.range 64).map (fun i => s.getSigned b ⟨0x1400 + 4 * i, 0, 16⟩)) else none
    coefs := if s.bit b LINE1.TX_CTRL_DPD_EN then some ((List.range 15).map coef) else none }

/-- BURST_START (R152, R154, R208, R209, R214, R219, R294): LA_BEN is asserted, BEN_ADV DAC samples before S0; `phase` places
that instant in the present `ck_time` cycle, in DAC samples. -/
def execBurstStart (p : Port) (phase : Fin 128) (s : State) : Host.Outcome State Fault Refusal :=
  .next (
    let u := s.up p
    match u.burst, u.drawn with
    | none, b :: bs =>
      let s := s.setUp p { u with drawn := bs }
      if s.txInhibited p || s.lineLost p then
        s.lostBurst p LFR1.BURST_INHIBITED b
      else
        let g := b.grant
        let move := s.getSigned Pg.TIME (TIME0.PORT_TX_DELAY p.num)
        let stamp := fun (off : Nat) =>
          stampMove ((s.stampTx phase + g.adv * 2 ^ 34 + g.payloadAt + s.symOf p g off * (65 * 2 ^ 39)) % clockMod) move
        let chain := s.txChain p g b.payload
        let b := { b with stamps := b.marks.map (fun x => (x.1, x.2.1, stamp x.2.2)), chain := some chain }
        let s := if s.rdiNow p then s.inc (Pg.LFR p) LFR1.RDI_BURSTS else s
        let s := if s.txmonTakes p g then
            s.setModem p { s.modem p with txmonBurst := some (g.s0.toNat / 8320000, g.s0 + (g.lead * 2080 : Nat), g.bprof,
              s.get (Pg.LINE p) LINE2.TXMON_CAP_OFFSET, chain) }
          else s
        let s := (s.emit (.burst p.num g.s0.toNat chain)).setPin (Pin.ben p) true
        s.setUp p { s.up p with burst := some b }
    | _, _ => s)

/-- A frame whose last byte has been sent (R294, R426, R427). -/
def State.frameSent (s : State) (p : Port) (u : UpFrame) : State :=
  if u.lost then s.lostFrame u
  else
    match u.src with
    | .fw _ => s
    | .queued _ _ f =>
      let s := (s.freePkt f.c.pkt).pktDone f.c.pkt f.sentStatus false
      match u.stamp with
      | some x => s.tsqPush p.num x.1 x.2
      | none => s

/-- The stamps of a burst that has been sent kept with their frames (R294). -/
def keepStamps (stamps : List (Nat × Nat × Nat)) (us : List UpFrame) : List UpFrame :=
  us.map (fun u =>
    match stamps.find? (fun x => decide (x.1 = u.id)) with
    | some x => { u with stamp := some x.2 }
    | none => u)

/-- The counters of a burst completed (R226). -/
def State.countBurst (s : State) (p : Port) (b : Burst) : State :=
  let r := Pg.LFR p
  let s := ((s.add64 r LFR1.BURSTS_LO 1).add64 r LFR1.PAYLOAD_BYTES_LO b.frameBytes).add64 r LFR1.FRAMES_LO b.frames
  let s := s.addCnt r LFR1.FRAGMENTS b.fragments
  let s := if b.grant.isData && b.grant.report then s.inc r LFR1.REPORTS else s
  if b.grant.mgmt then s.inc r (if b.mgmtMsg.isSome then LFR1.MGMT_SENT else LFR1.MGMT_EMPTY) else s

/-- Clock recovery in FREE once a port that leaves RUNNING has no burst in progress (R128, R210). -/
def State.lineSettle (s : State) (p : Port) : State :=
  if s.fnIs (.line p) .bindingOff && !(s.rg p).leaving && (s.up p).burst.isNone then s.cdrToFree p (decide (s.cdr p = cdrLocked))
  else s

/-- The port leaves RUNNING (R128, R210, R239): the store emptied, the registration reset with the actions of LISTEN, and
clock recovery in FREE; on bind-off once the burst in progress has completed. -/
def State.lineLeaves (s : State) (p : Port) : State :=
  let s := s.discardGrants p LFR1.GRANT_NOT_PERMITTED
  let s := (s.regEnter p RegSt.down)
  if s.fnIs (.line p) .bindingOff then s.lineSettle p else s.cdrToFree p (decide (s.cdr p = cdrLocked))

/-- What waited for LEAVE proceeds (R239). -/
def State.leaveMove (s : State) (p : Port) : State :=
  let r := s.rg p
  if !r.leaving then s
  else
    let s := (s.stopTimer (Tm.leave p)).setRg p { r with leaving := false, bindOff := false }
    if r.bindOff then s.lineLeaves p
    else if s.inWork p || decide (s.regSt p = RegSt.hold) then s.regEnter p RegSt.listen
    else s

/-- LEAVE has been sent, or its wait is over (R239). -/
def State.leaveProceed (s : State) (p : Port) : State := s.orDue p .leave (fun s => s.leaveMove p)

/-- The message of a burst completed taken off its queue (R222, R236, R240). -/
def State.mgmtDone (s : State) (p : Port) (b : Burst) : State :=
  match b.mgmtMsg with
  | none => s
  | some m =>
    if b.grant.discovery then
      let s := s.inc (Pg.LFR p) LFR1.ANNOUNCES
      if (s.up p).announce.isSome then s.newAnnounce p else s
    else if b.grant.ranging then (if (s.up p).rangingResp.isSome then s.newRangingResp p else s)
    else
      let s := s.setUp p { s.up p with mgmtQ := (s.up p).mgmtQ.erase m }
      if msgField m 0 1 = 0x86 then s.leaveProceed p else s

/-- BURST_COMPLETE (R149, R152, R222, R226, R240, R294, R427). -/
def execBurstComplete (p : Port) (order : Nat) (s : State) : Host.Outcome State Fault Refusal :=
  .next (
    match (s.up p).burst with
    | none => s
    | some b =>
      if b.grant.order ≠ order then s else
      let u := s.up p
      let s := s.setUp p { u with
        burst := none
        open_ := u.open_.map (fun x => (x.1, x.2.map (fun f => (keepStamps b.stamps [f]).headD f)))
        drawn := u.drawn.map (fun d => { d with done := keepStamps b.stamps d.done }) }
      let clipped := (b.chain.map (fun t => t.clips t.samples)).getD 0
      let s := ((s.setPin (Pin.ben p) false).addCnt (Pg.LINE p) LINE3.DAC_CLIP clipped).countBurst p b
      let s := (keepStamps b.stamps b.done).foldl (fun s f => s.frameSent p f) s
      (s.mgmtDone p b).lineSettle p)

end Sys2Proof.Machine
end

