-- ==== Sys2Proof/Machine/LineMgmt.lean ====
section
/-!
DEFINITION. Machine/LineMgmt.lean: the management messages of a line port and its registration (R227 to R251, R260), and
the mailbox commands LINE_CONFIG, LINE_CAST_ON, LINE_STATUS and LINE_MUTE.
-/

namespace Sys2Proof.Machine

/-! ### Requests and their answers (R229 to R231) -/

/-- STATUS of an ACK (R233). -/
def ackOk : Nat := 0
def ackRefused : Nat := 1
def ackMalformed : Nat := 2

/-- A message taken off those handed to firmware. -/
def State.takeMgmt (s : State) (p : Port) (m : List Byte) : State :=
  s.setDown p { s.down p with mgmtIn := (s.down p).mgmtIn.erase m }

/-- An answer sent; an empty one stands for an answer not given yet. -/
def State.sendAnswer (s : State) (p : Port) (tunnel : Bool) (a : List Byte) : State :=
  if a = [] then s else if tunnel then s.queueTunnel p a else s.queueShort p a

/-- A request answered once it has been acted on: the answer is kept for its repetitions (R231). -/
def State.answer (s : State) (p : Port) (m : List Byte) (tunnel : Bool) (a : List Byte) : State :=
  let r := s.rg p
  (s.setRg p { r with lastReq := SMap.set (fun _ => none) r.lastReq (msgField m 0 1) (some (msgField m 1 1, tunnel, a)) }).sendAnswer
    p tunnel a

/-- The upstream ACK to a request, built. -/
def State.buildAck (s : State) (p : Port) (m : List Byte) (status : Nat) : List Byte × State :=
  s.buildShort p 0x83 [m.getD 0 0, m.getD 1 0, BitVec.ofNat 8 status]

/-- An ACK OK to a request acted on, and an ACK to one that is not. -/
def State.ackDone (s : State) (p : Port) (m : List Byte) : State :=
  let a := s.buildAck p m ackOk
  a.2.answer p m false a.1
def State.ackNo (s : State) (p : Port) (m : List Byte) (status : Nat) : State :=
  let a := s.buildAck p m status
  a.2.queueShort p a.1

/-- A request: the last one of its TYPE that was acted on gets its answer again (R231), any other one is taken. -/
def State.request (s : State) (p : Port) (m : List Byte) (act : State → State) : State :=
  match SMap.get (fun _ => none) (s.rg p).lastReq (msgField m 0 1) with
  | some (seq, tunnel, a) => if seq = msgField m 1 1 then s.sendAnswer p tunnel a else act s
  | none => act s

/-- Whether a short message carries a SERIAL (R233), and whether it lets the message through (R229). -/
def hasSerial (type : Nat) : Bool := decide (type = 2) || decide (9 ≤ type ∧ type ≤ 11)
def State.serialOk (s : State) (m : List Byte) : Bool :=
  let x := (m.drop 4).take 16
  !hasSerial (msgField m 0 1) || x.all (fun b => decide (b = 0)) || decide (x = s.serial)

/-- A message that was served before its command (R238) has no second effect; any other is served by `act`. -/
def State.servedOnce (s : State) (p : Port) (m : List Byte) (act : State → State) : State :=
  let r := s.rg p
  if r.early.contains m then s.setRg p { r with early := r.early.erase m } else act s

/-- A downstream short message of a TYPE (R229): `act` on one that firmware acts on.  While the port's Hook core moves it is
held, and served after the move (R83).  One of another TYPE waits for the command of that; one that is not 64 bytes long is
no whole message (R227). -/
def shortCmd (type : Nat) (p : Port) (m : List Byte) (act : State → State) (s : State) : Host.Outcome State Fault Refusal :=
  .next (
    if m.length ≠ 64 then s.inc (Pg.LFR p) LFR1.MGMT_ERR
    else if msgField m 0 1 ≠ type then s.shortIn p m
    else s.servedOnce p m (fun s => s.orDue p (.short m) (fun s =>
      let s := s.takeMgmt p m
      if !shortCrcOk m then s.inc (Pg.LFR p) LFR1.MGMT_ERR
      else if s.shortForUs p m && s.serialOk m && decide (s.regSt p ≠ RegSt.down) then act s
      else s)))

/-- A tunnel message without its frame CRC-32 received (R230, R232): kept for the command of its TYPE up to the end of its
body, or discarded and counted. -/
def State.tunnelIn (s : State) (p : Port) (m : List Byte) : State :=
  let len := msgField m 2 2
  let type := msgField m 0 1
  if m.length < 4 ∨ m.length - 4 < len ∨ type < 0x40 ∨ 0x43 < type then s.inc (Pg.LFR p) LFR1.MGMT_ERR
  else if decide (s.regSt p = RegSt.prove) || s.inWork p then
    s.setDown p { s.down p with mgmtIn := (s.down p).mgmtIn ++ [m.take (4 + len)] }
  else s

/-- A tunnel message of a TYPE: its header of 4 bytes and its body, what follows the body ignored (R230); held likewise while
the Hook core moves. -/
def tunnelCmd (type : Nat) (p : Port) (m : List Byte) (act : State → State) (s : State) : Host.Outcome State Fault Refusal :=
  .next (
    if m.length < 4 ∨ msgField m 0 1 ≠ type ∨ m.length - 4 < msgField m 2 2 then s.tunnelIn p m
    else s.servedOnce p m (fun s => s.orDue p (.tunnel m) (fun s =>
      let s := s.takeMgmt p m
      if decide (s.regSt p = RegSt.prove) || s.inWork p then act s else s)))

/-- Whether assignments are acted on: in PROVE and WORK. -/
def State.assigns (s : State) (p : Port) : Bool := decide (s.regSt p = RegSt.prove) || s.inWork p

/-- Whether the port is registered or on its way: ANNOUNCE to HOLD. -/
def State.pastListen (s : State) (p : Port) : Bool := decide (RegSt.announce ≤ s.regSt p) && decide (s.regSt p ≤ RegSt.hold)

/-! ### Line cast-on (R235 to R244) -/

/-- The larger of MIN_LEAD and the lead the BOSA calls for, at most 15 (R241). -/
def leadOf (p : Port) (m : List Byte) : Nat := min 15 (max (minLead m) (Config.bosaLead p.num))

/-- TREE_PARAMS (R235, R241). -/
def State.treeParams (s : State) (p : Port) (m : List Byte) : State :=
  let ml := minLead m
  let fresh := decide (s.align p = alLocked)
  let s := s.setRg p { s.rg p with params := some m, fresh := (s.rg p).fresh || fresh }
  let s := if 15 < ml then s.inc (Pg.LFR p) LFR1.MGMT_ERR else s
  let s := if s.pastListen p && decide ((s.rg p).lead < ml) then s.regListen p else s
  let s := if ml ≤ 15 then s.setRg p { s.rg p with lead := leadOf p m } else s
  s.regTry p
def execTreeParams (p : Port) (msg : List Byte) (s : State) : Host.Outcome State Fault Refusal :=
  shortCmd 1 p msg (fun s => s.treeParams p msg) s

/-- ASSIGN_ADDR (R235, R236). -/
def State.assignAddr (s : State) (p : Port) (m : List Byte) : State :=
  let new := msgField m 0x14 2 % 4096
  let b := Pg.LFR p
  if s.regSt p ≠ RegSt.announce ∨ (m.drop 4).take 16 ≠ s.serial ∨ new = 0 ∨ new = 0xFFF then s
  else
    let id := msgField m 0x16 2 % 2 ^ 14
    let s := ((s.set b LFR0.US_EQD 0).wr (b + (LFR0.ADDR 0).off) (BitVec.ofNat 32 (2 ^ 31 + new))).set b LFR2.REG_STAT_ADDR new
    let s := s.wr (b + (LFR0.ALLOC 0).off) (BitVec.ofNat 32 (2 ^ 31 + id))
    let s := (s.setRg p { s.rg p with mgmtAlloc := id }).setUp p { s.up p with announce := none }
    s.regEnter p RegSt.range
def execAssignAddr (p : Port) (msg : List Byte) (s : State) : Host.Outcome State Fault Refusal :=
  shortCmd 2 p msg (fun s => s.assignAddr p msg) s

/-- RANGING_RESULT (R235, R242): EQD and RTD taken; RTD passed to the time servo with the FRAME_COUNT from which the new EQD
applies, that of the next grant map (R200). -/
def State.rangingResult (s : State) (p : Port) (m : List Byte) : State :=
  let st := s.regSt p
  let eqd := msgField m 4 4
  if 134217727 < eqd then s.ackNo p m ackMalformed
  else if !(decide (st = RegSt.range) || s.assigns p) then s.ackNo p m ackRefused
  else
    let rtd := msgField m 8 8 % 2 ^ 48
    let s := (s.set (Pg.LFR p) LFR0.US_EQD eqd).setRg p { s.rg p with rtd := some rtd }
    let s := ((s.setTport p { s.tport p with rtd := some rtd, rtdFrame := (s.down p).count + 1 }).gaugeRtd p rtd).ackDone p m
    if st = RegSt.range then
      s.regEnter p (if (s.rg p).proveRequired || (s.rg p).keysRequired then RegSt.prove else RegSt.work)
    else s
def execRangingResult (p : Port) (msg : List Byte) (s : State) : Host.Outcome State Fault Refusal :=
  shortCmd 3 p msg (fun s => s.request p msg (fun s => s.rangingResult p msg)) s

/-- Whether the identity key signs for line ports: not while debug is unlocked (R244). -/
def State.identitySigns (s : State) : Bool := !s.bit Pg.SEC SEC0.PROTECT_DEBUG_ACTIVE

/-- An identity signature over the SHAKE256 digest of a run of bytes. -/
def State.identitySign (s : State) (bs : List Byte) : List Byte := Crypto.ed448Sign s.identitySeed (Crypto.shake256 64 bs)

/-- HE_ID of the last TREE_PARAMS. -/
def Reg.heId (r : Reg) : List Byte := (r.params.map (fun m => (m.drop 4).take 8)).getD (List.replicate 8 0)

/-- A tunnel message of firmware built with its next SEQ. -/
def State.buildTunnel (s : State) (p : Port) (type : Nat) (body : List Byte) : List Byte × State :=
  let n := s.nextSeq p type
  (tunnelMsg type n.1 body, n.2)

/-- PROVE_CHALLENGE (R234, R244): PROVE_RESPONSE is sent in PROVE and WORK. -/
def State.proveChallenge (s : State) (p : Port) (m : List Byte) : State :=
  if s.assigns p && s.identitySigns then
    let nonce := (m.drop 4).take 32
    let tree := beBytes 2 (s.get (Pg.LFR p) LFR0.TREE)
    let sig := s.identitySign (nonce ++ (s.rg p).heId ++ s.serial ++ tree ++ beBytes 2 (s.lineAddr p))
    let chain := s.chain.getD []
    let t := s.buildTunnel p 0xC0 (sig ++ beBytes 2 chain.length ++ chain)
    t.2.answer p m true t.1
  else s
def execProveChallenge (p : Port) (msg : List Byte) (s : State) : Host.Outcome State Fault Refusal :=
  shortCmd 4 p msg (fun s => s.request p msg (fun s => s.proveChallenge p msg)) s

/-- PROVE left for WORK once what the tree requires is there (R235). -/
def State.proveCheck (s : State) (p : Port) : State :=
  let r := s.rg p
  if decide (s.regSt p = RegSt.prove) && (r.proveOk || !r.proveRequired) && (r.keyed || !r.keysRequired) then
    s.regEnter p RegSt.work
  else s

/-- PROVE_RESULT (R231, R235): outside PROVE it is answered and changes nothing. -/
def State.proveResult (s : State) (p : Port) (m : List Byte) : State :=
  if s.regSt p = RegSt.prove then
    let s := s.ackDone p m
    if msgField m 4 1 = 0 then (s.setRg p { s.rg p with proveOk := true }).proveCheck p
    else ((s.inc (Pg.LFR p) LFR1.PROVE_FAIL).setRg p { s.rg p with enable := false }).regListen p
  else if s.inWork p then s.ackDone p m
  else s.ackNo p m ackRefused
def execProveResult (p : Port) (msg : List Byte) (s : State) : Host.Outcome State Fault Refusal :=
  shortCmd 5 p msg (fun s => s.request p msg (fun s => s.proveResult p msg)) s

/-- DEREGISTER (R235). -/
def execDeregister (p : Port) (msg : List Byte) (s : State) : Host.Outcome State Fault Refusal :=
  shortCmd 11 p msg (fun s => if s.pastListen p then s.regListen p else s) s

/-! ### Profiles and allocations (R245 to R248) -/

/-- A profile enabled, the one assigned before it kept for 64 line frames (R246). -/
def State.assignProfile (s : State) (p : Port) (prof : Nat) : State :=
  let r := s.rg p
  let old := r.assigned
  let b := Pg.LFR p
  let keep := r.retire.filter (fun x => decide (x.1 ≠ prof))
  let s := s.set b LFR0.DS_CTRL_PROF_EN (s.get b LFR0.DS_CTRL_PROF_EN ||| 2 ^ prof)
  s.setRg p { s.rg p with assigned := prof, retire := if old = 0 ∨ old = prof then keep else keep ++ [(old, 64)] }

/-- PROFILE_ASSIGN (R246). -/
def State.profileAssign (s : State) (p : Port) (m : List Byte) : State :=
  let prof := msgField m 4 1
  let gen := msgField m 5 1
  let b := Pg.LFR p
  if prof = 0 ∨ 7 < prof then s.ackNo p m ackMalformed
  else if !s.assigns p then s.ackNo p m ackRefused
  else if s.bit b (LFR0.PROF_GEN_CUR_VALID (prof - 1)) && decide (s.get b (LFR0.PROF_GEN_CURRENT (prof - 1)) = gen) then
    (s.assignProfile p prof).ackDone p m
  else
    match s.heldDesc p prof gen with
    | some d => ((s.stageDesc p d).assignProfile p prof).ackDone p m
    | none => s.ackNo p m ackRefused
def execProfileAssign (p : Port) (msg : List Byte) (s : State) : Host.Outcome State Fault Refusal :=
  shortCmd 6 p msg (fun s => s.request p msg (fun s => s.profileAssign p msg)) s

/-- PROFILE_RETIRE (R101, R246). -/
def execProfileRetire (p : Port) (s : State) : Host.Outcome State Fault Refusal :=
  let b := Pg.LFR p
  let ended := (s.rg p).retire.filter (fun x => decide (x.2 = 0))
  let en := ended.foldl (fun e x => e - (e &&& 2 ^ x.1)) (s.get b LFR0.DS_CTRL_PROF_EN)
  .next ((s.set b LFR0.DS_CTRL_PROF_EN en).setRg p { s.rg p with retire := (s.rg p).retire.filter (fun x => decide (x.2 ≠ 0)) })

/-- ALLOC_ASSIGN (R248). -/
def State.allocAssign (s : State) (p : Port) (m : List Byte) : State :=
  let slot := msgField m 4 1
  let id := msgField m 6 2 % 2 ^ 14
  let r := s.rg p
  if 63 < slot ∨ (slot = 0 ∧ id ≠ r.mgmtAlloc) then s.ackNo p m ackMalformed
  else if !s.assigns p then s.ackNo p m ackRefused
  else if msgField m 5 1 % 2 = 1 then
    let t := s.allocClear p slot
    (t.setRg p { t.rg p with assured := SMap.set (fun _ => (0, 0)) (t.rg p).assured slot (0, 0) }).ackDone p m
  else
    let t := s.wr (Pg.LFR p + (LFR0.ALLOC slot).off) (BitVec.ofNat 32 (2 ^ 31 + id))
    let rate := msgField m 8 4
    let v := if rate = 0 then (0, 0) else (rate, msgField m 0xC 2)
    (t.setRg p { t.rg p with assured := SMap.set (fun _ => (0, 0)) (t.rg p).assured slot v }).ackDone p m
def execAllocAssign (p : Port) (msg : List Byte) (s : State) : Host.Outcome State Fault Refusal :=
  shortCmd 7 p msg (fun s => s.request p msg (fun s => s.allocAssign p msg)) s

/-- Loading nibbles, the lower subcarrier in the high nibble (R234). -/
def nibbles (bs : List Byte) : List Nat := bs.flatMap (fun b => [b.toNat / 16, b.toNat % 16])

/-- DS_PROFILE_DESC (R100, R245). -/
def State.dsDesc (s : State) (p : Port) (m : List Byte) : State :=
  let prof := msgField m 4 1
  let gen := msgField m 5 1
  let load := nibbles ((m.drop 6).take 952)
  let b := Pg.LFR p
  if prof = 0 ∨ 7 < prof ∨ m.length < 958 then s.ackNo p m ackMalformed
  else if load.any (fun x => decide (10 < x)) || decide (9520 < load.sum) then s.ackNo p m ackRefused
  else
    let d : Desc := ⟨prof, gen, load, none⟩
    let r := s.rg p
    let t := s.setRg p { r with held := r.held.filter (fun x => !(decide (x.profile = prof) && decide (x.gen = gen))) ++ [d] }
    let i := prof - 1
    let announced := decide (s.get b LFR0.DS_CTRL_PROF_EN / 2 ^ prof % 2 = 1)
      && decide (s.get b (LFR0.PROF_GEN_COUNTDOWN i) ≠ 0) && decide (s.get b (LFR0.PROF_GEN_ANNOUNCED i) = gen)
    (if announced then t.stageDesc p d else t).ackDone p m
def execDsProfileDesc (p : Port) (msg : List Byte) (s : State) : Host.Outcome State Fault Refusal :=
  tunnelCmd 0x40 p msg (fun s => s.request p msg (fun s => s.dsDesc p msg)) s

/-- US_PROFILE_DESC (R20, R247): steps 1 and 2; the ACK follows when it is applied. -/
def State.usDesc (s : State) (p : Port) (m : List Byte) : State :=
  let prof := msgField m 4 1
  let mask := msgField m 5 1
  let load := nibbles ((m.drop 6).take 450)
  if 3 < prof ∨ 1 < mask ∨ m.length < 456 + 900 * mask then s.ackNo p m ackMalformed
  else if load.any (fun x => decide (8 < x)) || decide (3380 < load.sum) then s.ackNo p m ackRefused
  else
    let codes := if mask = 1 then some (((m.drop 0x1C8).take 900).map (fun x => x.toNat)) else none
    let s := s.set (Pg.LFR p) (LFR0.US_BPROF_VALID prof) 0
    (s.setRg p { s.rg p with usPend := (s.rg p).usPend ++ [(⟨prof, 0, load, codes⟩, msgField m 1 1)] }).answer p m false []
def execUsProfileDesc (p : Port) (msg : List Byte) (s : State) : Host.Outcome State Fault Refusal :=
  tunnelCmd 0x41 p msg (fun s => s.request p msg (fun s => s.usDesc p msg)) s

/-- US_PROFILE_APPLY (R247): steps 3 to 5, of the oldest descriptor that need not wait. -/
def execUsProfileApply (p : Port) (s : State) : Host.Outcome State Fault Refusal :=
  let r := s.rg p
  .next (
    match r.usPend.find? (fun x => !s.profNamed p x.1.profile) with
    | none => s
    | some x =>
      let d := x.1
      let s := s.setRg p { r with usPend := r.usPend.erase x }
      let s := s.loadPut p (8 + d.profile) 1 24 d.load
      let s := match d.mask with
        | some codes => s.loadPut p 0xC 1 24 codes
        | none => s
      (s.set (Pg.LFR p) (LFR0.US_BPROF_VALID d.profile) 1).ackDone p [0x41, BitVec.ofNat 8 x.2])

/-- DISTORTION_REPORT (R144, R232, R234): the latest of each burst profile is kept, and the upstream loading it leads to is
proposed unless it was proposed last. -/
def execDistortionReport (p : Port) (msg : List Byte) (s : State) : Host.Outcome State Fault Refusal :=
  tunnelCmd 0x42 p msg (fun s =>
    let r := s.rg p
    if 3 < msgField msg 4 1 ∨ msg.length < 906 then s
    else
      let errors := (msg.drop 6).take 900
      let load := proposal 8 3380 r.margin ((List.range 900).map (Config.upstreamSnr errors))
      let s := s.setRg p { r with distortion := SMap.set (fun _ => []) r.distortion (msgField msg 4 1) errors }
      let m := s.modem p
      if m.proposed.2 = load then s
      else (s.setModem p { m with proposed := (m.proposed.1, load) }).sendProposal p true load) s

/-! ### Line keys (R249, R250) -/

/-- The key a KEY_OFFER leads to (R249): the secret, then its digest with the tree, the address and the index. -/
def State.offerRoot (s : State) (p : Port) (priv pub : List Byte) (idx : Nat) : List Byte :=
  Crypto.shake256 32 (Crypto.x448 priv pub ++ [0x4C, 0x42, 0x4C, 0x4B] ++ beBytes 2 (s.get (Pg.LFR p) LFR0.TREE)
    ++ beBytes 2 (s.lineAddr p) ++ [BitVec.ofNat 8 idx])

/-- KEY_OFFER (R244, R249): not answered while the DRBG is in error or the identity key does not sign. -/
def State.keyOffer (s : State) (p : Port) (m : List Byte) : State :=
  let idx := msgField m 4 1
  let pub := (m.drop 5).take 56
  let nonce := (m.drop 0x3D).take 32
  if s.bit Pg.SEC SEC0.RNG_STAT_DRBG_ERROR || !s.identitySigns || decide (1 < idx) || decide (m.length < 0x5D) then s
  else
    let priv := s.drbg 56
    let term := Crypto.x448 priv Crypto.x448Base
    let root := s.offerRoot p priv pub idx
    let s := (s.drbgTaken 56).installLineKey p idx (s.get (Pg.LFR p) LFR0.TREE) (s.lineAddr p) root
    let sig := s.identitySign (pub ++ term ++ nonce ++ [BitVec.ofNat 8 idx] ++ s.serial)
    let t := s.buildTunnel p 0xC1 ([BitVec.ofNat 8 idx] ++ term ++ sig)
    let s := (t.2.answer p m true t.1).inc (Pg.LFR p) LFR1.KEY_EXCHANGES
    ((s.setRg p { s.rg p with keyed := true }).set (Pg.LFR p) LFR2.REG_STAT_KEYED 1).proveCheck p
def execKeyOffer (p : Port) (msg : List Byte) (s : State) : Host.Outcome State Fault Refusal :=
  tunnelCmd 0x43 p msg (fun s => s.request p msg (fun s => s.keyOffer p msg)) s

/-- KEY_USE (R250): the switch itself comes with the draw of its frame. -/
def State.keyUseMsg (s : State) (p : Port) (m : List Byte) : State :=
  let idx := msgField m 4 1
  if 1 < idx then s.ackNo p m ackMalformed
  else if !s.assigns p || (s.lineKey p idx).up.isNone then s.ackNo p m ackRefused
  else (s.setRg p { s.rg p with keyUse := some (idx, msgField m 8 4) }).ackDone p m
def execKeyUse (p : Port) (msg : List Byte) (s : State) : Host.Outcome State Fault Refusal :=
  shortCmd 8 p msg (fun s => s.request p msg (fun s => s.keyUseMsg p msg)) s

/-! ### Mute (R251) -/

/-- The mute causes as `REG_STAT` shows them, and MUTE entered or left by them. -/
def State.applyMute (s : State) (p : Port) : State :=
  let r := s.rg p
  let s := (s.setBit (Pg.LFR p) LFR2.REG_STAT_MUTE_REMOTE r.muteRemote.isSome).setBit (Pg.LFR p) LFR2.REG_STAT_MUTE_LOCAL r.muteLocal
  let st := s.regSt p
  if st = RegSt.down then s
  else if r.muteRemote.isSome || r.muteLocal then (if st = RegSt.mute then s else s.regEnter p RegSt.mute)
  else if st = RegSt.mute then s.regEnter p RegSt.listen
  else s

/-- MUTE (R251): its ACK waits for a burst, which the mute does not allow. -/
def execMsgMute (p : Port) (msg : List Byte) (s : State) : Host.Outcome State Fault Refusal :=
  shortCmd 9 p msg (fun s => s.request p msg (fun s =>
    let s := s.ackDone p msg
    (s.setRg p { s.rg p with muteRemote := some (s.get (Pg.LFR p) LFR0.TREE) }).applyMute p)) s

/-- UNMUTE (R251): refused from another tree. -/
def execMsgUnmute (p : Port) (msg : List Byte) (s : State) : Host.Outcome State Fault Refusal :=
  shortCmd 10 p msg (fun s => s.request p msg (fun s =>
    let r := s.rg p
    if r.muteRemote.isSome ∧ r.muteRemote ≠ some (s.get (Pg.LFR p) LFR0.TREE) then s.ackNo p msg ackRefused
    else ((s.ackDone p msg).setRg p { (s.ackDone p msg).rg p with muteRemote := none }).applyMute p)) s

/-! ### Line doze (R260) and messages that firmware repeats (R231) -/

/-- An unsolicited message answered: no longer repeated. -/
def State.unsolDone (s : State) (p : Port) (type seq : Nat) : State :=
  let r := s.rg p
  let left := r.unsol.filter (fun u => !(decide (u.type = type) && decide (u.seq = seq)))
  let s := s.setRg p { r with unsol := left }
  if left = [] then s.stopTimer (Tm.resend p) else s

/-- The assured rates restored: the request for line doze is over. -/
def State.dozeOver (s : State) (p : Port) : State := s.setRg p { s.rg p with dozeAsked := false, dozeEnd := false }

/-- Line doze entered or left, with `REG_STAT.DOZE`. -/
def State.setDoze (s : State) (p : Port) (on : Bool) : State :=
  (s.setRg p { s.rg p with doze := on }).setBit (Pg.LFR p) LFR2.REG_STAT_DOZE on

/-- DOZE (R231, R260). -/
def State.dozeMsg (s : State) (p : Port) (m : List Byte) : State :=
  let r := s.rg p
  let action := msgField m 4 1
  let mine := r.unsol.any (fun u => decide (u.type = 0x84) && decide (u.seq = msgField m 5 1))
  let s := if mine then s.unsolDone p 0x84 (msgField m 5 1) else s
  if 2 < action then s.ackNo p m ackMalformed
  else if action = 2 then ((s.setDoze p false).dozeOver p).ackDone p m
  else if !mine then s.ackNo p m ackRefused
  else if r.dozeEnd ∨ action = 1 then (s.dozeOver p).ackDone p m
  else
    let s := (s.dozeOver p).setDoze p (s.inWork p)
    (s.setRg p { s.rg p with dozePeriod := msgField m 6 2 }).ackDone p m
def execMsgDoze (p : Port) (msg : List Byte) (s : State) : Host.Outcome State Fault Refusal :=
  shortCmd 12 p msg (fun s => s.request p msg (fun s => s.dozeMsg p msg)) s

/-- ACK (R231, R260): it answers a PROFILE_PROPOSAL and an SR_REPORT; that of a DOZE_REQUEST END restores the assured rates. -/
def execMsgAck (p : Port) (msg : List Byte) (s : State) : Host.Outcome State Fault Refusal :=
  shortCmd 13 p msg (fun s =>
    let type := msgField msg 4 1
    let seq := msgField msg 5 1
    let r := s.rg p
    if type ≠ 0x84 then s.unsolDone p type seq
    else if r.dozeEnd = true ∧ seq = r.dozeSeq then s.setRg p { r with dozeAsked := false }
    else s) s

/-- UNSOLICITED_RESEND (R231): each message is sent again, and given up after 8 sends. -/
def execUnsolicitedResend (p : Port) (s : State) : Host.Outcome State Fault Refusal :=
  .next (
    if !s.running (Tm.resend p) then s
    else
      let r := s.rg p
      let ended := r.unsol.filter (fun u => decide (8 ≤ u.sends))
      let left := r.unsol.filter (fun u => decide (u.sends < 8))
      let s := s.setRg p { r with unsol := left.map (fun u => { u with sends := u.sends + 1 }) }
      let s := left.foldl (fun s u => s.sendAnswer p u.tunnel u.msg) s
      let s := s.addCnt (Pg.LFR p) LFR1.MGMT_NOACK ended.length
      let s := if ended.any (fun u => decide (u.type = 0x84)) then s.dozeOver p else s
      if left = [] then s.stopTimer (Tm.resend p) else s.startTimer (Tm.resend p) (50 * ms))

/-- Whether any allocation of a port has a backlog: frames queued, or an open fragment. -/
def State.portBacklog (s : State) (p : Port) : Bool :=
  (List.range 64).any (fun i =>
    !(s.allocQueued (64 * p.num + i)).isEmpty || !(s.allocLanes (64 * p.num + i)).isEmpty
      || (SMap.get (fun _ => none) (s.up p).open_ i).isSome)

/-- A DOZE_REQUEST sent, to enter or, in the next management slot, to end; the assured rates are withdrawn until it is
over. -/
def State.dozeRequest (s : State) (p : Port) (fin : Bool) : State :=
  let n := (s.nextSeq p 0x84).1
  (s.setRg p { s.rg p with dozeAsked := true, dozeEnd := fin, dozeSeq := n }).sendUnsol p 0x84 fin [if fin then 1 else 0]

/-- Firmware asks for line doze (R260): in WORK, with no committed backlog on the port's allocations. -/
def State.askDoze (s : State) (p : Port) : State :=
  let r := s.rg p
  let q := (List.range 64).any (fun i => (s.egressesAt (64 * p.num + i)).any (fun e => (List.range 8).any (fun c =>
    decide (s.backlog e c ≠ 0))))
  if s.inWork p && !r.doze && !r.dozeAsked && !q && !r.unsol.any (fun u => decide (u.type = 0x84)) then s.dozeRequest p false
  else s

/-- LINE_DOZE_BACKLOG (R260). -/
def execLineDozeBacklog (p : Port) (s : State) : Host.Outcome State Fault Refusal :=
  .next (if (s.rg p).doze && s.portBacklog p then (s.setDoze p false).dozeRequest p true else s)

/-! ### Tunnel messages (R230, R232) -/

/-- TUNNEL_MESSAGE (R230, R232): kept for the command of its type, or discarded. -/
def execTunnelMessage (p : Port) (s : State) : Host.Outcome State Fault Refusal :=
  .next (
    let d := s.down p
    match d.tunnelIn with
    | [] => s
    | (port, pl) :: rest =>
      let s := s.setDown p { d with tunnelIn := rest }
      if port = 0 then s.tunnelIn p (pl.take (pl.length - 4)) else s)

/-! ### The order of events within a line frame (R238) -/

/-- A message served by the row of its TYPE. -/
def State.serveShort (s : State) (p : Port) (m : List Byte) : State :=
  nextOr s (match msgField m 0 1 with
    | 1 => execTreeParams p m s
    | 2 => execAssignAddr p m s
    | 3 => execRangingResult p m s
    | 4 => execProveChallenge p m s
    | 5 => execProveResult p m s
    | 6 => execProfileAssign p m s
    | 7 => execAllocAssign p m s
    | 8 => execKeyUse p m s
    | 9 => execMsgMute p m s
    | 10 => execMsgUnmute p m s
    | 11 => execDeregister p m s
    | 12 => execMsgDoze p m s
    | 13 => execMsgAck p m s
    | _ => .next s)
def State.serveTunnel (s : State) (p : Port) (m : List Byte) : State :=
  nextOr s (match msgField m 0 1 with
    | 0x40 => execDsProfileDesc p m s
    | 0x41 => execUsProfileDesc p m s
    | 0x42 => execDistortionReport p m s
    | 0x43 => execKeyOffer p m s
    | _ => .next s)

/-- The messages that the Hook core has and has not handled yet, handled now: within a line frame they come before timer
expiries and mailbox commands (R238). -/
def State.serveWaiting (s : State) (p : Port) : State :=
  (s.down p).mgmtIn.foldl (fun s m =>
    let s := if msgField m 0 1 < 0x40 then s.serveShort p m else s.serveTunnel p m
    s.setRg p { s.rg p with early := (s.rg p).early ++ [m] }) s

/-! ### Registration timers (R235, R237, R239) -/

/-- A timer that runs out; one that does not run says nothing. -/
def State.timerOut (s : State) (t : Nat) (act : State → State) : State := if s.running t then act (s.stopTimer t) else s

/-- HOLD left when its time is over (R237, R264). -/
def State.holdMove (s : State) (p : Port) : State :=
  if s.regSt p = RegSt.hold then (s.inc (Pg.LFR p) LFR1.HOLD_EXPIRED).regEnter p RegSt.listen else s

/-- T_ANNOUNCE, T_RANGE, T_PROVE and T_HOLD (R235, R237). -/
def execTAnnounce (p : Port) (s : State) : Host.Outcome State Fault Refusal :=
  .next ((s.serveWaiting p).timerOut (Tm.announce p) (fun s => s.regAbort p))
def execTRange (p : Port) (s : State) : Host.Outcome State Fault Refusal :=
  .next ((s.serveWaiting p).timerOut (Tm.range p) (fun s => s.regAbort p))
def execTProve (p : Port) (s : State) : Host.Outcome State Fault Refusal :=
  .next ((s.serveWaiting p).timerOut (Tm.prove p) (fun s => s.regAbort p))
def execTHold (p : Port) (s : State) : Host.Outcome State Fault Refusal :=
  .next ((s.serveWaiting p).timerOut (Tm.hold p) (fun s => s.orDue p .holdExpiry (fun s => s.holdMove p)))

/-- HOLD left for WORK when the defects have cleared; TREE_ID is compared with that of the line cast-on. -/
def State.clearMove (s : State) (p : Port) : State :=
  if decide (s.regSt p = RegSt.hold) && !s.lineLost p && decide (s.get (Pg.LFR p) LFR0.TREE = (s.rg p).tree) then
    s.regEnter p RegSt.work
  else s

/-- REG_DEFECT_CLEAR (R235). -/
def execRegDefectClear (p : Port) (s : State) : Host.Outcome State Fault Refusal :=
  .next (s.orDue p .defectClear (fun s => s.clearMove p))

/-- LEAVE queued for the next management slot (R239). -/
def State.sendLeave (s : State) (p : Port) (bindOff : Bool) : State :=
  let r := s.rg p
  if r.leaving then s.setRg p { r with bindOff := r.bindOff || bindOff }
  else
    let m := s.buildShort p 0x86 []
    let s := m.2.setUp p { m.2.up p with mgmtQ := m.1 :: (m.2.up p).mgmtQ }
    (s.setRg p { s.rg p with leaving := true, bindOff := bindOff }).startTimer (Tm.leave p) (10 * ms)

/-- LEAVE_SLOT_TIMEOUT (R239): the LEAVE not sent is given up. -/
def execLeaveSlotTimeout (p : Port) (s : State) : Host.Outcome State Fault Refusal :=
  .next (s.timerOut (Tm.leave p) (fun s =>
    (s.setUp p { s.up p with mgmtQ := (s.up p).mgmtQ.filter (fun m => decide (msgField m 0 1 ≠ 0x86)) }).leaveProceed p))

/-- What bind-off starts with on a line port (R239): from WORK, LEAVE first. -/
def State.lineStop (s : State) (p : Port) : State := if s.inWork p then s.sendLeave p true else s.lineLeaves p

/-! ### Mailbox commands (R251, R261, R262) -/

/-- PORT of a line command. -/
def argPort (args : List Word) : Port := Port.ofNum (argWord args 1 % 2)

/-- LINE_CONFIG (R237, R261). -/
def mbxLineConfig (args : List Word) (s : State) : Nat × List Word × State :=
  let p := argPort args
  let w := argWord args 1
  let gen := decide (w / 2 % 2 = 1)
  if gen && !s.feat 14 then (Sts.notPermitted, [], s)
  else if gen ≠ s.gen1 p ∧ s.fnIs (.line p) .off = false then (Sts.busy, [], s)
  else
    let s := s.setBit (Pg.LFR p) LFR0.DS_CTRL_GEN gen
    (Sts.ok, [], s.setRg p { s.rg p with margin := w / 2 ^ 8 % 256, holdMs := argWord args 2 % 2 ^ 16 })

/-- Line cast-on withdrawn (R239): from WORK, LEAVE first. -/
def State.castOffMove (s : State) (p : Port) : State :=
  if s.inWork p then s.sendLeave p false else if s.pastListen p then s.regListen p else s

/-- LINE_CAST_ON (R235, R239, R252, R261). -/
def mbxLineCastOn (args : List Word) (s : State) : Nat × List Word × State :=
  let p := argPort args
  let en := decide (argWord args 1 / 2 ^ 8 % 2 = 1)
  if !s.dualPermits p then (Sts.notPermitted, [], s)
  else
    let s := s.serveWaiting p
    let s := s.setRg p { s.rg p with enable := en }
    (Sts.ok, [],
      if en then s.regTry p
      else s.orDue p .castOff (fun s => s.castOffMove p))

/-- LINE_STATUS (R262). -/
def mbxLineStatus (args : List Word) (s : State) : Nat × List Word × State :=
  let p := argPort args
  let b := Pg.LFR p
  let r := s.rg p
  if argWord args 1 / 2 ^ 8 % 2 = 1 then
    (Sts.ok, wordsOf ((List.range 124).map (fun k => Config.bosaByte p.num (argWord args 2 % 256 + k))), s)
  else
    let bit := fun (F : Fld) (n : Nat) => s.get b F * 2 ^ n
    let w1 := s.regSt p + bit LFR2.REG_STAT_DOZE 3 + bit LFR2.REG_STAT_KEYED 4 + (if r.muteRemote.isSome then 2 ^ 5 else 0)
      + (if r.muteLocal then 2 ^ 6 else 0) + bit LFR2.REG_STAT_WORKING 7 + bit LFR2.REG_STAT_ADDR 16
    let rtd := r.rtd.getD 0
    let class_ := (r.params.map (fun m => msgField m 0x0F 1)).getD 0 % 16
    let w5 := s.get b LFR0.TREE + r.assigned % 8 * 2 ^ 16 + class_ * 2 ^ 20
    let w6 := r.sr0 % 256 * 2 ^ 8 + s.get b LFR0.SR_RX_SR1 + bit LFR2.REG_STAT_REQUEST 16
    let he := beNat r.heId
    (Sts.ok, [w1, s.get b LFR0.US_EQD, rtd % 2 ^ 32, rtd / 2 ^ 32 % 2 ^ 16, w5, w6, he % 2 ^ 32, he / 2 ^ 32].map
      (BitVec.ofNat 32), s)

/-- LINE_MUTE (R251, R261): channel 0 of the mailbox is PF0's. -/
def mbxLineMute (ch : Chan) (args : List Word) (s : State) : Nat × List Word × State :=
  let p := argPort args
  let w := argWord args 1
  let clear := decide (w / 2 ^ 9 % 2 = 1)
  if clear && decide (ch = .ch1) then (Sts.notPermitted, [], s)
  else
    let s := s.serveWaiting p
    let r := s.rg p
    (Sts.ok, [], (s.setRg p { r with muteLocal := decide (w / 2 ^ 8 % 2 = 1),
                                     muteRemote := if clear then none else r.muteRemote }).orDue p .mute
      (fun s => s.applyMute p))

/-! ### What waited for the move of the port's Hook core (R83, R84) -/

/-- One thing that waited, done. -/
def State.lineDue (s : State) (p : Port) : LineDue → State
  | .short m => s.serveShort p m
  | .tunnel m => s.serveTunnel p m
  | .tryAnnounce => s.tryMove p
  | .defectLoss => s.lossMove p
  | .defectClear => s.clearMove p
  | .treeChange => s.treeMove p
  | .holdExpiry => s.holdMove p
  | .mute => s.applyMute p
  | .castOff => s.castOffMove p
  | .leave => s.leaveMove p
  | .bind => s.lineStop p

/-- All that waited, in order. -/
def State.serveDue (s : State) (p : Port) : State :=
  let ds := (s.rg p).due
  ds.foldl (fun s k => s.lineDue p k) (s.setRg p { s.rg p with due := [] })

end Sys2Proof.Machine
end

