-- ==== Sys2Proof/Machine/Marker.lean ====
section
/-!
DEFINITION. Machine/Marker.lean: events, event records, event queues and routing (chapter 15), and the return to D0 of a
function (R432).
-/

namespace Sys2Proof.Machine

/-! ### Sources (R442, R443, R454) -/

/-- A source's event bit and its mask bit. -/
def State.evBit (s : State) (key : Nat) : Bool :=
  s.bit (key / 32 * 0x1000) ⟨HDR.PAGE_EVENT.off, key % 32, 1⟩
def State.evMask (s : State) (key : Nat) : Bool :=
  s.bit (key / 32 * 0x1000) ⟨HDR.PAGE_EVENT_MASK.off, key % 32, 1⟩

/-- Whether a raise of the present setting of an event bit has been made. -/
def State.isRaised (s : State) (key : Nat) : Bool := SMap.get (fun _ => false) s.marker.raised key

/-- The same, replaced. -/
def State.setRaised (s : State) (key : Nat) (b : Bool) : State :=
  { s with marker := { s.marker with raised := SMap.set (fun _ => false) s.marker.raised key b } }

/-- The pending record of a source, and the same replaced. -/
def State.pendRec (s : State) (key : Nat) : Option MRec := SMap.get (fun _ => none) s.marker.pend key
def State.setPendRec (s : State) (key : Nat) (r : Option MRec) : State :=
  { s with marker := { s.marker with pend := SMap.set (fun _ => none) s.marker.pend key r } }

/-- `STAT.HELD`, `STAT.WAITING`, `STAT.NO_TARGET` and `WAIT` brought up to date (R453, R455). -/
def State.markerStat (s : State) : State :=
  let b := Pg.MARK
  let m := s.marker
  let s := s.setBit b MARK0.STAT_HELD (s.bit b MARK0.CTRL && m.flight.isEmpty)
  let s := (s.set b MARK0.STAT_WAITING (min 4095 m.waiting.length)).setBit b MARK0.STAT_NO_TARGET !m.waiting.isEmpty
  match m.waiting with
  | [] => s.wr (b + MARK0.WAIT.off) 0
  | (r, g) :: _ => s.wr (b + MARK0.WAIT.off) (BitVec.ofNat 32 (g * 2 ^ 24 + r.key % 32 * 2 ^ 16 + r.key / 32))

/-- A source raised, when its event bit is 1, its mask bit 0 and this setting has not been raised (R442). -/
def State.raise (s : State) (key : Nat) (at_ : Nat) (replay : Bool) : State :=
  if s.evBit key && !s.evMask key && !s.isRaised key then (s.setRaised key true).setPendRec key (some ⟨key, at_, replay⟩) else s

/-- A pending or waiting record of a source withdrawn and counted (R443, R453). -/
def State.withdraw (s : State) (key : Nat) : State :=
  let b := Pg.MARK
  let s := if (s.pendRec key).isSome then (s.setPendRec key none).inc b MARK2.WITHDRAWN else s
  if s.marker.waiting.any (fun r => decide (r.1.key = key)) then
    ({ s with marker := { s.marker with waiting := s.marker.waiting.filter (fun r => decide (r.1.key ≠ key)) } } : State).inc b
      MARK2.WITHDRAWN |>.markerStat
  else s

/-- Whether the record of a source has been selected and is not committed. -/
def State.inFlight (s : State) (key : Nat) : Bool := s.marker.flight.any (fun r => decide (r.key = key))

/-- The bits set in a word. -/
def setBits (w : Word) : List Nat := (List.range 32).filter (fun k => w.getLsbD k)

/-- A write of a page's `PAGE_EVENT` (R443): bits written 1 are cleared, their records withdrawn, and the bits may be set
and raised afresh. -/
def State.eventWrite (s : State) (page : Nat) (val : Word) : State :=
  (setBits (val &&& 0xFFFFFF0F)).foldl (fun s k =>
    let key := page / 0x1000 * 32 + k
    ((s.withdraw key).setRaised key false).set page ⟨HDR.PAGE_EVENT.off, k, 1⟩ 0) s

/-- A write of a page's `PAGE_EVENT_MASK` (R443, R454): a record not yet selected is withdrawn and leaves its setting
unraised. -/
def State.maskWrite (s : State) (page : Nat) (val : Word) : State :=
  (setBits val).foldl (fun s k =>
    let key := page / 0x1000 * 32 + k
    let had := (s.pendRec key).isSome || s.marker.waiting.any (fun r => decide (r.1.key = key))
    if had then (s.withdraw key).setRaised key false else s) (s.wr (page + HDR.PAGE_EVENT_MASK.off) val)

/-- Every source whose event bit is set, unmasked and not raised, raised now (R456). -/
def State.raiseAll (s : State) : State :=
  (s.regs.filter (fun kv => decide (kv.1 % 0x1000 = HDR.PAGE_EVENT.off))).foldl (fun s kv =>
    (setBits kv.2).foldl (fun s k => s.raise (kv.1 / 0x1000 * 32 + k) s.clock.cnt false) s) s

/-- RECORD_WITHDRAW (R443). -/
def execRecordWithdraw (src : Source) (slot : BitVec 12) (mask : Bool) (val : Word) (s : State) :
    Host.Outcome State Fault Refusal :=
  let page := slot.toNat * 0x1000
  let a := page + if mask then HDR.PAGE_EVENT_MASK.off else HDR.PAGE_EVENT.off
  .next (match s.accessReg src a true with
    | .rejected p r => s.refuse src p r true a
    | .ok _ => if mask then s.maskWrite page val else s.eventWrite page val)

/-! ### Event queues (R445 to R448) -/

/-- An event queue whose context is zero. -/
def eqReset : Nat → Eq := fun _ => ⟨0, 0, 0, 0, 0, false, false, false, false⟩

/-- An event queue, and the same replaced. -/
def State.eq (s : State) (q : Nat) : Eq := SMap.get eqReset s.marker.eqs q
def State.setEq (s : State) (q : Nat) (e : Eq) : State :=
  { s with marker := { s.marker with eqs := SMap.set eqReset s.marker.eqs q e } }

/-- Bits of its CTRL and IRQ words. -/
def Eq.en (e : Eq) : Bool := decide (e.ctrl / 2 ^ 31 % 2 = 1)
def Eq.loc (e : Eq) : Bool := decide (e.ctrl / 2 ^ 30 % 2 = 1)
def Eq.park (e : Eq) : Bool := decide (e.ctrl / 2 ^ 29 % 2 = 1)
def Eq.irqEn (e : Eq) : Bool := decide (e.ctrl / 2 ^ 28 % 2 = 1)
def Eq.prio (e : Eq) : Nat := e.ctrl / 2 ^ 16 % 2 ^ 8
def Eq.size (e : Eq) : Nat := 64 * 2 ^ (e.ctrl % 16)
def Eq.vector (e : Eq) : Nat := e.irq / 2 ^ 16 % 2 ^ 11

/-- The context as 8 words (R445). -/
def Eq.words (e : Eq) : List Word :=
  let b := fun (x : Bool) (n : Nat) => if x then 2 ^ n else 0
  [e.ctrl, e.irq, e.base, e.base / 2 ^ 32, e.head * 2 ^ 16 + e.tail, b e.armed 0 + b e.pend 1 + b e.phase 2 + b e.err 3,
    0, 0].map (BitVec.ofNat 32)

/-- A function's range before anything is written to it. -/
def rangeReset : Nat → EqRange := fun _ => ⟨0, 0, 0, false⟩

/-- A function's range of event queues, and the same replaced. -/
def State.eqRange (s : State) (f : Nat) : EqRange := SMap.get rangeReset s.marker.ranges f
def State.setEqRange (s : State) (f : Nat) (x : EqRange) : State :=
  { s with marker := { s.marker with ranges := SMap.set rangeReset s.marker.ranges f x } }

/-- The function whose range holds an event queue. -/
def State.eqFn (s : State) (q : Nat) : Option Nat :=
  (s.marker.ranges.find? (fun kv => decide (kv.2.base ≤ q ∧ q < kv.2.base + kv.2.count))).map (fun kv => kv.1)

/-- The function that `MARK.FN_SEL` names; 254 and 255 act as 0. -/
def State.markSel (s : State) : Nat := let f := s.get Pg.MARK MARK1.FN_SEL; if f < 254 then f else 0

/-- The queue that a source names by its number in a range (R446): firmware names every queue by its own number. -/
def State.eqOf (s : State) (src : Source) (k : Nat) : Option Nat :=
  let inRange := fun (f : Nat) => let x := s.eqRange f; if k < x.count then some (x.base + k) else none
  match src with
  | .hook _ => if k < 4096 then some k else none
  | .pf1 => inRange 1
  | .vf n => inRange (2 + n.val)
  | _ => inRange s.markSel

/-- The interrupt of an event queue (R447, R432): the message or the internal interrupt; in D3hot it is held in PEND. -/
def State.eqIrq (s : State) (q : Nat) : State :=
  let e := s.eq q
  if e.loc then (((s.setEq q { e with armed := false }).emit (.hookIrq q)).inc Pg.MARK MARK2.IRQ_SENT)
  else
    match s.eqFn q with
    | none => s
    | some f =>
      let x := s.fnHost f
      if x.d3 then
        if e.pend then s
        else
          let s := s.setEq q { e with pend := true }
          if x.pmeEn then ((s.setFnHost f { x with pmeStatus := true }).sendPcie (.pme f)).inc Pg.HQ HQ1.PME_SENT else s
      else
        let s := (s.setEq q { e with armed := false, pend := false }).sendMsix f e.vector
        if x.msixEn && !x.hides e.vector then s.inc Pg.MARK MARK2.IRQ_SENT else s

/-- Whether a target takes records (R448). -/
def State.eligible (s : State) (t : Nat) : Bool :=
  if t < 4096 then
    let e := s.eq t
    e.en && !e.park && !e.err && decide ((e.tail + 1) % e.size ≠ e.head) &&
      (e.loc ||
        match s.eqFn t with
        | some f => decide (s.hostFn f = .running) && !(s.fnHost f).d3 && (s.fnHost f).busMaster
        | none => false)
  else
    decide (t < 4100) && !s.bit Pg.MARK (MARK1.HOOK_TGT_PARK (t - 4096))
      && !(s.upd.active && decide (s.upd.phase = .moving (t - 4096))) && !SMap.get (fun _ => false) s.restarting (t - 4096)

/-- PRIO of a target. -/
def State.targetPrio (s : State) (t : Nat) : Nat :=
  if t < 4096 then (s.eq t).prio else s.get Pg.MARK (MARK1.HOOK_TGT_PRIO (t - 4096))

/-! ### Routing (R450 to R453) -/

/-- What `SRC_ROUTE` holds of a source: group 0 at reset. -/
def State.route (s : State) (key : Nat) : Word := SMap.get (fun _ => 0) s.marker.routes key

/-- The members of a group at reset: Hook core 0's inbox in slot 0 of group 0. -/
def groupReset : Nat → List Word := fun g => (if g = 0 then 0x80001000 else 0) :: List.replicate 7 0

/-- The 8 members of a group. -/
def State.group (s : State) (g : Nat) : List Word :=
  (List.range 8).map (fun k => (SMap.get groupReset s.marker.groups g).getD k 0)

/-- A member slot's target, where it is valid and eligible. -/
def State.memberOf (s : State) (g k : Nat) : Option Nat :=
  let w := ((s.group g).getD k 0).toNat
  if 2 ^ 31 ≤ w ∧ s.eligible (w % 2 ^ 13) = true then some (w % 2 ^ 13) else none

/-- The slot that takes a record of a group (R452): lowest PRIO among the eligible members, and among those the first after
the slot chosen last. -/
def State.choice (s : State) (g : Nat) : Option (Nat × Nat) :=
  let last := SMap.get (fun _ => 7) s.marker.chosen g
  let slots := (List.range 8).map (fun k => (last + 1 + k) % 8)
  slots.foldl (fun best k =>
    match s.memberOf g k, best with
    | none, b => b
    | some t, none => some (k, t)
    | some t, some b => if s.targetPrio t < s.targetPrio b.2 then some (k, t) else some b) none

/-- The 16 bytes of a record (R444). -/
def State.recordBytes (s : State) (r : MRec) (group : Nat) (phase : Bool) : List Byte :=
  leBytes 2 (r.key / 32) ++ leBytes 1 (r.key % 32 + if phase then 128 else 0) ++ leBytes 1 group
    ++ leBytes 4 (s.rd (r.key / 32 * 0x1000 + HDR.PAGE_EVENT.off)).toNat
    ++ leBytes 4 (nsOf r.at_ + if r.replay then 2 ^ 31 else 0) ++ leBytes 4 (secOf r.at_)

/-- A record written into a target (R444, R447, R452). -/
def State.putRecord (s : State) (r : MRec) (group t : Nat) : State :=
  let s := s.add64 Pg.MARK MARK2.RECORDS_LO 1
  let s := if r.replay then s.inc Pg.MARK MARK2.REPLAYED else s
  if t < 4096 then
    let e := s.eq t
    let bytes := s.recordBytes r group e.phase
    let s := if e.loc then s.emit (.hookRecord t bytes) else s.sendPcie (.dmaWrite (e.base + 16 * e.tail) bytes)
    let tail := (e.tail + 1) % e.size
    let s := s.setEq t { e with tail := tail, phase := if tail = 0 then !e.phase else e.phase }
    if e.head = e.tail ∧ e.armed = true ∧ e.irqEn = true then s.eqIrq t else s
  else
    let n := SMap.get (fun _ => 0) s.marker.inbox (t - 4096)
    let bytes := s.recordBytes r group (decide (n / 256 % 2 = 0))
    ({ s with marker := { s.marker with inbox := SMap.set (fun _ => 0) s.marker.inbox (t - 4096) (n + 1) } } : State).emit
      (.hookRecord t bytes)

/-- A selected record committed (R452 to R454).  Without an eligible member a record whose source has been cleared or masked
since its selection is withdrawn, a masked setting being left unraised (R443, R453). -/
def State.commitRecord (s : State) (r : MRec) : State :=
  let g := (s.route r.key).toNat % 256
  let masked := s.evMask r.key
  let cleared := !s.evBit r.key || (s.pendRec r.key).isSome
  match s.choice g with
  | some (k, t) =>
    let s := if masked then s.inc Pg.MARK MARK2.MASK_LATE else s
    ({ s with marker := { s.marker with chosen := SMap.set (fun _ => 7) s.marker.chosen g k } } : State).putRecord r g t
  | none =>
    if cleared then s.inc Pg.MARK MARK2.WITHDRAWN
    else if masked then (s.setRaised r.key false).inc Pg.MARK MARK2.WITHDRAWN
    else
      (({ s with marker := { s.marker with waiting := s.marker.waiting ++ [(r, g)] } } : State).inc Pg.MARK
        MARK2.NO_TARGET).evt Pg.MARK 8

/-- MARKER_SELECT (R451, R455). -/
def execMarkerSelect (s : State) : Host.Outcome State Fault Refusal :=
  .next (
    let keys := s.marker.pend.map (fun kv => kv.1)
    let next : Option Nat :=
      match s.marker.last with
      | none => keys.head?
      | some l => (keys.find? (fun k => decide (l < k))).or keys.head?
    if s.bit Pg.MARK MARK0.CTRL || s.domIsOff .core then s
    else
      match next with
      | none => s
      | some k =>
        match s.pendRec k with
        | none => s
        | some r =>
          let s := s.setPendRec k none
          { s with marker := { s.marker with flight := s.marker.flight ++ [r], last := some k } })

/-- MARKER_COMMIT (R452, R453). -/
def execMarkerCommit (s : State) : Host.Outcome State Fault Refusal :=
  .next (
    match (if s.domIsOff .core then [] else s.marker.flight) with
    | [] => s
    | r :: rs => (({ s with marker := { s.marker with flight := rs } } : State).commitRecord r).markerStat)

/-- WAITING_RESELECT (R453, R455). -/
def execWaitingReselect (s : State) : Host.Outcome State Fault Refusal :=
  .next (
    match s.marker.waiting with
    | [] => s
    | (r, _) :: rs =>
      if s.bit Pg.MARK MARK0.CTRL || s.domIsOff .core then s
      else ({ s with marker := { s.marker with waiting := rs, flight := s.marker.flight ++ [r] } } : State).markerStat)

/-! ### Registers of page 0 -/

/-- EQ_DB (R446, R447). -/
def execEqDb (src : Source) (val : Word) (s : State) : Host.Outcome State Fault Refusal :=
  let a := Pg.MARK + MARK0.EQ_DB.off
  .next (match s.accessReg src a true with
    | .rejected p r => s.refuse src p r true a
    | .ok _ =>
      match s.eqOf src (MARK0.EQ_DB_QUEUE.get val) with
      | none => s.inc Pg.MARK MARK2.DB_ERR
      | some q =>
        let e := s.eq q
        let i := MARK0.EQ_DB_HEAD.get val
        if e.size ≤ i ∨ (e.tail + e.size - e.head) % e.size < (i + e.size - e.head) % e.size then s.inc Pg.MARK MARK2.DB_ERR
        else
          let arm := decide (MARK0.EQ_DB_ARM.get val = 1)
          let s := s.setEq q { e with head := i, armed := e.armed || arm }
          if arm && e.irqEn && decide (i ≠ e.tail) then s.eqIrq q else s)

/-- EQ_PRIO (R445). -/
def execEqPrio (src : Source) (val : Word) (s : State) : Host.Outcome State Fault Refusal :=
  let a := Pg.MARK + MARK0.EQ_PRIO.off
  .next (match s.accessReg src a true with
    | .rejected p r => s.refuse src p r true a
    | .ok _ =>
      match s.eqOf src (MARK0.EQ_PRIO_QUEUE.get val) with
      | none => s.inc Pg.MARK MARK2.DB_ERR
      | some q =>
        let e := s.eq q
        s.setEq q { e with ctrl := e.ctrl - e.prio * 2 ^ 16 + MARK0.EQ_PRIO_PRIO.get val * 2 ^ 16 })

/-- The RESULT of a source's `EQ_CMD` set. -/
def State.eqResult (s : State) (src : Source) (r : Nat) : State :=
  s.setSrcReg (Pg.MARK + MARK0.EQ_CMD.off) src (BitVec.ofNat 32 (r * 2 ^ 8))

/-- The queue that a source's `EQ_SEL` names. -/
def State.eqSelected (s : State) (src : Source) : Option Nat :=
  s.eqOf src ((s.srcReg (Pg.MARK + MARK0.EQ_SEL.off) src).toNat % 2 ^ 12)

/-- A context written (R445): its result and the state after. -/
def State.eqWrite (s : State) (src : Source) (q : Nat) (ws : List Word) : Nat × State :=
  let e := s.eq q
  let ctrl := (ws.getD 0 0 &&& 0xF0FF000F).toNat
  let irq := (ws.getD 1 0 &&& 0x07FF0000).toNat
  let base := (ws.getD 2 0).toNat + (ws.getD 3 0).toNat * 2 ^ 32
  let e' := { e with ctrl := ctrl, irq := irq, base := base }
  let vectors := match s.eqFn q with
    | some f => msixVectors f
    | none => 2048
  if e.en && !(decide (e'.loc = e.loc) && decide (e'.size = e.size) && decide (base = e.base)) then (1, s)
  else if e'.en && !e'.loc && decide (vectors ≤ e'.vector) then (3, s)
  else if (e'.loc && !src.isHook) || (e'.en && (decide (10 < ctrl % 16) || decide (base % 4096 ≠ 0))) then (4, s)
  else if e'.en && !e.en then (0, s.setEq q { e' with head := 0, tail := 0, phase := true, err := false })
  else (0, s.setEq q e')

/-- A write of `EQ_CMD` (R445): OP 1 reads the context, OP 2 writes it, and no other does anything. -/
def State.eqCmd (s : State) (src : Source) (val : Word) : State :=
  let a := Pg.MARK + MARK0.EQ_CMD.off
  let op := val.toNat % 4
  match s.accessReg src a true with
  | .rejected p r => s.refuse src p r true a
  | .ok _ =>
    if op ≠ 1 ∧ op ≠ 2 then s
    else
      match s.eqSelected src with
      | none => s.eqResult src 2
      | some q =>
        if op = 1 then (s.setStaged (Pg.MARK + (MARK0.EQ_DATA 0).off) src (s.eq q).words).eqResult src 0
        else
          let r := s.eqWrite src q (s.staged (Pg.MARK + (MARK0.EQ_DATA 0).off) src 8)
          r.2.eqResult src r.1

/-- EQ_READ (R445). -/
def execEqRead (src : Source) (val : Word) (s : State) : Host.Outcome State Fault Refusal := .next (s.eqCmd src val)

/-- EQ_WRITE (R445). -/
def execEqWrite (src : Source) (val : Word) (s : State) : Host.Outcome State Fault Refusal := .next (s.eqCmd src val)

/-- MARKER_HOLD (R455). -/
def execMarkerHold (src : Source) (val : Word) (s : State) : Host.Outcome State Fault Refusal :=
  let a := Pg.MARK + MARK0.CTRL.off
  .next (match s.accessReg src a true with
    | .rejected p r => s.refuse src p r true a
    | .ok _ => (s.set Pg.MARK MARK0.CTRL (val.toNat % 2)).markerStat)

/-! ### Registers of page 1 -/

/-- Whether a member word may stand in a group (R450). -/
def memberOk (g : Nat) (w : Word) : Bool :=
  decide (w.toNat < 2 ^ 31) || decide (w.toNat % 2 ^ 13 < if g < 32 then 4100 else 4096)

/-- A write of `GRP_CMD` (R450): OP 1 reads the group, OP 2 writes it, and no other does anything; groups 0 to 31 are
written by firmware alone. -/
def State.grpCmd (s : State) (src : Source) (val : Word) : State :=
  let a := Pg.MARK + MARK1.GRP_CMD.off
  let op := val.toNat % 4
  match s.accessReg src a true with
  | .rejected p r => s.refuse src p r true a
  | .ok _ =>
    let g := s.get Pg.MARK MARK1.GRP_SEL
    if op = 1 then (s.wrWords (Pg.MARK + MARK1.GRP_DATA.off) (s.group g)).set Pg.MARK MARK1.GRP_CMD_RESULT 0
    else if op ≠ 2 then s
    else
      let ws := (s.rdWords (Pg.MARK + MARK1.GRP_DATA.off) 8).map (fun w => w &&& 0x80001FFF)
      if g < 32 ∧ src.isHook = false then s.refuse src (Pg.MARK + 0x1000) .privilege true a
      else if ws.all (memberOk g) then
        ({ s with marker := { s.marker with groups := SMap.set groupReset s.marker.groups g ws } } : State).set Pg.MARK
          MARK1.GRP_CMD_RESULT 0
      else s.set Pg.MARK MARK1.GRP_CMD_RESULT 1

/-- GRP_READ (R450). -/
def execGrpRead (src : Source) (val : Word) (s : State) : Host.Outcome State Fault Refusal := .next (s.grpCmd src val)

/-- GRP_WRITE (R450). -/
def execGrpWrite (src : Source) (val : Word) (s : State) : Host.Outcome State Fault Refusal := .next (s.grpCmd src val)

/-- Whether every event queue of a function has EN 0. -/
def State.eqsOff (s : State) (f : Nat) : Bool :=
  let x := s.eqRange f
  s.marker.eqs.all (fun kv => !(decide (x.base ≤ kv.1 ∧ kv.1 < x.base + x.count) && kv.2.en))

/-- FN_EQCOUNT_WRITE (R416, R446). -/
def execFnEqcountWrite (src : Source) (val : Word) (s : State) : Host.Outcome State Fault Refusal :=
  let a := Pg.MARK + MARK1.FN_EQCOUNT.off
  .next (match s.accessReg src a true with
    | .rejected p r => s.refuse src p r true a
    | .ok _ =>
      let f := s.markSel
      let x := s.eqRange f
      let n := MARK1.FN_EQCOUNT_COUNT.get val
      if (if f = 0 then s.eqsOff 0 else decide (s.hostFn f = .off)) = false then
        s.refuse src (Pg.MARK + 0x1000) .offOnly true a
      else if n ≤ (if f < 2 then 4096 else 64) ∧ x.staged + n ≤ 4096
          ∧ s.marker.ranges.all (fun kv => decide (kv.1 = f) || !overlaps x.staged n kv.2.base kv.2.count) = true then
        s.setEqRange f { x with base := x.staged, count := n, err := false }
      else s.setEqRange f { x with err := true })

/-- The source that `SRC_SEL` names, where its page slot is in the directory. -/
def State.srcSel (s : State) : Option Nat :=
  let slot := s.get Pg.MARK MARK1.SRC_SEL_PAGE
  if (blockOf (slot * 0x1000)).isSome then some (slot * 32 + s.get Pg.MARK MARK1.SRC_SEL_BIT) else none

/-- A write of `SRC_ROUTE` that has been let through (R450). -/
def State.routeWrite (s : State) (src : Source) (val : Word) : State :=
  let a := Pg.MARK + MARK1.SRC_ROUTE.off
  match s.srcSel with
  | none => s
  | some k =>
    let w := s.route k
    if !src.isHook && decide (2 ^ 31 ≤ w.toNat) then s.refuse src (Pg.MARK + 0x1000) .locked true a
    else if !src.isHook && decide (2 ^ 31 ≤ val.toNat) then s.refuse src (Pg.MARK + 0x1000) .privilege true a
    else { s with marker := { s.marker with routes := SMap.set (fun _ => 0) s.marker.routes k (val &&& 0x800000FF) } }

/-! ### Resets of a function (R457) -/

/-- The event queues of a function returned to zero; records still held for the link are discarded. -/
def State.eqsReset (s : State) (f : Nat) : State :=
  let x := s.eqRange f
  let mine := fun (q : Nat) => decide (x.base ≤ q ∧ q < x.base + x.count)
  let isOurs : Emission → Bool := fun e =>
    match e with
    | .dmaWrite a _ => s.marker.eqs.any (fun kv => mine kv.1 && decide (kv.2.base ≤ a ∧ a < kv.2.base + 16 * kv.2.size))
    | _ => false
  let lost := s.pcie.held.filter isOurs
  let s := { s with pcie := { s.pcie with held := s.pcie.held.filter (fun e => !isOurs e) } }
  ({ s with marker := { s.marker with eqs := SMap.drop mine s.marker.eqs } } : State).addCnt Pg.MARK MARK2.DISCARDED lost.length

/-- An FLR of PF0: ranges and every unlocked route return to reset. -/
def State.markerPf0Reset (s : State) : State :=
  { s with marker := { s.marker with ranges := [], routes := s.marker.routes.filter (fun kv => decide (2 ^ 31 ≤ kv.2.toNat)) } }

/-! ### Return to D0 (R432, R447) -/

/-- D0_RETURN (R432, R447): held completions are written and held messages sent. -/
def execD0Return (func : Fin 254) (s : State) : Host.Outcome State Fault Refusal :=
  .next (
    if (s.fnHost func.val).d3 then
      let s := s.setFnHost func.val { s.fnHost func.val with d3 := false }
      let s := (s.epsOf func.val).foldl (fun s q =>
        let s := s.cplFlush q (s.ep q).wait.length
        if (s.ep q).pend then
          let e := s.ep q
          let s := s.setEp q { e with pend := false, armed := false, n := 0, timeUp := false }
          let s := s.sendMsix func.val e.vector
          if (s.fnHost func.val).msixEn && !(s.fnHost func.val).hides e.vector then s.inc Pg.HQ HQ1.IRQ_SENT else s
        else s) s
      let x := s.eqRange func.val
      ((s.marker.eqs.map (fun kv => kv.1)).filter (fun q => decide (x.base ≤ q ∧ q < x.base + x.count))).foldl (fun s q =>
        if (s.eq q).pend then s.eqIrq q else s) s
    else s)

end Sys2Proof.Machine
end

