-- ==== Sys2Proof/Machine/Dual.lean ====
section
/-!
DEFINITION. Machine/Dual.lean: dual homing (R252 to R259): the switching requests, their ranking, and the switch.
-/

namespace Sys2Proof.Machine

/-! ### Requests (R253 to R255) -/

/-- Local SF and local SD of a port (R255). -/
def State.localSf (s : State) (p : Port) : Bool := ((s.down p).raw.take 5).any id || !s.inWork p
def State.localSd (s : State) (p : Port) : Bool := (s.down p).raw.getD 5 false

/-- A request: rank, the port it names, and its source: 0 the command, 1 and 2 local SF of A and B, 3 and 4 local SD, 5 the
wait to restore, from 16 on the head end's code on A, from 32 on its code on B. -/
abbrev ApsReq := Nat × Port × Nat

/-- Whether a request is local SF. -/
def isLocalSf (r : ApsReq) : Bool := decide (r.2.2 = 1) || decide (r.2.2 = 2)

/-- The head end's request about a port (R253, R254): NR outside WORK. -/
def State.headReq (s : State) (p : Port) : List ApsReq :=
  if !s.inWork p then []
  else
    let c := (s.rg p).sr0 / 16 % 16
    let from_ := 16 + 16 * p.num + c
    if c = 0xF then [(1, p.other, from_)]
    else if c = 0xD then [(2, p, from_)]
    else if c = 0xE then [(2, p.other, from_)]
    else if c = 0xB then [(3, p.other, from_)]
    else if c = 0x9 then [(4, p.other, from_)]
    else if c = 0x5 then [(5, p, from_)]
    else if c = 0x6 then [(5, p.other, from_)]
    else []

/-- The local command in force (R255, R261). -/
def State.cmdReq (s : State) : List ApsReq :=
  let c := s.dual.cmd
  if c.1 = 1 then [(1, c.2.other, 0)] else if c.1 = 2 then [(2, c.2, 0)] else if c.1 = 3 then [(5, c.2, 0)] else []

/-- Every request (R255), those whose named port is not in WORK dropped (R256). -/
def State.apsReqs (s : State) : List ApsReq :=
  let own := fun (p : Port) =>
    s.headReq p ++ (if s.localSf p then [(3, p.other, 1 + p.num)] else [])
      ++ (if s.localSd p then [(4, p.other, 3 + p.num)] else [])
  let all := s.cmdReq ++ own .portA ++ own .portB ++ (if s.dual.wtrDone then [(6, s.dual.primary, 5)] else [])
  all.filter (fun r => s.inWork r.2.1)

/-- The highest rank among requests; 7 when there is none. -/
def topRank (rs : List ApsReq) : Nat := (rs.map (fun r => r.1)).foldl min 7

/-- The rank in force shown in both ports' `REG_STAT`. -/
def State.setRequest (s : State) (rank : Nat) : State :=
  (s.set (Pg.LFR .portA) LFR2.REG_STAT_REQUEST rank).set (Pg.LFR .portB) LFR2.REG_STAT_REQUEST rank

/-- An event of both ports. -/
def State.evtBoth (s : State) (b : Nat) : State := (s.evt (Pg.LFR .portA) b).evt (Pg.LFR .portB) b

/-! ### SR_REPORT (R233, R259) -/

/-- LOCAL of a port: its own SF and SD, then the other port's. -/
def State.localBits (s : State) (p : Port) : Nat :=
  let bit := fun (b : Bool) (n : Nat) => if b then 2 ^ n else 0
  bit (s.localSf p) 0 + bit (s.localSd p) 1 + bit (s.localSf p.other) 2 + bit (s.localSd p.other) 3

/-- The code, as R253 gives them, of the request in force about a port: one that names it asks to switch to it. -/
def State.requestCode (s : State) (p : Port) : Nat :=
  let rank := s.get (Pg.LFR p) LFR2.REG_STAT_REQUEST
  let to_ := s.apsReqs.any (fun r => decide (r.1 = rank) && decide (r.2.1 = p))
  if rank = 1 then 0xF
  else if rank = 2 then (if to_ then 0xD else 0xE)
  else if rank = 3 then 0xB
  else if rank = 4 then 0x9
  else if rank = 5 then (if to_ then 0x5 else 0x6)
  else 0

/-- SR_REPORT sent on every port in WORK. -/
def State.srReport (s : State) : State :=
  Port.both.foldl (fun s p =>
    if s.inWork p then
      s.sendUnsol p 0x85 false [BitVec.ofNat 8 s.dual.mode, BitVec.ofNat 8 s.dual.working.num, BitVec.ofNat 8 (s.localBits p),
        BitVec.ofNat 8 (s.requestCode p)]
    else s) { s with dual := { s.dual with local_ := s.localBits .portA } }

/-! ### Evaluation (R256) -/

/-- A decision: to switch, at once or after HOLDOFF, or to stay. -/
def State.decide_ (s : State) (rs : List ApsReq) : State :=
  let d := s.dual
  let rank := topRank rs
  let top := rs.filter (fun r => decide (r.1 = rank))
  let names := fun (p : Port) => top.any (fun r => decide (r.2.1 = p))
  let s := s.setRequest rank
  let clash := names .portA && names .portB
  let s := if clash && decide (d.conflict ≠ top) then s.evtBoth 27 else s
  let s : State := { s with dual := { s.dual with conflict := if clash then top else [] } }
  let target := if clash then d.working else if names d.working.other then d.working.other else d.working
  if target = d.working then ({ s with dual := { s.dual with switchTo := none } } : State).stopTimer Tm.holdoff
  else if top.any isLocalSf && decide (d.holdoff ≠ 0) then
    if s.running Tm.holdoff then s else s.startTimer Tm.holdoff (d.holdoff * 100 * ms)
  else ({ s with dual := { s.dual with switchTo := some target } } : State).stopTimer Tm.holdoff

/-- The WTR timer (R256): started with no request above rank 6, begun again after any of rank 4 or higher. -/
def State.waitRestore (s : State) (rs : List ApsReq) : State :=
  let d := s.dual
  let rank := topRank (rs.filter (fun r => decide (r.1 < 6)))
  if !d.revertive || decide (d.working = d.primary) || decide (rank ≤ 4) then
    ({ s with dual := { d with wtrDone := false } } : State).stopTimer Tm.wtr
  else if decide (rank = 7) && !s.running Tm.wtr && !d.wtrDone then s.startTimer Tm.wtr (d.wtrS * sec)
  else s

/-- APS_EVALUATION (R255, R256, R259). -/
def execApsEvaluation (s : State) : Host.Outcome State Fault Refusal :=
  let moved := decide (s.dual.local_ ≠ s.localBits .portA)
  .next (
    let s :=
      if s.dual.mode = 2 then
        let s := s.waitRestore s.apsReqs
        s.decide_ s.apsReqs
      else s
    if moved then s.srReport else s)

/-- WTR_EXPIRY (R256). -/
def execWtrExpiry (s : State) : Host.Outcome State Fault Refusal :=
  .next (s.timerOut Tm.wtr (fun s => { s with dual := { s.dual with wtrDone := true } }))

/-- HOLDOFF_EXPIRY (R256): the switch goes ahead if local SF still asks for it. -/
def execHoldoffExpiry (s : State) : Host.Outcome State Fault Refusal :=
  .next (s.timerOut Tm.holdoff (fun s =>
    let w := s.dual.working
    let rs := s.apsReqs
    let top := rs.filter (fun r => decide (r.1 = topRank rs))
    if s.localSf w && top.all (fun r => decide (r.2.1 = w.other)) && !top.isEmpty then
      { s with dual := { s.dual with switchTo := some w.other } }
    else s))

/-! ### The switch (R257) -/

/-- Everything served on a port's allocations served on the same slots of the other port. -/
def State.rebind (s : State) (old : Port) : State :=
  let from_ := 64 * old.num
  let to_ := 64 * old.other.num
  let m := (List.range 128).foldl (fun m e =>
    let a := s.servedAt e
    if from_ ≤ a ∧ a < from_ + 64 then
      let b := to_ + (a - from_)
      SMap.set (fun _ => 0) m e (if b = e then 0 else b + 1)
    else m) s.sched.rebound
  { s with sched := { s.sched with rebound := m } }

/-- APS_SWITCH (R257, R259). -/
def execApsSwitch (s : State) : Host.Outcome State Fault Refusal :=
  .next (
    match s.dual.switchTo with
    | none => s
    | some p =>
      let old := p.other
      let s := (List.range 64).foldl (fun s i => s.returnOpen old i) s
      let s := s.rebind old
      let s : State := { s with dual := { s.dual with working := p, switchTo := none } }
      let s := ((s.inc (Pg.LFR .portA) LFR1.APS_SWITCHES).inc (Pg.LFR .portB) LFR1.APS_SWITCHES).evtBoth 26
      s.refreshWorking.srReport)

/-! ### Mailbox commands (R252, R261) -/

/-- DUALHOME_CONFIG (R252, R261). -/
def mbxDualhomeConfig (args : List Word) (s : State) : Nat × List Word × State :=
  let w1 := argWord args 1
  let w2 := argWord args 2
  let mode := w1 % 4
  let persist := w2 / 2 ^ 24 % 16
  if mode = 3 ∨ persist = 0 then (Sts.badArg, [], s)
  else if mode ≠ 0 ∧ s.feat 4 = false then (Sts.notPermitted, [], s)
  else if s.pastListen .portA || s.pastListen .portB then (Sts.busy, [], s)
  else
    let p := Port.ofNum (w1 / 16 % 2)
    let s : State := { s with
      dual := { s.dual with mode := mode, primary := p, working := p, revertive := decide (w1 / 32 % 2 = 1)
                            wtrS := w2 % 2 ^ 16, holdoff := w2 / 2 ^ 16 % 256, persist := persist, cmd := (0, .portA)
                            wtrDone := false, conflict := [], switchTo := none }
      sched := { s.sched with rebound := SMap.drop (fun k => decide (k < 128)) s.sched.rebound } }
    (Sts.ok, [], (((s.stopTimer Tm.wtr).stopTimer Tm.holdoff).setRequest 7).refreshWorking)

/-- APS_COMMAND (R255, R261): codes above MANUAL are no command. -/
def mbxApsCommand (args : List Word) (s : State) : Nat × List Word × State :=
  let w := argWord args 1
  if s.dual.mode ≠ 2 then (Sts.notPermitted, [], s)
  else if 3 < w % 16 then (Sts.badArg, [], s)
  else (Sts.ok, [], { s with dual := { s.dual with cmd := (w % 16, Port.ofNum (w / 16 % 2)) } })

end Sys2Proof.Machine
end

