-- ==== Sys2Proof/Machine/Ply.lean ====
section
/-!
DEFINITION. Machine/Ply.lean: low-power idle of the site ports (R509), and the Ply link: its state, frames, twin time,
heartbeat and takeover (R510 to R521).
-/

namespace Sys2Proof.Machine

/-! ### Low-power idle (R509) -/

/-- Whether a frame waits for an egress, held for its launch time or not. -/
def State.egressHolds (s : State) (e : Nat) : Bool :=
  !(s.lane e).isEmpty || s.sched.queues.any (fun x => decide (s.classAt (s.queueClass x.1) = e) && !x.2.isEmpty)

/-- LPI_ENTRY (R509). -/
def execLpiEntry (n : Fin 4) (s : State) : Host.Outcome State Fault Refusal :=
  let b := Pg.SITE n
  .next (
    if s.bit b SITE.LPI_EN && s.siteLive n && !s.bit b SITE.STAT_LPI_TX && !s.egressHolds (129 + n.val)
        && (SMap.get (fun _ => none) s.siteWake n.val).isNone && (s.pattern (129 + n.val)).active.isNone then
      ((s.set b SITE.STAT_LPI_TX 1).inc b SITE.LPI_ENTRIES).stopTimer (Tm.lpiIdle n.val)
    else s)

/-- LPI_WAKE (R509): the released frame departs. -/
def execLpiWake (n : Fin 4) (sub : Fin 131072) (s : State) : Host.Outcome State Fault Refusal :=
  .next (
    match SMap.get (fun _ => none) s.siteWake n.val with
    | some w => ({ s with siteWake := SMap.set (fun _ => none) s.siteWake n.val none } : State).stopTimer (Tm.lpiWake n.val) |>.siteSend n w.pkt sub
    | none => s)

/-! ### The link's state (R512, R513) -/

namespace PlySt
def detect : Nat := 0
def train : Nat := 1
def lock : Nat := 2
def exchange : Nat := 3
def active : Nat := 4
def looped : Nat := 5
end PlySt

/-- Training has 50 ms. -/
def Tm.plyTrain : Nat := 60

/-- `PLY.LINK.STATE`. -/
def State.plySt (s : State) : Nat := s.get Pg.PLY PLY.LINK_STATE

/-- Whether `PLY` runs and its link is in a state. -/
def State.plyIn (s : State) (st : Nat) : Bool := s.fnIs .ply .running && decide (s.plySt = st)

/-- Whether the link is ACTIVE: flits travel. -/
def State.plyActive (s : State) : Bool := s.plyIn PlySt.active

/-- Whether `PLY` binds off and a frame is partly received, whose flits still come in (R38). -/
def State.plyDrains (s : State) : Bool :=
  s.fnIs .ply .bindingOff && decide (s.plySt = PlySt.active) && !s.twin.part.isEmpty

/-- Whether the far-end loop is selected (R513). -/
def State.plyFarLoop (s : State) : Bool := decide (s.get Pg.PLY PLY.CTRL_LOOP = 3)

/-- A TIME, BEAT or TKO flit sent: 1, 2 or 3. -/
def State.plyFlit (s : State) (type : Nat) (ws : List Nat) : State :=
  (s.add64 Pg.PLY PLY.TX_FLITS_LO 1).emit (.plyFlit type ws)

/-- TKO flits: 1 TAKE, 2 YIELD, 3 TAKE asked of the twin by a YIELD command. -/
def tkoTake : Nat := 1
def tkoYield : Nat := 2
def tkoAsk : Nat := 3

/-- A TKO flit of this device's own, sent while the link is ACTIVE (R512, R519). -/
def State.tkoFlit (s : State) (what : Nat) : State :=
  if s.plyActive && !s.plyFarLoop then s.plyFlit 3 [what] else s

/-! ### The takeover role (R518 to R520) -/

namespace Role
def solo : Nat := 0
def standby : Nat := 1
def taking : Nat := 2
def serving : Nat := 3
def yielding : Nat := 4
end Role

/-- The role of the device. -/
def State.role (s : State) : Nat := s.get Pg.PLY PLY.TKO_STAT_ROLE

/-- The gated outputs of a role that holds them go inactive at once. -/
def State.holdGated (s : State) : State :=
  let s := (List.range 2).foldl (fun s n =>
    if s.tkoHolds n then (s.setPin (Pin.ppsOut n) false).stopTimer (Tm.ppsWidth n) else s) s
  (List.range 8).foldl (fun s n =>
    if s.tkoHolds (4 + n) then (s.setPin (Pin.evt n) false).stopTimer (Tm.evtWidth n) else s) s

/-- TWIN_SERVE_OUT driven. -/
def State.serveOut (s : State) (b : Bool) : State :=
  (s.setPin Pin.serveOut b).setBit Pg.PLY PLY.TKO_STAT_SERVE_OUT b

/-- The classes of egress 133 rebound to the egresses `TKO_EGRESS` names (R520). -/
def State.tkoBind (s : State) : State :=
  let m := (List.range 16).foldl (fun m c =>
    if s.bit Pg.PLY (PLY.TKO_EGRESS_VALID c) then
      SMap.set (fun _ => 0) m (1000 + c) (s.get Pg.PLY (PLY.TKO_EGRESS_EGRESS c) + 1)
    else m) s.sched.rebound
  { s with sched := { s.sched with rebound := m } }

/-- The classes of egress 133 sent over Ply again (R518). -/
def State.tkoUnbind (s : State) : State :=
  { s with sched := { s.sched with rebound := SMap.drop (fun k => decide (1000 ≤ k)) s.sched.rebound } }

/-- Timers of the guard, of TAKING's 10 ms and of the heartbeat (R518, R519). -/
def Tm.guard : Nat := 61
def Tm.taking : Nat := 62
def Tm.heartbeat : Nat := 63

/-- The guard of a role entered (R518): GUARD_US, twice that with TWIN_ID 1, after 10 ms in a STANDBY entered from YIELDING. -/
def State.startGuard (s : State) : State :=
  s.startTimer Tm.guard ((if s.twin.fromYield then 10 * ms else 0)
    + 1000 * s.get Pg.PLY PLY.TKO_CTRL_GUARD_US * (if s.bit Pg.DEV DEV.BOOT_STAT_TWIN_ID then 2 else 1))

/-- The heartbeat's intervals counted afresh (R518): HB_MISS of 10 µs, 0 acting as 1. -/
def State.startHeartbeat (s : State) : State :=
  s.startTimer Tm.heartbeat (10000 * max 1 (s.get Pg.PLY PLY.TKO_CTRL_HB_MISS))

/-- A role entered: ROLE_CHANGE, TWIN_SERVE_OUT, the gated outputs and the classes (R518 to R520). -/
def State.toRole (s : State) (r : Nat) : State :=
  let old := s.role
  let s := (s.set Pg.PLY PLY.TKO_STAT_ROLE r).evt Pg.PLY 9
  let s := { s with twin := { s.twin with fromYield := decide (old = Role.yielding) } }
  let s := if r = Role.standby ∨ r = Role.taking then s.startGuard else s.stopTimer Tm.guard
  let s := if r = Role.taking then s.startTimer Tm.taking (10 * ms) else s.stopTimer Tm.taking
  if r = Role.serving then ((s.serveOut true).inc Pg.PLY PLY.TAKEOVERS).tkoBind
  else if r = Role.solo then (s.serveOut false).tkoBind
  else ((s.serveOut false).holdGated).tkoUnbind

/-- The serving twin gives its role up (R519): YIELDING, YIELD sent, STANDBY. -/
def State.yieldRole (s : State) : State :=
  ((s.toRole Role.yielding).tkoFlit tkoYield).toRole Role.standby

/-- A standby twin takes the role (R519). -/
def State.takeRole (s : State) : State := (s.toRole Role.taking).tkoFlit tkoTake

/-- Whether R519 gives the device a role other than SOLO: TKO_EN, `PLY` RUNNING and no loop selected (R513). -/
def State.tkoOn (s : State) : Bool :=
  s.bit Pg.PLY PLY.TKO_CTRL_TKO_EN && s.fnIs .ply .running && decide (s.get Pg.PLY PLY.CTRL_LOOP = 0)

/-- The role after a change of TKO_EN, of the function's state or of the loop (R519). -/
def State.tkoRefresh (s : State) : State :=
  if s.tkoOn then if s.role = Role.solo then s.toRole Role.standby else s
  else if s.role = Role.solo then s else s.toRole Role.solo

/-- Whether the twin reports no line port in WORK while this device has one. -/
def State.twinWorkless (s : State) : Bool :=
  !s.twin.beat.isEmpty && decide (s.twin.beat.getD 0 0 ≠ RegSt.work) && decide (s.twin.beat.getD 1 0 ≠ RegSt.work)
    && (s.inWork .portA || s.inWork .portB)

/-- AUTO_TKO (R519). -/
def State.autoTake (s : State) : State :=
  if decide (s.role = Role.standby) && s.bit Pg.PLY PLY.TKO_CTRL_AUTO_TKO && (s.twin.lost || s.twinWorkless) then s.takeRole
  else s

/-! ### Leaving ACTIVE -/

/-- TWIN_OFFSET when there is none (R521). -/
def noOffset : Nat := 2 ^ 63

/-- The link goes to DETECT (R512): what leaving ACTIVE takes with it.  `loss`: by PLY_LINK_LOSS, which is counted and
signalled. -/
def State.plyDown (s : State) (loss : Bool) : State :=
  let was := s.plySt
  let s := (s.set Pg.PLY PLY.LINK_STATE PlySt.detect).stopTimer Tm.plyTrain
  if was = PlySt.active then
    let s := if loss then (s.inc Pg.PLY PLY.LINK_DOWN).evt Pg.PLY 8 else s
    let s := if s.twin.part = [] then s else s.inc Pg.PLY PLY.RX_CUT
    let s := { s with twin := { s.twin with part := [], timeGood := false, sent := false, heard := none, filt := none } }
    ((s.set Pg.PLY PLY.LINK_TWIN_ID 0).set64 Pg.PLY PLY.TWIN_OFFSET_LO noOffset).reselect
  else s

/-! ### Meanings: the link -/

/-- PLY_CLOCK_DETECT (R512). -/
def execPlyClockDetect (s : State) : Host.Outcome State Fault Refusal :=
  .next (
    if s.plyIn PlySt.detect && !s.scan then (s.set Pg.PLY PLY.LINK_STATE PlySt.train).startTimer Tm.plyTrain (50 * ms) else s)

/-- PLY_TRAIN_COMPLETE (R510, R512): the precoding chosen per lane, or the one `CTRL.PRECODE` forces. -/
def execPlyTrainComplete (precode : Fin 16) (s : State) : Host.Outcome State Fault Refusal :=
  .next (
    if s.plyIn PlySt.train then
      ((s.set Pg.PLY PLY.LINK_STATE PlySt.lock).stopTimer Tm.plyTrain).set Pg.PLY PLY.LINK_PRECODE
        (if s.bit Pg.PLY PLY.CTRL_PRECODE_AUTO then precode.val else s.get Pg.PLY PLY.CTRL_PRECODE)
    else s)

/-- PLY_TRAIN_TIMEOUT (R512). -/
def execPlyTrainTimeout (s : State) : Host.Outcome State Fault Refusal :=
  .next (
    if s.plyIn PlySt.train && s.running Tm.plyTrain then
      ((s.set Pg.PLY PLY.LINK_STATE PlySt.detect).stopTimer Tm.plyTrain).inc Pg.PLY PLY.TRAIN_FAIL
    else s)

/-- PLY_LOCK (R512). -/
def execPlyLock (s : State) : Host.Outcome State Fault Refusal :=
  .next (if s.plyIn PlySt.lock then s.set Pg.PLY PLY.LINK_STATE PlySt.exchange else s)

/-- FAULT_CODE of equal TWIN_IDs (R512). -/
def faultTwinId : Nat := 0x80

/-- PLY_CAPABILITIES (R512): ACTIVE, or FAULT where the twin's TWIN_ID equals this device's. -/
def execPlyCapabilities (serial : BitVec 128) (twinId : Bool) (version : Word) (twinInForce : Bool) (s : State) :
    Host.Outcome State Fault Refusal :=
  .next (
    if s.plyIn PlySt.exchange then
      let s := { s with twin := { s.twin with caps := [serial.toNat, version.toNat, if twinInForce then 1 else 0] } }
      if s.bit Pg.DEV DEV.BOOT_STAT_TWIN_ID = twinId then
        let r := s.fn .ply
        (((s.set Pg.PLY PLY.LINK_STATE PlySt.detect).setFnRec .ply { r with code := faultTwinId }).moveFn .ply .fault
          false).tkoRefresh
      else
        (((s.set Pg.PLY PLY.LINK_STATE PlySt.active).setBit Pg.PLY PLY.LINK_TWIN_ID twinId).evt Pg.PLY 8).startHeartbeat
    else s)

/-- PLY_LINK_LOSS (R512). -/
def execPlyLinkLoss (uncorrectable : Bool) (s : State) : Host.Outcome State Fault Refusal :=
  .next (
    if s.plyIn PlySt.lock || s.plyIn PlySt.exchange || s.plyIn PlySt.active || s.plyDrains then
      (if uncorrectable then s.addCnt Pg.PLY PLY.CW_UNCORR 16 else s).plyDown true
    else s)

/-! ### Meanings: frames and time -/

/-- PLY_FRAME_FLIT (R511, R517): the flits of `bytes`; a complete frame enters the classifier as ingress 6.  In loop 3
what is received goes back to the twin (R513).  In BINDING_OFF a frame partly received is finished (R38). -/
def execPlyFrameFlit (bytes : List Byte) (last : Bool) (corr uncorr : Nat) (s : State) : Host.Outcome State Fault Refusal :=
  .next (
    if s.plyActive || s.plyDrains then
      let n := (bytes.length + 167) / 168
      let s := ((s.add64 Pg.PLY PLY.RX_FLITS_LO n).addCnt Pg.PLY PLY.CW_CORR corr).addCnt Pg.PLY PLY.CW_UNCORR uncorr
      if s.plyFarLoop then (s.add64 Pg.PLY PLY.TX_FLITS_LO n).emit (.plyFrame bytes)
      else
        let part := s.twin.part ++ bytes
        if last then ({ s with twin := { s.twin with part := [] } } : State).toClassifier 6 part []
        else { s with twin := { s.twin with part := part } }
    else s)

/-- The filtered offset from the twin put to its use (R515). -/
def State.useTwin (s : State) (o : Int) : State :=
  if s.twin.use = 1 then
    if s.get Pg.TIME TIME0.VOTE_VOTE_NS * 2 ^ 16 < o.natAbs then
      let s' := { s with twin := { s.twin with disagree := true, agreeRun := 0 } }
      if s.twin.disagree then s' else s'.evt Pg.PLY 11
    else if s.twin.disagree then
      if s.twin.agreeRun = 15 then { s with twin := { s.twin with disagree := false, agreeRun := 0 } }
      else { s with twin := { s.twin with agreeRun := s.twin.agreeRun + 1 } }
    else s
  else if s.twin.use = 2 ∧ s.get Pg.TIME TIME0.STAT_SELECTED = 3 then
    let f := o / 2 ^ 8
    let s := s.qualify f
    if s.get Pg.TIME TIME0.STAT_MODE = modeFree then s else s.correct f
  else s

/-- TIME_FLIT (R514, R515): `t1` the twin's departure, `t2` the twin's arrival of the last TIME flit this device sent and
`t3` that flit's departure. -/
def execTimeFlit (t1 t2 t3 : BitVec 128) (sub : Fin 131072) (s : State) : Host.Outcome State Fault Refusal :=
  .next (
    if s.plyActive then
      let s := s.add64 Pg.PLY PLY.RX_FLITS_LO 1
      if s.plyFarLoop then s.plyFlit 1 [t1.toNat, t2.toNat, t3.toNat]
      else
        let arr := s.stampSub sub / 2 ^ 24
        let s := { s with twin := { s.twin with heard := some (arr, t1.toNat) } }
        if s.twin.sent then
          let o := (((arr : Int) - t1.toNat) - ((t2.toNat : Int) - t3.toNat)) / 2
          let f := Config.twinFilter s.twin.filt o
          let s := { s with twin := { s.twin with filt := some f } }
          (s.set64 Pg.PLY PLY.TWIN_OFFSET_LO (ofSigned 64 f)).useTwin f
        else s
    else s)

/-- The TIME flit of an alignment instant (R514): t1, and the arrival and t1 of the last TIME flit received. -/
def State.plyAlign (s : State) : State :=
  if s.plyActive && !s.plyFarLoop then
    let t1 := (((s.clock.cnt / 2 ^ 24 : Nat) : Int) + s.getSigned Pg.PLY PLY.TRACE).toNat
    let h := s.twin.heard.getD (0, 0)
    (({ s with twin := { s.twin with sent := true } } : State).plyFlit 1 [t1, h.1, h.2])
  else s

/-! ### Meanings: heartbeat (R518) -/

/-- BEAT_SEND (R518): registration states, WORKING, power state, role and the time source and state (R515). -/
def execBeatSend (s : State) : Host.Outcome State Fault Refusal :=
  .next (
    if s.plyActive then
      s.plyFlit 2 [s.regSt .portA, s.regSt .portB, s.dual.working.num, s.get Pg.PWR PWR.STATE_CURRENT, s.role,
        s.get Pg.TIME TIME0.STAT_SELECTED, s.tstate]
    else s)

/-- BEAT_RECEIVE (R515, R518, R519); in loop 3 the flit goes back to the twin (R513). -/
def execBeatReceive (regA regB : Fin 8) (working : Bool) (power : Fin 5) (role : Fin 5) (selected : Fin 4) (timeState : Fin 8)
    (s : State) : Host.Outcome State Fault Refusal :=
  .next (
    if s.plyActive then
      let good := (decide (selected.val = 1) || decide (selected.val = 2))
        && (decide (timeState.val = stLocked) || decide (timeState.val = stHoldover))
      if s.plyFarLoop then
        (s.add64 Pg.PLY PLY.RX_FLITS_LO 1).plyFlit 2 [regA.val, regB.val, if working then 1 else 0, power.val, role.val, selected.val,
          timeState.val]
      else
      let s := ((s.add64 Pg.PLY PLY.RX_FLITS_LO 1).set Pg.PLY PLY.TKO_STAT_HB_OK 1).startHeartbeat
      let s := { s with twin := { s.twin with
        beat := [regA.val, regB.val, if working then 1 else 0, power.val, role.val], lost := false, timeGood := good } }
      s.autoTake.reselect
    else s)

/-- HB_LOST (R518, R519). -/
def execHbLost (s : State) : Host.Outcome State Fault Refusal :=
  .next (
    if s.fnIs .ply .running && !s.twin.lost then
      let s := ((s.set Pg.PLY PLY.TKO_STAT_HB_OK 0).inc Pg.PLY PLY.HB_LOST).evt Pg.PLY 10
      ({ s with twin := { s.twin with lost := true } } : State).stopTimer Tm.heartbeat |>.autoTake
    else s)

/-! ### Meanings: takeover (R519) -/

/-- TKO_TAKE (R519). -/
def execTkoTake (s : State) : Host.Outcome State Fault Refusal :=
  .next (
    if s.plyActive then
      let s := s.add64 Pg.PLY PLY.RX_FLITS_LO 1
      if s.plyFarLoop then s.plyFlit 3 [tkoTake] else if s.role = Role.serving then s.yieldRole else s
    else s)

/-- TKO_YIELD (R519). -/
def execTkoYield (s : State) : Host.Outcome State Fault Refusal :=
  .next (
    if s.plyActive then
      let s := s.add64 Pg.PLY PLY.RX_FLITS_LO 1
      if s.plyFarLoop then s.plyFlit 3 [tkoYield] else if s.role = Role.taking then s.toRole Role.serving else s
    else s)

/-- TKO_GUARD (R518, R519): TWIN_SERVE_IN has been low for the guard. -/
def execTkoGuard (s : State) : Host.Outcome State Fault Refusal :=
  .next (
    let low := s.set Pg.PLY PLY.TKO_STAT_SERVE_IN 0
    if s.role = Role.standby then low.toRole Role.serving
    else if s.role = Role.taking then
      (if s.plyActive then low else low.inc Pg.PLY PLY.TKO_PLY_LOST).toRole Role.serving
    else s)

/-- TKO_ABORT (R519). -/
def execTkoAbort (s : State) : Host.Outcome State Fault Refusal :=
  .next (
    if s.role = Role.taking then ((s.inc Pg.PLY PLY.TKO_ABORT).evt Pg.PLY 13).toRole Role.standby else s)

/-- DUAL_SERVE (R519): with TWIN_ID 1 the device yields. -/
def execDualServe (s : State) : Host.Outcome State Fault Refusal :=
  .next (
    if s.role = Role.serving ∧ s.bit Pg.DEV DEV.BOOT_STAT_TWIN_ID = true then
      let s := ((s.set Pg.PLY PLY.TKO_STAT_SERVE_IN 1).inc Pg.PLY PLY.DUAL_SERVE).evt Pg.PLY 12
      s.toRole Role.standby
    else s)

/-! ### Mailbox (R521) -/

/-- PLY_CONFIG (R519, R521): OP 0 sets the configuration, OP 1 takes, OP 2 yields. -/
def mbxPlyConfig (args : List Word) (s : State) : Nat × List Word × State :=
  let w1 := argWord args 1
  let w2 := argWord args 2
  let op := w1 / 16 % 4
  let use := w1 / 4 % 4
  if s.feat 6 = false then (Sts.notPermitted, [], s)
  else if op = 1 then
    if s.role = Role.standby then (Sts.ok, [], s.takeRole) else (Sts.badArg, [], s)
  else if op = 2 then
    if s.role = Role.serving then (Sts.ok, [], (s.yieldRole).tkoFlit tkoAsk) else (Sts.badArg, [], s)
  else if op = 3 ∨ use = 3 ∨ w2 % 2 ^ 16 < 10 ∨ w2 / 2 ^ 16 % 2 ^ 8 = 0 then (Sts.badArg, [], s)
  else
    let s := (s.setBit Pg.PLY PLY.TKO_CTRL_TKO_EN (decide (w1 % 2 = 1))).setBit Pg.PLY PLY.TKO_CTRL_AUTO_TKO
      (decide (w1 / 2 % 2 = 1))
    let s := (s.set Pg.PLY PLY.TKO_CTRL_GUARD_US (w2 % 2 ^ 16)).set Pg.PLY PLY.TKO_CTRL_HB_MISS (w2 / 2 ^ 16 % 2 ^ 8)
    let s := s.set Pg.PLY PLY.TKO_GATE (argWord args 3 % 2 ^ 12)
    let s := { s with twin := { s.twin with use := use, disagree := s.twin.disagree && decide (use = 1), agreeRun := 0 } }
    (Sts.ok, [], (s.tkoRefresh.holdGated).reselect)

end Sys2Proof.Machine
end

