-- ==== Sys2Proof/Machine/Functions.lean ====
section
/-!
DEFINITION. Machine/Functions.lean: the states of functions (R36 to R40, R549) with what each kind of function does when
it is cast on, bound off, frogged or reset, and the resets that PCIe asks of functions (R432, R434, R438, R439).
-/

namespace Sys2Proof.Machine

/-! ### Line ports -/

/-- Frames of a port's receive buffer (R113) and of those that wait there for the classifier (R340). -/
def State.rxFrames (s : State) (p : Port) : Nat :=
  ((s.down p).streams.map (fun x => x.2.ready.length + x.2.held.length + (if x.2.ctx.isSome then 1 else 0))).sum
    + (s.inq p.num).length

/-- The receive buffer and the streams of a port emptied. -/
def State.rxFlush (s : State) (p : Port) : State :=
  let s := (s.setDown p { s.down p with streams := [], ctrls := [], mgmtIn := [], tunnelIn := [], timeIn := [] }).setInq p.num []
  let s := s.setRg p { s.rg p with early := [] }
  (s.set (Pg.LFR p) ⟨LFR0.DS_STAT.off, 16, 16⟩ 0).set (Pg.LFR p) LFR0.RXBUF_FILL 0

/-- The defects of a port that is not evaluated (R553): LOF is what `DS_STAT` shows. -/
def rawOff : List Bool := [false, false, true, false, false, false]

/-- Alignment and detection as they stand in OFF and FAULT, and as CASTING_ON takes them up (R115, R553). -/
def State.lineOff (s : State) (p : Port) : State :=
  let d := s.down p
  let zero : BerSum := ⟨0, 0, 0, 0⟩
  let s := s.setDown p { d with
    raw := rawOff, miss := 0, bodyDue := false, losBad := 0, losGood := 0, w64 := zero, w1024 := zero, lostRecent := [] }
  let s := (s.setModem p { s.modem p with queue := [], cut := 0, last := none, good := 0, missed := 0 }).setRg p
    { s.rg p with due := [] }
  ((s.set (Pg.LFR p) LFR0.DS_STAT_DEFECT 4).set (Pg.LFR p) LFR0.DS_STAT_ALIGN alSeek).rxFlush p

/-- The captures that firmware sets up at line cast-on (R150, R165): EN and slot 8 or 9 of `EQ_CAP`, slot 0 or 1 of
`TXMON_CAP`. -/
def State.captureSlots (s : State) (p : Port) : State :=
  let b := Pg.LINE p
  ((s.set b LINE0.EQ_CAP_EN 1).set b LINE0.EQ_CAP_SLOT (8 + p.num)).set b LINE2.TXMON_CAP_SLOT p.num

/-- The start of CASTING_ON (R115, R129, R553): LSS and LOF are raised, and the switching-request bytes start afresh. -/
def State.lineStart (s : State) (p : Port) : State :=
  let s := ((s.lineOff p).captureSlots p).set (Pg.LFR p) LFR0.DS_STAT_DEFECT 0
  let s := s.setDown p { s.down p with raw := List.replicate 6 false, tree := none }
  let s := s.wr (Pg.LFR p + LFR0.SR_RX.off) 0
  let s := s.setRg p { s.rg p with srNew := 0, srRun := 0, sr0 := 0, fresh := false, leaving := false, bindOff := false }
  s.setRaw p [false, true, true, false, false, false]

/-- Work of a port stopped as by frogging (R36, R208, R210, R239): nothing is sent, LA_BEN falls. -/
def State.lineCut (s : State) (p : Port) : State :=
  let s := (s.cutBurst p).abandon (.line p) (s.rxFrames p)
  let s := (s.setRg p { s.rg p with leaving := false, bindOff := false }).stopTimer (Tm.leave p)
  (s.lineLeaves p).lineOff p

/-! ### Site ports and Ply -/

/-- A site port's link gone with the port. -/
def State.siteOff (s : State) (n : Fin 4) : State :=
  let b := Pg.SITE n
  let s := if s.bit b SITE.STAT_LINK then s.evt b 8 else s
  (((s.set b SITE.STAT_LINK 0).set b SITE.STAT_FEC_LOCK 0).set b SITE.STAT_LPI_TX 0).setPin (Pin.siteTx n.val) false

/-- Work of a site port stopped as by frogging: a frame that waits for the port to wake is abandoned (R426). -/
def State.siteCut (s : State) (n : Fin 4) : State :=
  let s :=
    match SMap.get (fun _ => none) s.siteWake n.val with
    | some w =>
      (({ s with siteWake := SMap.set (fun _ => none) s.siteWake n.val none } : State).dropPkt w.pkt Snd.flushed).abandon
        (.site n) 1
    | none => s
  s.siteOff n

/-- Work of Ply stopped as by frogging: a frame partly received is abandoned. -/
def State.plyCut (s : State) : State :=
  let s := if s.twin.part = [] then s else s.abandon .ply 1
  ((s.plyDown false).set Pg.PLY PLY.TKO_STAT_HB_OK 0).tkoRefresh

/-! ### PCIe data functions -/

/-- Work of a function stopped as by frogging (R436): no completion and no interrupt follow. -/
def State.hostCut (s : State) (f : Nat) : State :=
  let eps := s.epsOf f
  let n := (eps.map (fun q => (s.ep q).inFlight + ((s.ep q).wait.filter (fun c => !c.rx)).length)).sum
  let s := s.set Pg.HQ HDR.PAGE_ABANDON (s.get Pg.HQ HDR.PAGE_ABANDON + n)
  let mine := fun (k : Pkt) => match k.send with
    | some d => eps.contains d.ep
    | none => false
  let early := (s.inq 7).filter mine
  let s := s.setInq 7 ((s.inq 7).filter (fun k => !mine k))
  let late := s.cls.outq.filter (fun c => mine c.pkt)
  let s : State := { s with cls := { s.cls with outq := s.cls.outq.filter (fun c => !mine c.pkt) } }
  let s := (early ++ late.map (fun c => c.pkt)).foldl (fun s k => s.freePkt k) s
  let s := eps.foldl (fun s q =>
    let e := s.ep q
    let s := e.fetching.foldl (fun s x => s.freeAll 7 x.bufs) s
    (s.setEp q { e with fetching := [], inFlight := 0, wait := [], tso := [], pend := false, n := 0, timeUp := false,
                        idle := e.idle || !e.en }).stopTimer (Tm.moderate q)) s
  let s : State := { s with pcie := { s.pcie with irqWait := s.pcie.irqWait.filter (fun q => !eps.contains q) } }
  let x := s.fnHost f
  (s.setFnHost f { x with epoch := x.epoch + 1 }).laFreeOf f

/-- Every buffer of Skein held under an owner freed, its GEN advanced (R438). -/
def State.freeOwned (s : State) (owner : Nat → Bool) : State :=
  (List.range 16).foldl (fun s p =>
    (s.pool p).used.foldl (fun s kv =>
      match kv.2 with
      | some (o, g) => if owner o then s.putFree (mkHandle p kv.1 g) else s
      | none => s) s) s

/-- Whether a host owner is a function's (R392). -/
def State.ownerOf (s : State) (f o : Nat) : Bool :=
  let k := o - 32
  decide (32 ≤ o ∧ o < 64)
    && decide ((s.rd (Pg.SKEIN + (SKEIN.HOST_OWNER (k / 4)).off)).toNat / 2 ^ (8 * (k % 4)) % 256 = f)

/-- What a function's configuration space says it is (R3, R408, R409). -/
structure CfgSpace where
  deviceId : Nat
  classCode : Nat
  revision : Nat
  /-- Subsystem Vendor ID and Subsystem ID. -/
  subsystem : Nat × Nat
  msix : Nat
  /-- Bits [63:0] of the serial number, in the Device Serial Number capability. -/
  deviceSerial : Option Nat
  /-- The AER, SR-IOV and PTM capabilities are present; TotalVFs. -/
  aer : Bool
  sriov : Option Nat
  ptm : Bool
deriving DecidableEq, Repr

/-- The configuration space of a function (R3, R408, R409): the Subsystem IDs come from the boot configuration image. -/
def State.cfgSpace (s : State) (f : Nat) : CfgSpace :=
  { deviceId := if f = 0 then 0x0880 else if f = 1 then 0x0881 else 0x0882
    classCode := if f = 0 then 0x088000 else 0x020000
    revision := 0x11
    subsystem := match s.boot.config with
      | some i => Config.subsystemIds i.digest
      | none => (0, 0)
    msix := msixVectors f
    deviceSerial := if f = 0 then some (leNat (s.serial.take 8)) else none
    aer := decide (f < 2)
    sriov := if f = 1 then some 252 else none
    ptm := decide (f = 0) }

/-- The endpoint contexts of a function returned to zero (R438). -/
def State.epsReset (s : State) (f : Nat) : State :=
  let eps := s.epsOf f
  let s := eps.foldl (fun s q => s.stopTimer (Tm.moderate q)) s
  { s with pcie := { s.pcie with eps := SMap.drop (fun q => eps.contains q) s.pcie.eps } }

/-- What an FLR resets of a function beside its state (R438, R457). -/
def State.flrReset (s : State) (f : Nat) : State :=
  let s := ((s.freeOwned (s.ownerOf f)).epsReset f).eqsReset f
  let x := s.fnHost f
  let z := fnHostReset f
  s.setFnHost f { z with qbase := x.qbase, qcount := x.qcount, qbaseStaged := x.qbaseStaged, qerr := x.qerr, win := x.win,
                         vfEn := x.vfEn, epoch := x.epoch }

/-! ### What every kind of function does at a change of state -/

/-- The egress queue of `TSQ` that a function's transmit stamps go to (R294). -/
def fnTsq : Fn → Option Nat
  | .line p => some p.num
  | .site n => some (2 + n.val)
  | _ => none

/-- What entering CASTING_ON starts (R296, R553); an engine's is `State.ndlCastOn`. -/
def State.castStart (s : State) (f : Fn) : State :=
  let s := match fnTsq f with
    | some q => s.setTsq q []
    | none => s
  match f with
  | .line p => s.lineStart p
  | _ => s

/-- CASTING_ON entered. -/
def State.castOn (s : State) (f : Fn) : State :=
  match f with
  | .ndl n => s.ndlCastOn n
  | _ => (s.moveFn f .castingOn false).castStart f

/-- Why a cast-on fails whatever happens: the FAULT_CODE (R6, R189, R500).  DESIGN CHOICE: a customer kernel that R166 no longer
lets run counts as none loaded (log entry 50). -/
def State.castRefusal (s : State) (f : Fn) : Option Nat :=
  match f with
  | .line p => if s.gen1 p && !s.feat 14 then some 0x80 else none
  | .ndl n => if s.ndlMayRun n then none else some 0x80
  | .site n =>
    let b := Pg.SITE n
    let fec := s.get b SITE.CTRL_FEC
    if fec = 3 ∨ (s.get b SITE.CTRL_SPEED = 1 ∧ fec = 2) then some 0x80 else none
  | _ => none

/-- Whether what a cast-on waits for holds (R84, R434). -/
def State.castReady (s : State) (f : Fn) : Bool :=
  match f with
  | .line p => !s.coreMoves p
  | .pf1 => (s.fnHost 1).busMaster && !(s.fnHost 1).d3
  | .vf n => (s.fnHost (2 + n.val)).busMaster && !(s.fnHost (2 + n.val)).d3 && (s.fnHost 1).vfEn
  | _ => true

/-- What a function in RUNNING begins with (R236, R512, R513, R519); SITEn_TX_DISABLE is low in RUNNING alone. -/
def State.castDone (s : State) (f : Fn) : State :=
  match f with
  | .line p => (s.regEnter p RegSt.listen).applyMute p
  | .ply =>
    let l := s.get Pg.PLY PLY.CTRL_LOOP
    (s.set Pg.PLY PLY.LINK_STATE (if l = 1 ∨ l = 2 then PlySt.looped else PlySt.detect)).tkoRefresh
  | .site n => s.setPin (Pin.siteTx n.val) !s.bit Pg.MON MON.THERM_TRIPPED
  | .ndl _ => s.reloadStep
  | _ => s

/-- What bind-off begins with (R189, R239, R519). -/
def State.bindStart (s : State) (f : Fn) : State :=
  match f with
  | .line p => ((s.gaugeDiscard p).reselect).orDue p .bind (fun s => s.lineStop p)
  | .ndl n => s.set (Pg.NDL n) NDL.RUNSTAT_PEND 0
  | .site n => s.setPin (Pin.siteTx n.val) false
  | .ply => s.tkoRefresh
  | _ => s

/-- Whether a PCIe function has no frame fetched, no completion waiting, and no interrupt that the exit from L1 will send (R435). -/
def State.hostIdle (s : State) (f : Nat) : Bool :=
  (s.epsOf f).all (fun q => decide ((s.ep q).inFlight = 0) && (s.ep q).wait.isEmpty
    && !(decide (s.pcie.link = .exiting) && s.pcie.irqWait.contains q))

/-- The held interrupts that cannot be sent are discarded (R435). -/
def State.hostOff (s : State) (f : Nat) : State :=
  let eps := s.epsOf f
  let s : State := { s with pcie := { s.pcie with irqWait := s.pcie.irqWait.filter (fun q => !eps.contains q) } }
  eps.foldl (fun s q => s.setEp q { s.ep q with pend := false }) s

/-- Whether nothing is left that bind-off waits for (R38, R189, R210, R239, R435). -/
def State.bindIdle (s : State) (f : Fn) : Bool :=
  match f with
  | .line p => !(s.rg p).leaving && (s.rg p).due.isEmpty && (s.up p).burst.isNone && decide (s.rxFrames p = 0)
  | .ndl n => !s.ndlBusy n
  | .site n => (SMap.get (fun _ => none) s.siteWake n.val).isNone
  | .ply => s.twin.part.isEmpty
  | .pf1 => s.hostIdle 1
  | .vf n => s.hostIdle (2 + n.val)

/-- What a function that has drained leaves behind; a kernel that waited is taken (R191). -/
def State.bindDone (s : State) (f : Fn) : State :=
  match f with
  | .line p => s.lineOff p
  | .ndl n => (s.setEng n { s.eng n with claims := [] }).ndlNext n
  | .site n => s.siteOff n
  | .ply => s.plyCut
  | .pf1 => s.hostOff 1
  | .vf n => s.hostOff (2 + n.val)

/-- Work of a function stopped as by frogging, added to `PAGE_ABANDON` (R38). -/
def State.fnCut (s : State) (f : Fn) : State :=
  match f with
  | .line p => s.lineCut p
  | .ndl n => s.ndlCut n
  | .site n => s.siteCut n
  | .ply => s.plyCut
  | .pf1 => s.hostCut 1
  | .vf n => s.hostCut (2 + n.val)

/-- FAULT entered with a FAULT_CODE (R38). -/
def State.faultFn (s : State) (f : Fn) (code : Nat) : State :=
  let s := ((s.setFnRec f { s.fn f with code := code }).moveFn f .fault false).fnCut f
  match f with
  | .ndl n => (s.setEng n { s.eng n with lastFault := code }).reloadStep
  | _ => s

/-! ### BLOCK_RESET (R549) -/

/-- Whether an address lies at offset 0x040 or above in one of the pages. -/
def inPages (pages : List Nat) (a : Nat) : Bool := decide (0x40 ≤ a % 0x1000) && pages.contains (a - a % 0x1000)

/-- What the pages of a function show again after their reset: pins, whose reset value is the pin, and the causes of R154
that hold (log entry 22).  The loading tables behind LOAD_DATA and the Gauge go with their pages. -/
def State.reshow (s t : State) (f : Fn) : State :=
  match f with
  | .line p =>
    let t := t.setModem p { t.modem p with load := [] }
    ((t.optPins p).refreshInhibit p).setGauge p (gaugeReset p.num)
  | .site n => t.set (Pg.SITE n) SITE.STAT_MOD_PRESENT (s.get (Pg.SITE n) SITE.STAT_MOD_PRESENT)
  | .ndl n => t.ndlCoef n
  | .ply => t.set Pg.PLY PLY.TKO_STAT_SERVE_IN (s.get Pg.PLY PLY.TKO_STAT_SERVE_IN)
  | _ => t

/-- The registers of every page a function governs, from 0x040 on, its counters and snapshot views (R549). -/
def State.blockReset (s : State) (f : Fn) : State :=
  match f with
  | .pf1 => (s.epsReset 1)
  | .vf n => (s.epsReset (2 + n.val))
  | _ =>
    let t : State := { s with regs := s.regs.filter (fun kv => !inPages f.pages kv.1),
                              snapView := s.snapView.filter (fun kv => !inPages f.pages kv.1) }
    s.reshow (f.pages.foldl (fun t b => t.set b HDR.PAGE_SNAP_GEN 0) t) f

/-! ### Commands of `PAGE_CTRL` and `FN_CTRL` (R38, R39, R433) -/

/-- The control register of a function. -/
def fnCtrl : Fn → Nat
  | .line p => Pg.LFR p + 8
  | .ndl n => Pg.NDL n + 8
  | .site n => Pg.SITE n + 8
  | .ply => Pg.PLY + 8
  | .pf1 => Pg.HQ + HQ0.FN_CTRL.off
  | .vf _ => Pg.HQ + HQ0.FN_CTRL.off

/-- The page of that register. -/
def ctrlPage (f : Fn) : Nat := fnCtrl f - fnCtrl f % 0x1000

/-- The function a source's write to a control register acts on: PF1 and a VF act on themselves (R433). -/
def ctrlOf (src : Source) (f : Fn) : Fn :=
  match f, src with
  | .pf1, .vf n => .vf n
  | .vf _, .pf1 => .pf1
  | .vf _, .vf n => .vf n
  | g, _ => g

/-- RUN, when it reaches the function (R38, R413). -/
def State.runCmd (s : State) (src : Source) (f : Fn) : State :=
  let locked := match f with
    | .ply => !s.feat 6
    | .site _ => !s.feat 7
    | _ => false
  if locked then s.refuse src (ctrlPage f) .locked true (fnCtrl f)
  else
    match (s.fn f).st with
    | .off => s.castOn f
    | .bindingOff => s.setFnRec f { s.fn f with pendRun := true }
    | .fault => s.refuse src (ctrlPage f) .badCommand true (fnCtrl f)
    | _ => s

/-- STOP_REQ, when it reaches the function (R38). -/
def State.stopCmd (s : State) (f : Fn) : State :=
  match (s.fn f).st with
  | .castingOn => (s.moveFn f .bindingOff false).bindStart f
  | .running => (s.moveFn f .bindingOff false).bindStart f
  | .bindingOff => s.setFnRec f { s.fn f with pendRun := false }
  | .fault => s.moveFn f .off false
  | .off => s

/-- BLOCK_RESET, when it reaches the function (R38, R549). -/
def State.resetCmd (s : State) (src : Source) (f : Fn) : State :=
  match (s.fn f).st with
  | .off => s.blockReset f
  | .fault => (s.moveFn f .off false).blockReset f
  | _ => s.refuse src (ctrlPage f) .badCommand true (fnCtrl f)

/-- FORCE_STOP, when it reaches the function (R38). -/
def State.frogCmd (s : State) (f : Fn) : State :=
  if s.fnIs f .off then s
  else
    let s := ((s.moveFn f .off false).fnCut f).evtAll f 3
    match f with
    | .ndl _ => s.reloadStep
    | _ => s

/-- The commands of one write to a control register, in the order of R39. -/
def State.ctrlWrite (s : State) (src : Source) (f : Fn) (val : Nat) : State :=
  let s := if val / 8 % 2 = 1 then s.frogCmd f else s
  let s := if val / 4 % 2 = 1 then s.resetCmd src f else s
  let s := if val / 2 % 2 = 1 then s.stopCmd f else s
  if val % 2 = 1 then s.runCmd src f else s

/-- A write to the control register of a function, with the checks every access meets. -/
def State.ctrlAccess (s : State) (src : Source) (f : Fn) (val : Nat) : State :=
  match s.accessReg src (fnCtrl f) true with
  | .rejected p r => s.refuse src p r true (fnCtrl f)
  | .ok _ => s.ctrlWrite src (ctrlOf src f) val

/-- RUN (R38). -/
def execRun (src : Source) (f : Fn) (s : State) : Host.Outcome State Fault Refusal := .next (s.ctrlAccess src f 1)

/-- STOP_REQ (R38). -/
def execStopReq (src : Source) (f : Fn) (s : State) : Host.Outcome State Fault Refusal := .next (s.ctrlAccess src f 2)

/-- BLOCK_RESET (R38, R549). -/
def execBlockReset (src : Source) (f : Fn) (s : State) : Host.Outcome State Fault Refusal := .next (s.ctrlAccess src f 4)

/-- FORCE_STOP (R36, R38). -/
def execForceStop (src : Source) (f : Fn) (s : State) : Host.Outcome State Fault Refusal := .next (s.ctrlAccess src f 8)

/-! ### What the block reports of a function (R38) -/

/-- CAST_ON_COMPLETE (R38): a cast-on that cannot succeed fails instead. -/
def execCastOnComplete (f : Fn) (s : State) : Host.Outcome State Fault Refusal :=
  .next (
    if s.fnIs f .castingOn && s.castReady f then
      match s.castRefusal f with
      | some code => s.faultFn f code
      | none => (s.moveFn f .running false).castDone f
    else s)

/-- CAST_ON_FAIL (R38); time limits are counted from FW_READY (R65), so none runs out before it. -/
def execCastOnFail (f : Fn) (code : Byte) (s : State) : Host.Outcome State Fault Refusal :=
  .next (if s.fnIs f .castingOn && (s.fwIsReady || decide (code ≠ 1)) then s.faultFn f code.toNat else s)

/-- INTERNAL_FAULT (R38); one during CASTING_ON is a cast-on that fails. -/
def execInternalFault (f : Fn) (code : Byte) (s : State) : Host.Outcome State Fault Refusal :=
  .next (if s.fnIs f .off || s.fnIs f .fault then s else s.faultFn f code.toNat)

/-- BIND_OFF_COMPLETE (R38): OFF, or CASTING_ON in the same cycle when PEND_RUN is set. -/
def execBindOffComplete (f : Fn) (s : State) : Host.Outcome State Fault Refusal :=
  .next (
    if s.fnIs f .bindingOff && s.bindIdle f then
      let again := (s.fn f).pendRun
      let s := (s.moveFn f .off false).bindDone f
      if again then s.castOn f
      else
        match f with
        | .ndl _ => s.reloadStep
        | _ => s
    else s)

/-! ### What PCIe asks of functions (R432, R434, R438, R439) -/

/-- D3HOT_ENTRY (R432, R474): no descriptor is fetched; the look-aside lock is freed. -/
def execD3hotEntry (func : Fin 254) (s : State) : Host.Outcome State Fault Refusal :=
  .next ((s.setFnHost func.val { s.fnHost func.val with d3 := true }).laFreeOf func.val)

/-- BUS_MASTER_CLEAR (R434): a function in RUNNING enters FAULT with FAULT_CODE 0x81. -/
def execBusMasterClear (func : Fin 254) (s : State) : Host.Outcome State Fault Refusal :=
  let s := s.setFnHost func.val { s.fnHost func.val with busMaster := false }
  .next (
    match Fn.ofFunc func.val with
    | some f => if s.fnIs f .running then s.faultFn f 0x81 else s
    | none => s)

/-- A function frogged and reset (R438): it ends in OFF. -/
def State.flr (s : State) (f : Nat) : State :=
  match Fn.ofFunc f with
  | some g => (((s.frogCmd g).moveFn g .off false).laFreeOf f).flrReset f
  | none => s

/-- Every VF reset, with VF Enable cleared (R438).  A VF at its reset state that holds no buffer, no event queue and not the
look-aside lock is passed over: nothing of it would change. -/
def State.flrVfs (s : State) : State :=
  let held := (List.range 16).any (fun p => !(s.pool p).used.isEmpty)
  let s := (List.range 252).foldl (fun s n =>
    if !held && decide (s.hostFn (2 + n) = .off ∧ SMap.find s.pcie.fns (2 + n) = none ∧ SMap.find s.marker.ranges (2 + n) = none
        ∧ s.laHolder ≠ some (2 + n)) then s
    else s.flr (2 + n)) s
  s.setFnHost 1 { s.fnHost 1 with vfEn := false }

/-- `SKEIN.HOST_OWNER` at its reset value (R392, R439). -/
def State.ownersReset (s : State) : State :=
  (List.range 8).foldl (fun s k => let a := Pg.SKEIN + (SKEIN.HOST_OWNER k).off; s.wr a (resetOf a)) s

/-- What an FLR of PF0 does (R439, R457). -/
def State.pf0Flr (s : State) : State :=
  let s := (((s.flr 1).flrVfs).laFreeOf 0).flrReset 0
  let s := (s.ownersReset).markerPf0Reset
  let s := (s.wr (Pg.DEV + 0x170) (resetOf (Pg.DEV + 0x170))).set Pg.DEV DEV.FEAT_STAT_COMMITTED 0
  let s := (s.set Pg.DEV DEV.FEAT_STAT_ERR 0)
  let fns := s.pcie.fns.map (fun kv => (kv.1, { kv.2 with qbase := 0, qcount := 0, qbaseStaged := 0, qerr := false, win := 0 }))
  ({ s with pcie := { s.pcie with fns := fns.filter (fun kv => decide (kv.2 ≠ fnHostReset kv.1)) },
            power := { s.power with asker := s.power.asker.map (fun a => if a.ch = .ch0 then { a with mute := true } else a) },
            mbxHeld := s.mbxHeld.map (fun m => if m.ch = .ch0 then { m with mute := true } else m) } : State).evt Pg.HQ 12

/-- FLR (R438); that of PF0 is R439's. -/
def execFlr (func : Fin 254) (s : State) : Host.Outcome State Fault Refusal :=
  if func.val = 0 then .next s.pf0Flr
  else
    let s := s.flr func.val
    .next ((if func.val = 1 then s.flrVfs else s).evt Pg.HQ 12)

/-- PF0_FLR (R439, R457). -/
def execPf0Flr (s : State) : Host.Outcome State Fault Refusal := .next s.pf0Flr

end Sys2Proof.Machine
end

