-- ==== Sys2Proof/Machine/Power.lean ====
section
/-!
DEFINITION. Machine/Power.lean: power states, agreement, wake, the wake ledger and the holder's supplies (R481 to R499),
and the monitors of `MON` (R541).
-/

namespace Sys2Proof.Machine

/-! ### Power states and domains (R481) -/

/-! The power states, coded as in R485. -/
namespace Pst
def full : Nat := 0
def doze : Nat := 1
def rest : Nat := 2
def hold : Nat := 3
def keep : Nat := 4
end Pst

/-- The state in force. -/
def State.pstate (s : State) : Nat := s.get Pg.PWR PWR.STATE_CURRENT

/-- An attempt is in progress. -/
def State.powerBusy (s : State) : Bool := s.bit Pg.PWR PWR.STATE_BUSY

/-- The target of the attempt. -/
def State.ptarget (s : State) : Nat := s.get Pg.PWR PWR.STATE_TARGET

/-- Whether a domain is powered, and not in retention or self-refresh, in a state (R481). -/
def domPowered (st : Nat) (d : Dom) : Bool :=
  if st ≤ Pst.doze then true
  else if st = Pst.rest then
    match d with
    | .core | .site | .ply => false
    | _ => true
  else if st = Pst.hold then
    match d with
    | .holder | .timeio | .pcie => true
    | _ => false
  else decide (d = .holder)

/-- The output pins of a domain, which float when it is off (R496). -/
def domPins : Dom → List Nat
  | .lineA => [Pin.ben .portA]
  | .lineB => [Pin.ben .portB]
  | .site => (List.range 4).map Pin.siteTx
  | .ply => [Pin.serveOut]
  | .timeio => [Pin.ppsOut 0, Pin.ppsOut 1, Pin.clk10] ++ (List.range 8).map Pin.evt
  | _ => []

/-- A domain powered off, or put in retention: its outputs float, which shows as inactive. -/
def State.offDomain (s : State) (d : Dom) : State :=
  let t : State := if s.domOff.contains d then s else { s with domOff := s.domOff ++ [d] }
  (domPins d).foldl (fun s n => s.setPin n false) t

/-! ### Wake (R489 to R493) -/

/-- Whether a source fires in a state (R489); a watch entry's own domain is judged apart. -/
def wakeFires (code st : Nat) : Bool :=
  decide (st ≠ Pst.full) &&
    match code with
    | 4 => decide (st = Pst.keep)
    | 5 => decide (st ≤ Pst.hold)
    | 6 | 7 => decide (st ≤ Pst.rest)
    | _ => true

/-- The source a watch entry names, when the entry is enabled (R456). -/
def State.watchEntry (s : State) (k : Nat) : Option Nat :=
  if s.bit Pg.MARK (MARK1.WATCH_EN k) then some (s.get Pg.MARK (MARK1.WATCH_PAGE k) * 32 + s.get Pg.MARK (MARK1.WATCH_BIT k))
  else none

/-- The enabled watch entries. -/
def State.watchSet (s : State) : List (Nat × Nat) := (List.range 32).filterMap (fun k => (s.watchEntry k).map (fun key => (k, key)))

/-- Whether the page of a source is powered in a state. -/
def keyPowered (st key : Nat) : Bool :=
  match blockOf (key / 32 * 0x1000) with
  | some b => domPowered st b.dom
  | none => false

/-- Whether some enabled wake source can fire in a state (R486). -/
def State.canWake (s : State) (st : Nat) : Bool :=
  wakeFires 6 st || s.watchSet.any (fun e => keyPowered st e.2)
    || (s.bit Pg.HOLD HOLD.WAKE_EN_ALARM && s.power.alarm.isSome) || s.bit Pg.HOLD HOLD.WAKE_EN_PIN
    || (s.bit Pg.HOLD HOLD.WAKE_EN_PERST && wakeFires 4 st)
    || (s.bit Pg.HOLD HOLD.WAKE_EN_DOORBELL && wakeFires 5 st
        && (s.fnIs .pf1 .running || (List.finRange 252).any (fun n => s.fnIs (.vf n) .running)))

/-- A state entered: residency starts afresh, the entry is counted (R493, R499). -/
def State.enterState (s : State) (st : Nat) : State :=
  let s := (s.set Pg.PWR PWR.STATE_CURRENT st).inc Pg.HOLD (HOLD.ENTRIES st)
  ({ s with power := { s.power with since := s.clock.cycles } } : State).evt Pg.PWR 8

/-- A wake: the ledger's record, WAKE, and the restart begun; out of KEEP the holder raises PWR_MAIN_EN (R492, R493). -/
def State.wakeUp (s : State) (w : WakeRec) (immediate : Bool) : State :=
  let b := Pg.HOLD
  let i := s.get b HOLD.LEDGER_NEXT
  let t := s.clock.cnt
  let stay := (s.clock.cycles - s.power.since) / cyclesOf ms
  let info := 2 ^ 31 + (if immediate then 2 ^ 20 else 0) + s.pstate * 2 ^ 16 + w.detail % 256 * 2 ^ 8 + w.code
  let s := s.wrWords (b + (HOLD.LEDGER_SEC i).off)
    [BitVec.ofNat 32 (secOf t), BitVec.ofNat 32 (nsOf t), BitVec.ofNat 32 info, BitVec.ofNat 32 (min (2 ^ 32 - 1) stay)]
  let s := (s.set b HOLD.LEDGER_NEXT (i + 1)).evt b 10
  let s : State := { s with power := { s.power with waking := true, latched := none } }
  if s.pstate = Pst.keep then (s.set b HOLD.SUPPLY_MAIN_EN 1).setPin Pin.mainEn true else s

/-- A wake source fires: latched during an attempt (R490), a wake in a reduced state, nothing in FULL. -/
def State.fireWake (s : State) (code detail : Nat) : State :=
  let st := if s.powerBusy then s.ptarget else s.pstate
  let w : WakeRec := ⟨code, detail⟩
  if !wakeFires code st then s
  else if s.powerBusy then
    let s := s.set Pg.HOLD ⟨HOLD.WAKE_LATCH.off, code, 1⟩ 1
    { s with power := { s.power with latched := s.power.latched.or (some w) } }
  else if s.power.waking then s
  else s.wakeUp w false

/-- The Marker runs again: the records of watched sources raised while it stood, then without REPLAY every other source that
waits to be raised (R456, R491). -/
def State.replayAll (s : State) : State :=
  let rs := s.power.replay
  let t : State := { s with power := { s.power with replay := [], watch := [] } }
  (rs.foldl (fun s kv =>
    match kv.2 with
    | some t => s.raise kv.1 t true
    | none => s) t).raiseAll

/-- A source raised while the Marker runs; a watched one wakes the device directly, or is latched (R481, R489, R490). -/
def State.raiseWatched (s : State) (key : Nat) : State :=
  let t := s.raise key s.clock.cnt false
  if s.isRaised key || !t.isRaised key then t
  else
    match s.watchSet.find? (fun e => decide (e.2 = key)) with
    | some e => t.fireWake 1 e.1
    | none => t

/-- Line doze of a port ended by firmware (R260). -/
def State.endDoze (s : State) (p : Port) : State :=
  let r := s.rg p
  if r.doze || (r.dozeAsked && !r.dozeEnd) then (s.setDoze p false).dozeRequest p true else s

/-- The answer to a POWER_REQUEST (R485). -/
def State.powerAnswer (s : State) (result reason slot : Nat) : State :=
  match s.power.asker with
  | none => s
  | some a =>
    ({ s with power := { s.power with asker := none } } : State).respond a.ch a.tag a.mute Sts.ok
      [BitVec.ofNat 32 (slot * 2 ^ 16 + reason * 2 ^ 8 + result * 2 ^ 4 + s.pstate)]

/-- `PWR.LAST_ATTEMPT` (R485, R488). -/
def State.lastAttempt (s : State) (result reason slot target : Nat) : State :=
  s.wr (Pg.PWR + PWR.LAST_ATTEMPT.off) (BitVec.ofNat 32 (result * 2 ^ 28 + slot * 2 ^ 16 + reason * 2 ^ 8 + target))

/-! ### Attempts (R484 to R488) -/

/-- The blocks asked, by page slot, in the order of R487: a line port that DOZE has stopped is not asked for REST again. -/
def askOrder (cur target : Nat) : List Nat :=
  let first := [0xC0, 0xC1, 0xC2, 0xC3, 0xC8, 0x44, 0x54, 0x60, 0x61, 0x62, 0x63, 0x64, 0x65, 0x66, 0x67, 0xA2, 0x80, 0x82,
    0x84, 0x85, 0x86, 0xB0, 0x90, 0x10, 0x08]
  match target with
  | 1 => [0x44, 0x54, 0x08]
  | 2 => if cur = Pst.doze then first.filter (fun k => decide (k ≠ 0x44 ∧ k ≠ 0x54)) else first
  | 3 => first ++ [0x94]
  | _ => first ++ [0x94, 0xA0]

/-- The line port of a page slot. -/
def linePortOf (slot : Nat) : Option Port :=
  if slot = 0x44 then some .portA else if slot = 0x54 then some .portB else none

/-- Whether the packet path is empty: no frame in a queue, a lane or between them, and no hush in force. -/
def State.pathEmpty (s : State) : Bool :=
  s.sched.queues.all (fun kv => kv.2.isEmpty) && s.sched.lanes.all (fun kv => kv.2.isEmpty)
    && s.cls.inq.all (fun kv => kv.2.isEmpty) && s.cls.outq.isEmpty && !s.bit Pg.CLS CLS0.HUSH_REQ

/-- Why a block refuses: the REASON code; none when it agrees (R487). -/
def State.whyRefuse (s : State) (target slot : Nat) : Option Nat :=
  let need := fun (ok : Bool) (code : Nat) => if ok then none else some code
  match linePortOf slot with
  | some p =>
    if target ≤ Pst.rest then need (!s.inWork p || (s.rg p).doze) 3 else need (s.fnIs (.line p) .off) 2
  | none =>
    if 0xC0 ≤ slot ∧ slot < 0xC4 then need (s.fnIs (.site (Fin.ofNat 4 slot)) .off) 2
    else if 0x60 ≤ slot ∧ slot < 0x68 then
      need (decide (Pst.rest < target)
        || (List.finRange 8).all (fun n => !s.ndlCustomer (Pg.NDL n) || s.fnIs (.ndl n) .off)) 2
    else if 0x80 ≤ slot ∧ slot < 0x87 then need s.pathEmpty 1
    else
      match slot with
      | 0xC8 => need (s.fnIs .ply .off) 2
      | 0xA2 =>
        if target = Pst.keep then need (s.fnIs .pf1 .off) 2
        else need (s.pcie.eps.all (fun kv => decide (kv.2.inFlight = 0) && kv.2.wait.isEmpty)) 1
      | 0xB0 => need (s.ciph.laHost.isEmpty && s.ciph.laFw.isEmpty && !s.bit Pg.CIPH CIPH0.LA_LOCK_HELD) 1
      | 0x90 =>
        need (decide (target < Pst.hold) || (List.range 16).all (fun p =>
          s.bit Pg.SKEIN (SKEIN.POOL_CTRL_LOC p) || (s.pool p).used.all (fun kv => kv.2.isNone))) 1
      | 0x08 => need (!s.updating) 4
      | 0xA0 =>
        need ((s.fnHost 0).d3 && (s.fnHost 1).d3
          && (List.finRange 252).all (fun n => s.fnIs (.vf n) .off || (s.fnHost (2 + n.val)).d3)) 6
      | _ => none

/-- Whether a block has stopped once it may agree: a Needle engine ends its run before it is bound off. -/
def State.hasStopped (s : State) (target slot : Nat) : Bool :=
  if 0x60 ≤ slot ∧ slot < 0x68 ∧ Pst.hold ≤ target then !s.ndlBusy (Fin.ofNat 8 slot) else true

/-- What a block does on agreeing (R487). -/
def State.blockStops (s : State) (target slot : Nat) : State :=
  let deep := decide (Pst.hold ≤ target)
  match slot with
  | 0xC3 => s.offDomain .site
  | 0xC8 => s.offDomain .ply
  | 0x44 => if deep then s.offDomain .lineA else s
  | 0x54 => if deep then s.offDomain .lineB else s
  | 0x67 => if deep then s.offDomain .ndl else s
  | 0x10 => ({ s with power := { s.power with watch := s.watchSet } } : State).offDomain .core
  | 0x08 =>
    if deep then
      let s := s.powerAnswer 0 0 0
      ({ s with power := { s.power with answered := true } } : State).offDomain .hook
    else s
  | 0x94 => s.offDomain .mem
  | 0xA0 => ((((s.offDomain .pcie).offDomain .timeio).set Pg.HOLD HOLD.SUPPLY_MAIN_EN 0)).setPin Pin.mainEn false
  | _ => s

/-- PREPARE goes to the block at the head: a line port in WORK has firmware ask for line doze (R260, R487). -/
def State.prepare (s : State) : State :=
  match s.power.ask with
  | [] => s
  | slot :: _ =>
    match linePortOf slot with
    | none => s
    | some p =>
      if s.ptarget ≤ Pst.rest ∧ (s.rg p).doze = false then
        let t := s.askDoze p
        if (t.rg p).dozeAsked then { t with power := { t.power with dozed := t.power.dozed ++ [p] } } else t
      else s

/-- An attempt accepted, or refused with NO_WAKE (R486, R490). -/
def State.attempt (s : State) (target : Nat) (a : Option Asker) : State :=
  let s : State := { s with power := { s.power with asker := a } }
  if !s.canWake target then (s.lastAttempt 2 0 0 target).powerAnswer 2 0 0
  else
    let s := ((s.set Pg.PWR PWR.STATE_BUSY 1).set Pg.PWR PWR.STATE_TARGET target).set Pg.HOLD HOLD.WAKE_LATCH 0
    ({ s with power := { s.power with ask := askOrder s.pstate target, dozed := [], answered := false, latched := none } } : State).prepare

/-- A block refuses: what has stopped restarts in reverse order, and the device stays in the state it was in (R488). -/
def State.attemptFails (s : State) (slot reason : Nat) : State :=
  let target := s.ptarget
  let ports := s.power.dozed
  let stood := s.domIsOff .core
  let s : State := { s with domOff := [], power := { s.power with ask := [], dozed := [], latched := none } }
  let s := (s.set Pg.PWR PWR.STATE_BUSY 0).set Pg.HOLD HOLD.WAKE_LATCH 0
  let s := ports.foldl (fun s p => s.endDoze p) s
  let s := if stood then s.replayAll else s
  let s := if s.fnIs .ply .off then s else s.tkoRefresh
  ((s.lastAttempt 1 reason slot target).evt Pg.PWR 9).inc Pg.HOLD HOLD.ATTEMPTS_FAILED |>.powerAnswer 1 reason slot

/-- Whether a channel may request a target from the state in force (R484); OOB_FULL is checked for every command (R80). -/
def mayRequest (ch : Chan) (cur target : Nat) : Bool :=
  match target with
  | 0 => decide (cur = Pst.doze ∨ cur = Pst.rest)
  | 1 => decide (cur = Pst.full)
  | 4 => decide (cur ≤ Pst.doze) && decide (ch = .ch0)
  | _ => decide (cur ≤ Pst.doze)

/-- POWER_REQUEST served (R484 to R486): the STATUS of one that is turned away, or the attempt begun, whose response comes
when it ends.  FULL is the wake source MAILBOX. -/
def powerRequest (a : Asker) (args : List Word) (s : State) : Option Nat × State :=
  let target := argWord args 1 % 8
  if Pst.keep < target then (some Sts.badArg, s)
  else if s.powerBusy || s.power.waking then (some Sts.busy, s)
  else if !mayRequest a.ch s.pstate target then (some Sts.notPermitted, s)
  else if target = Pst.full then (none, ({ s with power := { s.power with asker := some a } } : State).fireWake 7 0)
  else (none, s.attempt target (some a))

/-! ### Meanings: attempts -/

/-- AUTO_DOZE_TIMER (R484): DOZE_IDLE_MS have passed since a frame was enqueued. -/
def execAutoDozeTimer (s : State) : Host.Outcome State Fault Refusal :=
  let s := s.stopTimer Tm.autoDoze
  .next (if s.bit Pg.PWR PWR.POLICY_AUTO_DOZE && decide (s.pstate = Pst.full) && !s.powerBusy then s.attempt Pst.doze none else s)

/-- BLOCK_AGREE (R456, R487). -/
def execBlockAgree (s : State) : Host.Outcome State Fault Refusal :=
  .next (
    match s.power.ask with
    | [] => s
    | slot :: rest =>
      let target := s.ptarget
      if s.powerBusy && (s.whyRefuse target slot).isNone && s.hasStopped target slot then
        let s := s.blockStops target slot
        ({ s with power := { s.power with ask := rest } } : State).prepare
      else s)

/-- BLOCK_REFUSE (R487, R488). -/
def execBlockRefuse (s : State) : Host.Outcome State Fault Refusal :=
  .next (
    match s.power.ask with
    | [] => s
    | slot :: _ =>
      match s.whyRefuse s.ptarget slot with
      | some r => if s.powerBusy then s.attemptFails slot r else s
      | none => s)

/-- PREPARE_TIMEOUT (R487): after the response of HOLD or KEEP every block but `PCIE` agrees without condition (R485). -/
def execPrepareTimeout (s : State) : Host.Outcome State Fault Refusal :=
  .next (
    match s.power.ask with
    | [] => s
    | slot :: _ => if s.powerBusy && (!s.power.answered || decide (slot = 0xA0)) then s.attemptFails slot 5 else s)

/-- STATE_REACHED (R490). -/
def execStateReached (s : State) : Host.Outcome State Fault Refusal :=
  .next (
    if s.powerBusy && s.power.ask.isEmpty then
      let target := s.ptarget
      let s := ((s.enterState target).set Pg.PWR PWR.STATE_BUSY 0).lastAttempt 0 0 0 target
      let s := if s.power.answered then s else s.powerAnswer 0 0 0
      match s.power.latched with
      | some w => ((s.wakeUp w true).inc Pg.HOLD HOLD.IMMEDIATE_WAKES).evt Pg.PWR 10
      | none => s
    else s)

/-! ### Meanings: wake -/

/-- EVENT_RAISE (R442); while `ck_core` is stopped the Marker raises nothing (R456). -/
def execEventRaise (slot : BitVec 12) (bit : Fin 32) (s : State) : Host.Outcome State Fault Refusal :=
  .next (if s.domIsOff .core then s else s.raiseWatched (slot.toNat * 32 + bit.val))

/-- WAKE_WATCH (R456, R489, R491): while the Marker stands, only an entry handed over, and the raise is kept for it. -/
def execWakeWatch (k : Fin 32) (s : State) : Host.Outcome State Fault Refusal :=
  let stopped := s.domIsOff .core
  let key := if stopped then (s.power.watch.find? (fun e => decide (e.1 = k.val))).map (fun e => e.2) else s.watchEntry k.val
  .next (
    match key with
    | none => s
    | some key =>
      let st := if s.powerBusy then s.ptarget else s.pstate
      if s.evBit key && !s.evMask key && keyPowered st key && !s.isRaised key then
        if !stopped then s.raiseWatched key
        else
          let s : State :=
            if (SMap.get (fun _ => none) s.power.replay key).isSome then s
            else { s with power := { s.power with replay := SMap.set (fun _ => none) s.power.replay key (some s.clock.cnt) } }
          s.fireWake 1 k.val
      else s)

/-- The alarm fires when the time counter has reached it (R489). -/
def State.alarmDue (s : State) : State :=
  match s.power.alarm with
  | some t =>
    if t ≤ s.clock.cnt / 2 ^ 40 then
      let s : State := { s with power := { s.power with alarm := none } }
      if s.bit Pg.HOLD HOLD.WAKE_EN_ALARM then s.fireWake 2 0 else s
    else s
  | none => s

/-- WAKE_ALARM (R489). -/
def execWakeAlarm (s : State) : Host.Outcome State Fault Refusal := .next s.alarmDue

/-- ALARM_COMMIT (R489, R498). -/
def execAlarmCommit (src : Source) (hi : Word) (s : State) : Host.Outcome State Fault Refusal :=
  let a := Pg.HOLD + HOLD.ALARM_SEC_HI.off
  .next (match s.accessReg src a true with
    | .rejected p r => s.refuse src p r true a
    | .ok _ =>
      let s := s.commitPair src a hi
      let t := (s.get Pg.HOLD HOLD.ALARM_SEC_HI * 2 ^ 32 + s.get Pg.HOLD HOLD.ALARM_SEC_LO) * 10 ^ 9 + s.get Pg.HOLD HOLD.ALARM_NS
      ({ s with power := { s.power with alarm := some t } } : State).alarmDue)

/-- WAKE_PIN (R489). -/
def execWakePin (s : State) : Host.Outcome State Fault Refusal :=
  .next (if s.bit Pg.HOLD HOLD.WAKE_EN_PIN then s.fireWake 3 0 else s)

/-- WAKE_PERST (R489). -/
def execWakePerst (s : State) : Host.Outcome State Fault Refusal :=
  .next (if s.bit Pg.HOLD HOLD.WAKE_EN_PERST then s.fireWake 4 0 else s)

/-- WAKE_DOORBELL (R489): a doorbell stored for a function in RUNNING. -/
def execWakeDoorbell (func : Fin 254) (s : State) : Host.Outcome State Fault Refusal :=
  .next (
    match Fn.ofFunc func.val with
    | some f => if s.bit Pg.HOLD HOLD.WAKE_EN_DOORBELL && s.fnIs f .running then s.fireWake 5 func.val else s
    | none => s)

/-- WAKE_FIRMWARE (R489). -/
def execWakeFirmware (s : State) : Host.Outcome State Fault Refusal := .next (s.fireWake 6 0)

/-- WAKE_RESTART_COMPLETE (R481, R491, R492): the device is in FULL; out of KEEP it boots instead. -/
def execWakeRestartComplete (s : State) : Host.Outcome State Fault Refusal :=
  .next (
    if s.power.waking && decide (s.pstate ≠ Pst.keep) then
      let stood := s.domIsOff .core
      let s : State := { s with domOff := [], power := { s.power with waking := false } }
      let s := s.enterState Pst.full
      let s := if stood then s.replayAll else s
      (Port.both.foldl (fun s p => s.endDoze p) s).powerAnswer 0 0 0
    else s)

/-! ### Residency (R493, R499) -/

/-- Offset of the residency counter of a state. -/
def residLo (st : Nat) : Fld := ⟨0x180 + 8 * st, 0, 32⟩

/-- Cycles of `ck_time` pass, once the holder is ready (R266): each whole millisecond since the entry to the state in
force is counted. -/
def State.elapse (s : State) (n : Nat) : State :=
  if !s.power.ready then s
  else
    let t0 := s.clock.cycles - s.power.since
    let d := (t0 + n) / cyclesOf ms - t0 / cyclesOf ms
    let s := s.tick n
    if d = 0 then s else s.add64 Pg.HOLD (residLo s.pstate) d

/-! ### Meanings: the holder's supplies (R494, R495) -/

/-- B_OK and B_LOW from VHOLD_B as last measured; the rise of B_LOW sets BACKUP_LOW. -/
def State.backupCheck (s : State) : State :=
  let b := Pg.HOLD
  let mv := s.power.vholdB
  let low := decide (mv < 2850) && (s.bit b HOLD.SUPPLY_ON_B || !s.bit b HOLD.SUPPLY_A_OK)
  let rise := low && !s.bit b HOLD.SUPPLY_B_LOW
  let s := (s.setBit b HOLD.SUPPLY_B_OK (decide (2600 ≤ mv))).setBit b HOLD.SUPPLY_B_LOW low
  if rise then s.evt b 9 else s

/-- The holder changes its supply: the switch is counted and signalled, and nothing else changes. -/
def State.switchSupply (s : State) (toB : Bool) : State :=
  let b := Pg.HOLD
  if s.bit b HOLD.SUPPLY_ON_B = toB then s
  else (((s.setBit b HOLD.SUPPLY_ON_B toB).inc b HOLD.SUPPLY_SWITCHES).evt b 8)

/-- SUPPLY_SWITCH (R494, R495): to VHOLD_B while that is usable, to VHOLD_A once that is. -/
def execSupplySwitch (toB : Bool) (s : State) : Host.Outcome State Fault Refusal :=
  .next (
    if toB then
      (if s.bit Pg.HOLD HOLD.SUPPLY_B_OK then ((s.set Pg.HOLD HOLD.SUPPLY_A_OK 0).switchSupply true).backupCheck else s)
    else if s.bit Pg.HOLD HOLD.SUPPLY_A_OK then (s.switchSupply false).backupCheck
    else s)

/-- VHOLD_A_QUALIFIED (R494): VHOLD_A comes into use. -/
def execVholdAQualified (s : State) : Host.Outcome State Fault Refusal :=
  .next (((s.set Pg.HOLD HOLD.SUPPLY_A_OK 1).switchSupply false).backupCheck)

/-- BACKUP_LOW (R494). -/
def execBackupLow (mv : Fin 65536) (s : State) : Host.Outcome State Fault Refusal :=
  .next (({ s with power := { s.power with vholdB := mv.val } } : State).backupCheck)

/-- HOLDER_SUPPLIES_LOST (R494, R496): OFF; every output floats, and only a cold reset follows. -/
def execHolderSuppliesLost (s : State) : Host.Outcome State Fault Refusal :=
  .next { s with
    domOff := [.holder, .timeio, .pcie, .mem, .hook, .core, .ndl, .lineA, .lineB, .site, .ply]
    pins := []
    power := { s.power with off := true, ready := false, ask := [], asker := none, waking := false, vholdB := 0 } }

/-! ### Meanings: monitors (R541) -/

/-- THERM_ALERT (R541): the hottest sensor is read; reaching ALERT_C sets the event.  ALERT_C above 130 acts as 130. -/
def execThermAlert (tj : BitVec 16) (s : State) : Host.Outcome State Fault Refusal :=
  let b := Pg.MON
  let limit : Int := min 130 (s.get b MON.THERM_ALERT_C) * 16
  .next (
    if s.domIsOff .core then s
    else
      let reached := decide (limit ≤ tj.toInt) && decide (s.getSigned b MON.TEMP_TJ < limit)
      let s := s.set b MON.TEMP_TJ tj.toNat
      let s := if s.getSigned b MON.TEMP_PEAK < tj.toInt then s.set b MON.TEMP_PEAK tj.toNat else s
      if reached then s.evt b 8 else s)

/-- THERMAL_TRIP (R541): every burst ends, LASER_EN is cleared, the site modules are disabled, and TRIPPED is set. -/
def execThermalTrip (s : State) : Host.Outcome State Fault Refusal :=
  let s := Port.both.foldl (fun s p => ((s.cutBurst p).set (Pg.LINE p) LINE1.TX_CTRL_LASER_EN 0).refreshInhibit p) s
  let s := (List.range 4).foldl (fun s n => s.setPin (Pin.siteTx n) false) s
  .next (s.set Pg.MON MON.THERM_TRIPPED 1)

/-- Minimum of each rail in mV (R525), in tenths. -/
def railMin : List Nat := [7310, 8290, 8730, 11640, 10100, 8700, 4700, 17000, 17100, 31350, 31350, 27000]

/-- MON_RAIL_SAMPLE (R541): the rails that were sampled, from the first on. -/
def execMonRailSample (mv : List (BitVec 16)) (s : State) : Host.Outcome State Fault Refusal :=
  if s.domIsOff .core then .next s
  else
    .next ((List.range (min 12 mv.length)).foldl (fun s k =>
      let v := (mv.getD k 0).toNat
      let low := decide (v * 10 < railMin.getD k 0)
      let rise := low && !s.bit Pg.MON (MON.RAIL_LOW k)
      let s := (s.set Pg.MON (MON.RAIL_MV k) v).setBit Pg.MON (MON.RAIL_LOW k) low
      if rise then s.evt Pg.MON 9 else s) s)

/-! ### Meanings: boundary scan and Hook cores (R52, R62) -/

/-- BOUNDARY_SCAN (R62): the pins leave their functions, and every port drops out of service and stays out while it is
active.  While a scan holds the pins the command is its end (log entry 70). -/
def execBoundaryScan (s : State) : Host.Outcome State Fault Refusal :=
  if s.scan then .next { s with scan := false }
  else
  let s : State := { s with scan := true }
  let s := Port.both.foldl (fun s p =>
    if s.lineOn p then ((s.cutBurst p).setDefect p 0 true).cdrToFree p (decide (s.cdr p = cdrLocked)) else s) s
  let s := (List.finRange 4).foldl (fun s n =>
    let b := Pg.SITE n
    if s.bit b SITE.STAT_LINK then ((s.set b SITE.STAT_LINK 0).set b SITE.STAT_FEC_LOCK 0).evt b 8 else s) s
  .next (if s.fnIs .ply .running then s.plyDown true else s)

/-- HOOK_RESTART (R52): the core's state is rebuilt. -/
def execHookRestart (core : Fin 4) (s : State) : Host.Outcome State Fault Refusal :=
  .next (
    if SMap.get (fun _ => false) s.restarting core.val then
      ({ s with restarting := SMap.set (fun _ => false) s.restarting core.val false } : State).evt (Pg.HOOK .ch0) 8
    else s)

end Sys2Proof.Machine
end

