-- ==== Sys2Proof/Machine/Snap.lean ====
section
/-!
DEFINITION. Machine/Snap.lean: the row snapshot (R41 to R47, R551).
-/

namespace Sys2Proof.Machine

/-- The time counter in whole ns. -/
def State.nowNs (s : State) : Nat := s.clock.cnt / 2 ^ 40

/-- Whether a counter of the row snapshot lies at an address (R42). -/
def isCounter (addr : Nat) : Bool :=
  match rowOf addr with
  | some r => r.ctr
  | none => false

/-- The generation after a generation: 0xFFFF_FFFF is followed by 1. -/
def nextGen (g : Nat) : Nat := if g = 2 ^ 32 - 1 then 1 else g + 1

/-- The first instant of a grid that lies after an instant. -/
def gridAfter (start period t : Nat) : Nat := if t < start then start else start + ((t - start) / period + 1) * period

/-- The snapshot unit replaced, with `STAT.PENDING`. -/
def State.setSnap (s : State) (x : SnapUnit) : State := ({ s with snap := x } : State).setBit Pg.SNAP SNAP.STAT_PENDING x.pending

/-- The pending snapshot and its series ended (R47).  DESIGN CHOICE: the generation of a snapshot cancelled after some pages
have captured is the next snapshot's (log entry 23). -/
def State.snapCancel (s : State) : State := s.setSnap { s.snap with pending := false, periodNs := 0, captured := [] }

/-- ARM (R45). -/
def State.snapArm (s : State) (clear : Bool) : State :=
  let x := s.snap
  let us := s.get Pg.SNAP SNAP.PERIOD
  let period := if us = 0 then 0 else max 10 us * 1000
  let late := decide (x.armedNs * 2 ^ 40 < s.clock.cnt + 4000 * 2 ^ 40)
  let s := s.setSnap ⟨true, clear, period, x.armedNs, if late then s.nowNs + 4000 else x.armedNs, [], x.armedNs⟩
  if late then s.set Pg.SNAP SNAP.STAT_LATE 1 else s

/-- NOW (R47). -/
def State.snapNow (s : State) (clear : Bool) : State :=
  s.setSnap ⟨true, clear, 0, s.nowNs + 4000, s.nowNs + 4000, [], s.snap.armedNs⟩

/-- A write of `SNAP.CTRL` (R47, R413): CANCEL acts first, whatever becomes of the rest.  DESIGN CHOICE: ARM and NOW written
together are recorded as one rejected access (log entry 23). -/
def State.snapCtrl (s : State) (src : Source) (val : Word) : State :=
  let a := Pg.SNAP + SNAP.CTRL.off
  match s.accessReg src a true with
  | .rejected p r => s.refuse src p r true a
  | .ok _ =>
    let arm := val.getLsbD 0
    let now := val.getLsbD 1
    let clear := val.getLsbD 4
    let s := if val.getLsbD 2 then s.snapCancel else s
    if (arm || now) && !s.feat 16 then s.refuse src Pg.SNAP .locked true a
    else if arm && now then s.refuse src Pg.SNAP .badCommand true a
    else if (arm || now) && s.snap.pending then s.refuse src Pg.SNAP .snapBusy true a
    else
      let s := s.setBit Pg.SNAP SNAP.CTRL_MODE clear
      if arm then s.snapArm clear else if now then s.snapNow clear else s

/-- The word written to `SNAP.CTRL`. -/
def ctrlWord (arm now cancel mode : Bool) : Word :=
  BitVec.ofNat 32 ((if arm then 1 else 0) + (if now then 2 else 0) + (if cancel then 4 else 0) + (if mode then 16 else 0))

/-- SNAP_ARM (R45). -/
def execSnapArm (src : Source) (mode cancel : Bool) (s : State) : Host.Outcome State Fault Refusal :=
  .next (s.snapCtrl src (ctrlWord true false cancel mode))

/-- SNAP_NOW (R47). -/
def execSnapNow (src : Source) (mode cancel : Bool) (s : State) : Host.Outcome State Fault Refusal :=
  .next (s.snapCtrl src (ctrlWord false true cancel mode))

/-- SNAP_CANCEL (R47); MODE is written with it and stays as it is. -/
def execSnapCancel (src : Source) (s : State) : Host.Outcome State Fault Refusal :=
  .next (s.snapCtrl src (ctrlWord false false true (s.bit Pg.SNAP SNAP.CTRL_MODE)))

/-- SNAP_AT_COMMIT (R551). -/
def execSnapAtCommit (src : Source) (hi : Word) (s : State) : Host.Outcome State Fault Refusal :=
  let a := Pg.SNAP + SNAP.AT_SEC_HI.off
  .next (match s.accessReg src a true with
    | .rejected p r => s.refuse src p r true a
    | .ok _ =>
      let ns := s.get Pg.SNAP SNAP.AT_NS
      if 999999999 < ns then s.refuse src Pg.SNAP .badCommand true a
      else
        let s := s.commitPair src a hi
        let t := (s.get Pg.SNAP SNAP.AT_SEC_HI * 2 ^ 32 + s.get Pg.SNAP SNAP.AT_SEC_LO) * 10 ^ 9 + ns
        { s with snap := { s.snap with armedNs := t } })

/-- The counters of a page copied into its view, and cleared in capture-and-clear mode (R42, R44). -/
def State.capturePage (s : State) (page : Nat) : State :=
  let here := s.regs.filter (fun kv => decide (page ≤ kv.1) && decide (kv.1 < page + 0x800) && isCounter kv.1)
  let old := SMap.drop (fun k => decide (page ≤ k) && decide (k < page + 0x1000)) s.snapView
  let view := here.foldl (fun m kv => SMap.set (fun _ => 0) m (kv.1 + 0x800) kv.2) old
  let regs := if s.snap.clear then here.foldl (fun m kv => SMap.set resetOf m kv.1 0) s.regs else s.regs
  ({ s with snapView := view, regs := regs } : State).set page HDR.PAGE_SNAP_GEN (nextGen (s.get Pg.SNAP SNAP.GEN))

/-- SNAP_CAPTURE (R41 to R43): a page powered off keeps its view, and PARTIAL is set. -/
def execSnapCapture (slot : BitVec 12) (s : State) : Host.Outcome State Fault Refusal :=
  let n := slot.toNat
  .next (
    if s.snap.pending && snapSlots.contains n && !s.snap.captured.contains n && decide (s.snap.atNs ≤ s.nowNs) then
      let off := match blockOf (n * 0x1000) with
        | some b => s.domIsOff b.dom
        | none => true
      let t := if off then s.set Pg.SNAP SNAP.STAT_PARTIAL 1 else s.capturePage (n * 0x1000)
      t.setSnap { s.snap with captured := s.snap.captured ++ [n] }
    else s)

/-- SNAP_COMPLETE (R42, R45): every page has captured; a series goes on at the next instant of its grid, or 4 us from now
when grid instants have passed. -/
def execSnapComplete (s : State) : Host.Outcome State Fault Refusal :=
  let x := s.snap
  .next (
    if x.pending && snapSlots.all (fun n => x.captured.contains n) then
      let b := Pg.SNAP
      let s := s.set b SNAP.GEN (nextGen (s.get b SNAP.GEN))
      let s := ((s.set b SNAP.TAKEN_SEC_LO (x.atNs / 10 ^ 9)).set b SNAP.TAKEN_SEC_HI (x.atNs / 10 ^ 9 / 2 ^ 32)).set b
        SNAP.TAKEN_NS (x.atNs % 10 ^ 9)
      if x.periodNs = 0 then s.setSnap { x with pending := false, captured := [] }
      else
        let g := gridAfter x.gridNs x.periodNs x.atNs
        if g < s.nowNs then (s.setSnap { x with atNs := s.nowNs + 4000, captured := [] }).set b SNAP.STAT_LATE 1
        else s.setSnap { x with atNs := g, captured := [] }
    else s)

end Sys2Proof.Machine
end

