-- ==== Sys2Proof/Machine/Align.lean ====
section
/-!
DEFINITION. Machine/Align.lean: alignment instants (R267, R271) and the passing of time while no command waits.
-/

namespace Sys2Proof.Machine

/-- A step applied to the counter and to every shadow (R267, R271): due times move with it (R366), and a pending
snapshot's instant does not (R46). -/
def State.applyStep (s : State) (neg : Bool) (mag : Nat) : State :=
  let d : Int := if neg then -(mag : Int) else mag
  let s : State := { s with clock := { s.clock with cnt := stepped s.clock.cnt neg mag, step := none } }
  let s : State := { s with servo := { s.servo with clk10Shift := d } }
  let s := (((s.set Pg.TIME TIME0.STAT_STEP_PEND 0).set Pg.TIME TIME0.STAT_VALID 1).inc Pg.TIME TIME1.STEPS).evt Pg.TIME 9
  let s := s.moveDue d
  if s.snap.pending then s.set Pg.SNAP SNAP.STAT_STEPPED 1 else s

/-- What takes effect at an alignment instant (R267, R288): a committed increment, a step at the second instant, and the
waveform of CLK10_OUT. -/
def State.atAlign (s : State) : State :=
  let s : State := { s with servo := { s.servo with clk10Shift := 0 } }
  let s : State :=
    match s.clock.incPend with
    | some v => { s with clock := { s.clock with inc := v, incPend := none } }
    | none => s
  let s :=
    match s.clock.step with
    | some g =>
      if g.left ≤ 1 then s.applyStep g.neg g.mag
      else { s with clock := { s.clock with step := some { g with left := g.left - 1 } } }
    | none => s
  (s.setPin Pin.clk10 (s.clk10On && !s.domIsOff .timeio)).plyAlign

/-- `ck_time` cycles between alignment instants. -/
def alignCycles : Nat := 1024

/-- The counter runs on to the next alignment instant, which takes effect. -/
def State.toAlign (s : State) : State :=
  if !s.power.ready then s
  else
    let s := s.elapse (alignCycles - s.clock.phase)
    ({ s with clock := { s.clock with phase := 0 } } : State).atAlign

/-- ALIGNMENT_INSTANT (R267, R271). -/
def execAlignmentInstant (s : State) : Host.Outcome State Fault Refusal := .next s.toAlign

/-- One `ck_time` cycle, in which the demand write-backs that wait are carried out (R396). -/
def State.cycle (s : State) : State :=
  let s := s.writeBacks
  if alignCycles ≤ s.clock.phase + 1 then s.toAlign else s.elapse 1

end Sys2Proof.Machine
end

