-- ==== Sys2Proof/Machine/Mailbox.lean ====
section
/-!
DEFINITION. Machine/Mailbox.lean: the mailbox (R65, R78 to R81, R83) and the moves of a live update (R82 to R86).
-/

namespace Sys2Proof.Machine

/-! ### What each request is served with -/

/-- The command codes of R79. -/
def cmdKnown (c : Nat) : Bool :=
  [0x1, 0x2, 0x3, 0x10, 0x11, 0x12, 0x13, 0x14, 0x15, 0x20, 0x21, 0x22, 0x30, 0x31, 0x32, 0x33, 0x38, 0x39, 0x3A, 0x3B, 0x3C,
    0x40, 0x41, 0x50, 0x51, 0x52, 0x53, 0x54, 0x55, 0x60, 0x61, 0x70, 0x71, 0x72, 0x80, 0x90].contains c

/-- The channel over which the ROM takes a recovery image (R54): none while neither is allowed. -/
def State.recoveryChan (s : State) : Option Chan :=
  let allow := s.fuses.bootSrcAllow.toNat
  let src := s.get Pg.DEV DEV.BOOT_STAT_BOOT_SRC
  if s.bit Pg.DEV DEV.BOOT_STAT_STRAP_DENIED ∨ src = 0 then
    (if allow / 2 % 2 = 1 then some .ch0 else if allow / 4 % 2 = 1 then some .ch1 else none)
  else if src = 1 then some .ch0
  else some .ch1

/-- Firmware started from an accepted image (R54, R76): MEAS1 extended with its signed digest. -/
def State.startFw (s : State) (h : List Byte) : State :=
  let s : State := { s with boot := { s.boot with fw := some (imgInfo h), loading := none, left := [] } }
  (s.measExtend 1 (signedDigest h)).set Pg.DEV DEV.BOOT_STAT_STAGE Stg.fwStart

/-- A whole recovery image checked and run (R66, R68). -/
def State.recoveryImage (s : State) (image : List Byte) : Nat × List Word × State :=
  let s : State := { s with boot := { s.boot with chunks := [] } }
  match s.imageCheck 1 image with
  | some c => (checkStatus c, [], s)
  | none => (Sts.ok, [], s.startFw (image.take 0x140))

/-- RECOVERY_LOAD (R54, R66, R68, R78): not before LPDDR5X, from which the image runs, is trained.  On channel 1 the image
comes in chunks of at most 124 bytes, and the one that ends at the header's total length has it checked, as R191 has it for
NDL_LOAD (log entry 34). -/
def mbxRecoveryLoad (ch : Chan) (off : Nat) (image : List Byte) (s : State) : Nat × List Word × State :=
  if s.stage ≠ Stg.recovery ∨ s.recoveryChan ≠ some ch then (Sts.notPermitted, [], s)
  else if !s.boot.memTrained then (Sts.notReady, [], s)
  else
    match ch with
    | .ch0 => s.recoveryImage image
    | .ch1 =>
      let have_ := putChunk s.boot.chunks off image
      let total := 0x140 + hdrBodyLength (have_.take 0x140)
      if 124 < image.length then (Sts.badArg, [], s)
      else if 0x140 ≤ have_.length ∧ off < total ∧ total ≤ off + image.length then s.recoveryImage (have_.take total)
      else (Sts.ok, [], { s with boot := { s.boot with chunks := have_ } })

/-- Whether channel 1 may issue a request without OOB_FULL (R80). -/
def MbxReq.oobOpen : MbxReq → Bool
  | .unknown _ => true
  | .malformed => true
  | .getInfo => true
  | .getBootLog _ => true
  | .certRead _ => true
  | .quote _ _ => true
  | .measRead _ => true
  | .lineStatus _ => true
  | .timeStatus _ => true
  | .recoveryLoad _ _ => true
  | _ => false

/-- Whether a request is answered before FW_READY (R65). -/
def MbxReq.early (stage : Nat) : MbxReq → Bool
  | .getInfo => true
  | .getBootLog _ => true
  | .recoveryLoad _ _ => decide (stage = Stg.recovery)
  | _ => false

/-- A request carried out: its STATUS and response words, or none when its response comes later (R79). -/
def State.serve (s : State) (a : Asker) (r : MbxReq) : Option (Nat × List Word) × State :=
  let now := fun (x : Nat × List Word × State) => (some (x.1, x.2.1), x.2.2)
  if !s.fwIsReady && !MbxReq.early s.stage r then (some (Sts.notReady, []), s)
  else if a.ch = .ch1 ∧ s.fuses.oobFull = false ∧ MbxReq.oobOpen r = false then (some (Sts.notPermitted, []), s)
  else
    match r with
    | .unknown _ => (some (Sts.unknownCmd, []), s)
    | .getInfo => now (mbxGetInfo s)
    | .malformed => (some (Sts.badArg, []), s)
    | .getBootLog dest => now (mbxGetBootLog a.ch dest s)
    | .recoveryLoad off image => now (mbxRecoveryLoad a.ch off image s)
    | .flashRead off len dest => now (mbxFlashRead a.ch off len dest s)
    | .flashErase g sector count => now (mbxFlashErase g sector count s)
    | .flashWrite g off data => now (mbxFlashWrite a.ch g off data s)
    | .imageVerify b => now (mbxImageVerify b s)
    | .bankSelect b m => now (mbxBankSelect b m s)
    | .rollbackCommit t => now (mbxRollbackCommit t.val s)
    | .updateStart => now (mbxUpdateStart s)
    | .updateStatus => now (mbxUpdateStatus s)
    | .updateAbort => now (mbxUpdateAbort s)
    | .certRead dest => now (mbxCertRead a.ch dest s)
    | .quote nonce dest => now (mbxQuote a.ch nonce dest s)
    | .measExtend reg input => now (mbxMeasExtend reg.val input s)
    | .measRead dest => now (mbxMeasRead a.ch dest s)
    | .fuseRead bit count => now (mbxFuseRead bit count s)
    | .fuseProgram bit data temp ok => now (mbxFuseProgram bit data temp ok s)
    | .protectAdvance p => now (mbxProtectAdvance p s)
    | .debugChallenge => now (mbxDebugChallenge s)
    | .debugResponse slot pk sig => now (mbxDebugResponse slot pk sig s)
    | .random n => now (mbxRandom n s)
    | .rootkeyLoad args => now (mbxRootkeyLoad args s)
    | .lineConfig args => now (mbxLineConfig args s)
    | .lineCastOn args => now (mbxLineCastOn args s)
    | .lineStatus args => now (mbxLineStatus args s)
    | .lineMute args => now (mbxLineMute a.ch args s)
    | .dualhomeConfig args => now (mbxDualhomeConfig args s)
    | .apsCommand args => now (mbxApsCommand args s)
    | .timeConfig args => now (mbxTimeConfig args s)
    | .timeStatus _ => now (mbxTimeStatus s)
    | .ndlLoad args image => now (mbxNdlLoad a.ch args image s)
    | .ndlAssign args => now (mbxNdlAssign args s)
    | .ndlStatus => now (mbxNdlStatus s)
    | .plyConfig args => now (mbxPlyConfig args s)
    | .powerRequest args =>
      match powerRequest a args s with
      | (some st, t) => (some (st, []), t)
      | (none, t) => (none, t)

/-- A request served and answered. -/
def State.serveReq (s : State) (a : Asker) (r : MbxReq) : State :=
  match s.serve a r with
  | (some (st, ws), t) => t.respond a.ch a.tag a.mute st ws
  | (none, t) => t

/-- The only source that reaches a channel. -/
def chanSource : Chan → Source
  | .ch0 => .pf0
  | .ch1 => .mgmt

/-- A request submitted with GO (R78, R83): ignored while the channel is BUSY, held while core 0 moves. -/
def State.submit (s : State) (ch : Chan) (tag : Byte) (r : MbxReq) : State :=
  let b := Pg.HOOK ch
  let a := b + HOOK.MBX_CTRL.off
  match s.accessReg (chanSource ch) a true with
  | .rejected p x => s.refuse (chanSource ch) p x true a
  | .ok _ =>
    if s.bit b HOOK.MBX_STAT_BUSY then s.set b HOOK.MBX_STAT_OVERRUN 1
    else
      let s := s.set b HOOK.MBX_STAT_BUSY 1
      if s.upd.active && decide (s.upd.phase = .moving 0) then { s with mbxHeld := s.mbxHeld ++ [⟨ch, tag, r, false⟩] }
      else s.serveReq ⟨ch, tag, false⟩ r

/-- The requests held while core 0 moved are served (R83). -/
def State.serveHeld (s : State) : State :=
  let hs := s.mbxHeld
  let t : State := { s with mbxHeld := [] }
  let t := (t.set (Pg.HOOK .ch0) HOOK.MBX_STAT_PAUSED 0).set (Pg.HOOK .ch1) HOOK.MBX_STAT_PAUSED 0
  hs.foldl (fun s h => s.serveReq ⟨h.ch, h.tag, h.mute⟩ h.req) t

/-! ### Meanings: mailbox -/

/-! ### The request that stands in `MBX_REQ` (R78, R79)

The chapters lay out the argument words of the commands they own.  For the commands of chapter 3 no layout is given:
DESIGN CHOICE, the arguments stand in the order of their row, a 64-bit host address as two words, low half first (log
entry 34). -/

/-- A 64-bit argument from word `k` on. -/
def argAddr (ws : List Word) (k : Nat) : Nat := argWord ws k + argWord ws (k + 1) * 2 ^ 32

/-- A bank, a region of the flash and a mode by their codes. -/
def bankArg : Nat → Option Bank
  | 0 => some .bankA
  | 1 => some .bankB
  | _ => none
def regionArg : Nat → Option FlashRegion
  | 0 => some (.bank .bankA)
  | 1 => some (.bank .bankB)
  | 2 => some .config
  | _ => none
def modeArg (mode tries : Nat) : Option BankMode :=
  if mode = 0 then some .confirm else if h : mode = 1 ∧ tries < 8 then some (.trial ⟨tries, h.2⟩) else none

/-- The set-up that a word in the layout of `SEC.PROTECT` asks for (R59). -/
def protectArg (w : Nat) : ProtectReq :=
  ⟨BitVec.ofNat 2 (w / 2 ^ 10), BitVec.ofNat 4 (w / 2 ^ 12), decide (w / 2 ^ 9 % 2 = 1), decide (w / 2 ^ 8 % 2 = 1),
    decide (w / 2 ^ 7 % 2 = 1)⟩

/-- Data that a request brings (R78): by DMA from a host address on channel 0, in the request on channel 1. -/
def State.argData (s : State) (ch : Chan) (len addr : Nat) (inline : List Byte) : List Byte :=
  match ch with
  | .ch0 => (List.range len).map (fun k => Config.hostByte s.free (addr + k))
  | .ch1 => inline

/-- The commands of chapter 3 by their codes and argument words; `bs` are the argument bytes. -/
def State.reqTrust (s : State) (ch : Chan) (code : Nat) (ws : List Word) (bs : List Byte) : Option MbxReq :=
  let w := argWord ws
  match code with
  | 0x01 => some .getInfo
  | 0x02 => some (.getBootLog (argAddr ws 1))
  | 0x03 => some (.recoveryLoad (if ch = .ch0 then 0 else w 1) (s.argData ch (w 3) (argAddr ws 1) (bs.drop 4)))
  | 0x10 => some (.flashRead (w 1) (w 2) (argAddr ws 3))
  | 0x11 => (regionArg (w 1)).map (fun r => .flashErase r (w 2) (w 3))
  | 0x12 => (regionArg (w 1)).map (fun r => .flashWrite r (w 2) (s.argData ch (w 3) (argAddr ws 4) (bs.drop 8)))
  | 0x13 => (bankArg (w 1)).map .imageVerify
  | 0x14 => (bankArg (w 1)).bind (fun b => (modeArg (w 2) (w 3)).map (fun m => .bankSelect b m))
  | 0x15 => if h : 1 ≤ w 1 ∧ w 1 < 5 then some (.rollbackCommit ⟨w 1 - 1, by omega⟩) else none
  | 0x20 => some .updateStart
  | 0x21 => some .updateStatus
  | 0x22 => some .updateAbort
  | 0x30 => some (.certRead (argAddr ws 1))
  | 0x31 => some (.quote (bs.take 32) (argAddr ws 9))
  | 0x32 => if h : 4 ≤ w 1 ∧ w 1 < 8 then some (.measExtend ⟨w 1 - 4, by omega⟩ ((bs.drop 4).take 64)) else none
  | 0x33 => some (.measRead (argAddr ws 1))
  | 0x38 => some (.fuseRead (w 1) (w 2))
  | 0x39 => some (.fuseProgram (w 1) ((List.range (w 2)).map (fun k => (ws.getD (2 + k / 32) 0).getLsbD (k % 32)))
      (Config.caseTemp s.free) (Config.fuseReadBack s.free))
  | 0x3A => some (.protectAdvance (protectArg (w 1)))
  | 0x3B => some .debugChallenge
  | 0x3C =>
    let d := s.argData ch 171 (argAddr ws 2) (bs.drop 4)
    some (.debugResponse (w 1) (d.take 57) (d.drop 57))
  | 0x40 => if w 1 ≤ 64 then some (.random (w 1)) else none
  | 0x41 => some (.rootkeyLoad ws)
  | _ => none

/-- Every command by its code and argument words (R79). -/
def State.reqOf (s : State) (ch : Chan) (code : Nat) (ws : List Word) (bs : List Byte) : MbxReq :=
  match code with
  | 0x50 => .lineConfig ws
  | 0x51 => .lineCastOn ws
  | 0x52 => .lineStatus ws
  | 0x53 => .lineMute ws
  | 0x54 => .dualhomeConfig ws
  | 0x55 => .apsCommand ws
  | 0x60 => .timeConfig ws
  | 0x61 => .timeStatus ws
  | 0x70 => .ndlLoad ws (s.argData ch (argWord ws 4) (argAddr ws 2) [])
  | 0x71 => .ndlAssign ws
  | 0x72 => .ndlStatus
  | 0x80 => .plyConfig ws
  | 0x90 => .powerRequest ws
  | c =>
    match s.reqTrust ch c ws bs with
    | some r => r
    | none => if cmdKnown c then .malformed else .unknown (BitVec.ofNat 16 c)

/-- The request that stands in `MBX_REQ` under a command code, with LENGTH argument bytes (R78). -/
def State.reqHeld (s : State) (ch : Chan) (code : Nat) : MbxReq :=
  let b := Pg.HOOK ch
  let n := s.get b ⟨0x080, 16, 8⟩
  let bs := (bytesOfWords (s.rdWords (b + 0x084) 31)).take n
  if 124 < n then .malformed else s.reqOf ch code (leWords ((n + 3) / 4) bs) bs

/-- GO (R78): the request in `MBX_REQ` is submitted; while BUSY it is ignored and sets OVERRUN. -/
def State.mbxGo (s : State) (ch : Chan) : State :=
  let b := Pg.HOOK ch
  (s.submit ch (BitVec.ofNat 8 (s.get b ⟨0x080, 24, 8⟩)) (s.reqHeld ch (s.get b ⟨0x080, 0, 16⟩))).takeFree

/-- MBX_OVERRUN (R78): GO written while BUSY; a channel that is not busy takes the request that stands in `MBX_REQ`. -/
def execMbxOverrun (ch : Chan) (s : State) : Host.Outcome State Fault Refusal :=
  .next (s.mbxGo ch)

/-- UNKNOWN_CMD (R81); a code of R79 is its command, with the arguments that stand in `MBX_REQ`. -/
def execUnknownCmd (ch : Chan) (tag : Byte) (code : BitVec 16) (s : State) : Host.Outcome State Fault Refusal :=
  .next (if cmdKnown code.toNat then (s.submit ch tag (s.reqHeld ch code.toNat)).takeFree else s.submit ch tag (.unknown code))

/-- GET_INFO (R79). -/
def execGetInfo (ch : Chan) (tag : Byte) (s : State) : Host.Outcome State Fault Refusal := .next (s.submit ch tag .getInfo)

/-- GET_BOOT_LOG (R79). -/
def execGetBootLog (ch : Chan) (req : LogRequest) (s : State) : Host.Outcome State Fault Refusal :=
  .next (s.submit ch req.tag (.getBootLog req.dest.toNat))

/-- RECOVERY_LOAD (R66). -/
def execRecoveryLoad (ch : Chan) (tag : Byte) (image : ImageChunk) (s : State) : Host.Outcome State Fault Refusal :=
  .next (s.submit ch tag (.recoveryLoad image.offset.toNat image.bytes))

/-- FLASH_READ (R79). -/
def execFlashRead (ch : Chan) (tag : Byte) (offset : BitVec 25) (length : BitVec 26) (dest : Word64) (s : State) :
    Host.Outcome State Fault Refusal :=
  .next (s.submit ch tag (.flashRead offset.toNat length.toNat dest.toNat))

/-- FLASH_ERASE (R79). -/
def execFlashErase (ch : Chan) (tag : Byte) (r : FlashRegion) (sector : Fin 240) (count : Fin 241) (s : State) :
    Host.Outcome State Fault Refusal :=
  .next (s.submit ch tag (.flashErase r sector.val count.val))

/-- FLASH_WRITE (R79). -/
def execFlashWrite (ch : Chan) (tag : Byte) (r : FlashRegion) (offset : BitVec 24) (data : List Byte) (s : State) :
    Host.Outcome State Fault Refusal :=
  .next (s.submit ch tag (.flashWrite r offset.toNat data))

/-- IMAGE_VERIFY (R79). -/
def execImageVerify (ch : Chan) (tag : Byte) (b : Bank) (s : State) : Host.Outcome State Fault Refusal :=
  .next (s.submit ch tag (.imageVerify b))

/-- BANK_SELECT (R72). -/
def execBankSelect (ch : Chan) (tag : Byte) (b : Bank) (m : BankMode) (s : State) : Host.Outcome State Fault Refusal :=
  .next (s.submit ch tag (.bankSelect b m))

/-- ROLLBACK_COMMIT (R73). -/
def execRollbackCommit (ch : Chan) (tag : Byte) (type : Fin 4) (s : State) : Host.Outcome State Fault Refusal :=
  .next (s.submit ch tag (.rollbackCommit type))

/-- UPDATE_START (R82). -/
def execUpdateStart (ch : Chan) (tag : Byte) (s : State) : Host.Outcome State Fault Refusal := .next (s.submit ch tag .updateStart)

/-- UPDATE_STATUS (R79). -/
def execUpdateStatus (ch : Chan) (tag : Byte) (s : State) : Host.Outcome State Fault Refusal :=
  .next (s.submit ch tag .updateStatus)

/-- UPDATE_ABORT (R79). -/
def execUpdateAbort (ch : Chan) (tag : Byte) (s : State) : Host.Outcome State Fault Refusal := .next (s.submit ch tag .updateAbort)

/-- CERT_READ (R75). -/
def execCertRead (ch : Chan) (tag : Byte) (dest : Word64) (s : State) : Host.Outcome State Fault Refusal :=
  .next (s.submit ch tag (.certRead dest.toNat))

/-- QUOTE (R77). -/
def execQuote (ch : Chan) (tag : Byte) (nonce : BitVec 256) (dest : Word64) (s : State) : Host.Outcome State Fault Refusal :=
  .next (s.submit ch tag (.quote (leBytes 32 nonce.toNat) dest.toNat))

/-- MEAS_EXTEND (R76). -/
def execMeasExtend (ch : Chan) (tag : Byte) (reg : Fin 4) (input : BitVec 512) (s : State) : Host.Outcome State Fault Refusal :=
  .next (s.submit ch tag (.measExtend reg (leBytes 64 input.toNat)))

/-- MEAS_READ (R79). -/
def execMeasRead (ch : Chan) (tag : Byte) (dest : Word64) (s : State) : Host.Outcome State Fault Refusal :=
  .next (s.submit ch tag (.measRead dest.toNat))

/-- FUSE_READ (R55). -/
def execFuseRead (ch : Chan) (tag : Byte) (bit : BitVec 14) (count : BitVec 10) (s : State) : Host.Outcome State Fault Refusal :=
  .next (s.submit ch tag (.fuseRead bit.toNat count.toNat))

/-- FUSE_PROGRAM (R57). -/
def execFuseProgram (ch : Chan) (tag : Byte) (bit : BitVec 14) (data : List Bool) (caseTemp : Int) (readBackOk : Bool)
    (s : State) : Host.Outcome State Fault Refusal :=
  .next (s.submit ch tag (.fuseProgram bit.toNat data caseTemp readBackOk))

/-- PROTECT_ADVANCE (R59). -/
def execProtectAdvance (ch : Chan) (tag : Byte) (req : ProtectReq) (s : State) : Host.Outcome State Fault Refusal :=
  .next (s.submit ch tag (.protectAdvance req))

/-- DEBUG_CHALLENGE (R60). -/
def execDebugChallenge (ch : Chan) (tag : Byte) (s : State) : Host.Outcome State Fault Refusal :=
  .next (s.submit ch tag .debugChallenge)

/-- DEBUG_RESPONSE (R60). -/
def execDebugResponse (ch : Chan) (tag : Byte) (keySlot : Byte) (publicKey : BitVec 456) (signature : BitVec 912) (s : State) :
    Host.Outcome State Fault Refusal :=
  .next (s.submit ch tag (.debugResponse keySlot.toNat (leBytes 57 publicKey.toNat) (leBytes 114 signature.toNat)))

/-- RANDOM (R87). -/
def execRandom (ch : Chan) (tag : Byte) (count : Fin 65) (s : State) : Host.Outcome State Fault Refusal :=
  .next (s.submit ch tag (.random count.val))

/-- ROOTKEY_LOAD (R463). -/
def execRootkeyLoad (ch : Chan) (tag : Byte) (args : List Word) (s : State) : Host.Outcome State Fault Refusal :=
  .next (s.submit ch tag (.rootkeyLoad args))

/-- LINE_CONFIG (R261). -/
def execLineConfig (ch : Chan) (tag : Byte) (args : List Word) (s : State) : Host.Outcome State Fault Refusal :=
  .next (s.submit ch tag (.lineConfig args))

/-- LINE_CAST_ON (R261). -/
def execLineCastOn (ch : Chan) (tag : Byte) (args : List Word) (s : State) : Host.Outcome State Fault Refusal :=
  .next (s.submit ch tag (.lineCastOn args))

/-- LINE_STATUS (R262). -/
def execLineStatus (ch : Chan) (tag : Byte) (args : List Word) (s : State) : Host.Outcome State Fault Refusal :=
  .next (s.submit ch tag (.lineStatus args))

/-- LINE_MUTE (R251). -/
def execLineMute (ch : Chan) (tag : Byte) (args : List Word) (s : State) : Host.Outcome State Fault Refusal :=
  .next (s.submit ch tag (.lineMute args))

/-- DUALHOME_CONFIG (R252). -/
def execDualhomeConfig (ch : Chan) (tag : Byte) (args : List Word) (s : State) : Host.Outcome State Fault Refusal :=
  .next (s.submit ch tag (.dualhomeConfig args))

/-- APS_COMMAND (R261). -/
def execApsCommand (ch : Chan) (tag : Byte) (args : List Word) (s : State) : Host.Outcome State Fault Refusal :=
  .next (s.submit ch tag (.apsCommand args))

/-- TIME_CONFIG (R300). -/
def execTimeConfig (ch : Chan) (tag : Byte) (args : List Word) (s : State) : Host.Outcome State Fault Refusal :=
  .next (s.submit ch tag (.timeConfig args))

/-- TIME_STATUS (R301). -/
def execTimeStatus (ch : Chan) (tag : Byte) (args : List Word) (s : State) : Host.Outcome State Fault Refusal :=
  .next (s.submit ch tag (.timeStatus args))

/-- NDL_LOAD (R191). -/
def execNdlLoad (ch : Chan) (tag : Byte) (args : List Word) (image : List Byte) (s : State) : Host.Outcome State Fault Refusal :=
  .next (s.submit ch tag (.ndlLoad args image))

/-- NDL_ASSIGN (R192). -/
def execNdlAssign (ch : Chan) (tag : Byte) (args : List Word) (s : State) : Host.Outcome State Fault Refusal :=
  .next (s.submit ch tag (.ndlAssign args))

/-- NDL_STATUS (R193). -/
def execNdlStatus (ch : Chan) (tag : Byte) (s : State) : Host.Outcome State Fault Refusal := .next (s.submit ch tag .ndlStatus)

/-- PLY_CONFIG (R521): OP in its first word says whether it also takes or yields. -/
def execPlyConfig (ch : Chan) (tag : Byte) (args : List Word) (s : State) : Host.Outcome State Fault Refusal :=
  .next (s.submit ch tag (.plyConfig args))

/-- PLY_TAKE (R519, R521): PLY_CONFIG with OP TAKE. -/
def execPlyTake (ch : Chan) (tag : Byte) (args : List Word) (s : State) : Host.Outcome State Fault Refusal :=
  .next (s.submit ch tag (.plyConfig args))

/-- PLY_YIELD (R519, R521): PLY_CONFIG with OP YIELD. -/
def execPlyYield (ch : Chan) (tag : Byte) (args : List Word) (s : State) : Host.Outcome State Fault Refusal :=
  .next (s.submit ch tag (.plyConfig args))

/-- POWER_REQUEST (R484 to R486). -/
def execPowerRequest (ch : Chan) (tag : Byte) (args : List Word) (s : State) : Host.Outcome State Fault Refusal :=
  .next (s.submit ch tag (.powerRequest args))

/-! ### Meanings: live update (R82 to R85) -/

/-- The core that moves next: 3, 2, 1, 0. -/
def State.nextCore (s : State) : Nat := 3 - s.upd.moved.length

/-- The line port whose management a Hook core runs. -/
def corePort (c : Nat) : Option Port := if c = 1 then some .portA else if c = 2 then some .portB else none

/-- Whether a core must wait (R84): its port is in ANNOUNCE, RANGE or PROVE. -/
def State.coreWaits (s : State) (c : Nat) : Bool :=
  match corePort c with
  | some p => decide (s.regSt p = RegSt.announce) || decide (s.regSt p = RegSt.range) || decide (s.regSt p = RegSt.prove)
  | none => false

/-- CORE_MOVE_START (R82 to R84). -/
def execCoreMoveStart (core : Fin 4) (s : State) : Host.Outcome State Fault Refusal :=
  .next (
    if s.updating && !s.upd.active && decide (core.val = s.nextCore) then
      if s.coreWaits core.val then { s with upd := { s.upd with phase := .waitCaston } }
      else
        let s : State := { s with upd := { s.upd with phase := .moving core.val, active := true } }
        if core.val = 0 then (s.set (Pg.HOOK .ch0) HOOK.MBX_STAT_PAUSED 1).set (Pg.HOOK .ch1) HOOK.MBX_STAT_PAUSED 1 else s
    else s)

/-- Whether a bank holds a vendor kernel set other than the one loaded (R85). -/
def State.newKernels (s : State) (b : Bank) : Bool :=
  s.flashMagic (s.bankSecond b) &&
    decide (s.boot.kernels.map ImgInfo.digest ≠ some (signedDigest (s.flashBytes (s.bankSecond b) 0x140)))

/-- The update is done (R85): MEAS1 is extended, the boot record names the new bank as CONFIRMED, and a new vendor kernel
set in the bank and its boot configuration are loaded. -/
def State.updateDone (s : State) : State :=
  match s.upd.bank, s.upd.img with
  | some b, some i =>
    let s : State := { s with boot := { s.boot with fw := some i }, upd := ⟨.done, none, none, [], false, false⟩ }
    let s := ((s.measExtend 1 i.digest).writeRecord b false 0).bootLog updateDoneStep b.num
    (if s.newKernels b then s.loadKernels b else s).loadConfig b
  | _, _ => s

/-- CORE_MOVE_COMPLETE (R83 to R85): what waited for the move is done. -/
def execCoreMoveComplete (core : Fin 4) (passed : Bool) (s : State) : Host.Outcome State Fault Refusal :=
  .next (
    if s.upd.active && decide (s.upd.phase = .moving core.val) then
      if core.val = 0 then (if passed then s.updateDone else s.updateRollBack).serveHeld
      else
        let s :=
          if !passed || s.upd.aborting then s.updateRollBack
          else { s with upd := { s.upd with phase := .moving (core.val - 1), active := false, moved := s.upd.moved ++ [core.val] } }
        match corePort core.val with
        | some p => s.serveDue p
        | none => s
    else s)

end Sys2Proof.Machine
end

