-- ==== Sys2Proof/Machine/Boot.lean ====
section
/-!
DEFINITION. Machine/Boot.lean: resets (R49 to R53, R528, R529) and the boot sequence (R54, R63 to R73).
-/

namespace Sys2Proof.Machine

/-! ### Resets (R49 to R51) -/

/-- Whether a register lies in the holder domain, and outlives a device reset (R49, R493, R499). -/
def inHolder (addr : Nat) : Bool :=
  decide (Pg.HOLD ≤ addr ∧ addr < Pg.HOLD + 0x1000) || decide (addr = Pg.DEV + DEV.RESET_CAUSE.off)

/-- A line port after a reset: the pins of its optics and the remote mute stay (R251). -/
def LinePort.again (x : LinePort) : LinePort :=
  let r := LinePort.reset
  { r with modem := { r.modem with absent := x.modem.absent, fault := x.modem.fault },
           reg := { r.reg with muteRemote := x.reg.muteRemote } }

/-- The straps sampled (R53). -/
def State.sampleStraps (s : State) (x : Straps) : State :=
  (s.set Pg.DEV DEV.BOOT_STAT_BOOT_SRC x.bootSrc.toNat).setBit Pg.DEV DEV.BOOT_STAT_TWIN_ID x.twinId

/-- What shows pins of the board, shown again from them. -/
def State.showPins (s t : State) : State :=
  let t := (t.optPins .portA).optPins .portB
  let t := (List.finRange 4).foldl (fun t n =>
    t.set (Pg.SITE n) SITE.STAT_MOD_PRESENT (s.get (Pg.SITE n) SITE.STAT_MOD_PRESENT)) t
  t.set Pg.PLY PLY.TKO_STAT_SERVE_IN (s.get Pg.PLY PLY.TKO_STAT_SERVE_IN)

/-- What every reset of the main domains leaves: fuses, flash, the record of darned rows and the remote mutes (R55, R69,
R251, R405), and the model's own fields. -/
def State.mainReset (s : State) : State :=
  let r := State.reset
  { r with
    fuses := s.fuses
    flash := s.flash
    mem := { r.mem with record := s.mem.record }
    scan := s.scan
    lineA := s.lineA.again
    lineB := s.lineB.again
    free := s.free
    out := s.out
    pending := s.pending }

/-- The effects of a device reset (R49, R51, R53): every domain but the holder, whose page keeps its latches and staging registers (R31); the counter runs on with the increment in
force and no step is applied. -/
def State.deviceReset (s : State) (x : Straps) : State :=
  let r := s.mainReset
  let t : State := { r with
    regs := s.regs.filter (fun kv => inHolder kv.1)
    snapView := s.snapView.filter (fun kv => inHolder kv.1)
    latches := s.latches.filter (fun kv => decide (kv.1 / 512 = Pg.HOLD / 0x1000))
    staging := s.staging.filter (fun kv => decide (kv.1 / 512 = Pg.HOLD / 0x1000))
    clock := { s.clock with incPend := none, step := none }
    boot := { r.boot with count := s.boot.count }
    pins := SMap.set (fun _ => false) [] Pin.mainEn (s.pin Pin.mainEn)
    power := { r.power with since := s.power.since, alarm := s.power.alarm, ready := s.power.ready, vholdB := s.power.vholdB } }
  let t := t.set Pg.HOLD HOLD.WAKE_LATCH 0
  let t := ((t.set Pg.TIME TIME0.STAT_VALID (s.get Pg.TIME TIME0.STAT_VALID)).set Pg.TIME TIME0.STAT_TREF_CODE
    (s.get Pg.TIME TIME0.STAT_TREF_CODE)).set Pg.TIME TIME0.STAT_TREF_LOST (s.get Pg.TIME TIME0.STAT_TREF_LOST)
  let t := (s.showPins t).sampleStraps x
  if s.pstate = Pst.full then t else t.enterState Pst.full

/-- The bit of `DEV.RESET_CAUSE` for a cause. -/
def ResetCause.fld : ResetCause → Fld
  | .pin => DEV.RESET_CAUSE_PIN
  | .supply => DEV.RESET_CAUSE_SUPPLY
  | .software => DEV.RESET_CAUSE_SOFTWARE
  | .watchdog => DEV.RESET_CAUSE_WATCHDOG

/-- A device reset by one of its triggers; in KEEP and OFF the main domains are not powered. -/
def State.resetBy (s : State) (c : ResetCause) (x : Straps) : State :=
  if s.power.off ∨ s.pstate = Pst.keep then s else (s.deviceReset x).set Pg.DEV (ResetCause.fld c) 1

/-- COLD_RESET (R49, R53, R266): everything, with the holder not yet ready. -/
def execColdReset (straps : Straps) (supplyA supplyB : Bool) (s : State) : Host.Outcome State Fault Refusal :=
  let t := s.mainReset
  let t := ((t.setBit Pg.HOLD HOLD.SUPPLY_A_OK supplyA).setBit Pg.HOLD HOLD.SUPPLY_B_OK supplyB).setBit Pg.HOLD
    HOLD.SUPPLY_ON_B (!supplyA && supplyB)
  let t : State := { t with power := { t.power with vholdB := if supplyB then 2850 else 0 } }
  let t : State := { t with scan := false }
  .next (if supplyA || supplyB then (s.showPins t).sampleStraps straps else s)

/-- DEVICE_RESET (R49). -/
def execDeviceReset (cause : ResetCause) (straps : Straps) (s : State) : Host.Outcome State Fault Refusal :=
  .next (s.resetBy cause straps)

/-- RESET_CTRL_DEVICE (R49). -/
def execResetCtrlDevice (src : Source) (key : BitVec 16) (straps : Straps) (s : State) : Host.Outcome State Fault Refusal :=
  let a := Pg.DEV + DEV.RESET_CTRL.off
  .next (match s.accessReg src a true with
    | .rejected p r => s.refuse src p r true a
    | .ok _ => if key = 0x5A3C then s.resetBy .software straps else s.refuse src Pg.DEV .badCommand true a)

/-- MAIN_SUPPLY_FAULT (R529): no fault while PWR_MAIN_EN is low. -/
def execMainSupplyFault (straps : Straps) (s : State) : Host.Outcome State Fault Refusal :=
  .next (if s.bit Pg.HOLD HOLD.SUPPLY_MAIN_EN then ((s.cutBurst .portA).cutBurst .portB).resetBy .supply straps else s)

/-- HOLDER_READY (R266, R286, R528): the counter runs, PWR_MAIN_EN goes high and the main domains may boot. -/
def execHolderReady (tref : Fin 16) (s : State) : Host.Outcome State Fault Refusal :=
  .next (
    if s.power.ready || s.power.off then s
    else
      let s := ((s.set Pg.HOLD HOLD.SUPPLY_MAIN_EN 1).setPin Pin.mainEn true).set Pg.TIME TIME0.STAT_TREF_CODE tref.val
      { s with power := { s.power with ready := true, since := s.clock.cycles } })

/-- MAIN_RAILS_VALID (R492): the wake from KEEP ends in a boot; raises that the holder has latched are replayed (R456, R491). -/
def execMainRailsValid (straps : Straps) (s : State) : Host.Outcome State Fault Refusal :=
  .next (
    if s.power.waking && decide (s.pstate = Pst.keep) then
      let t := s.deviceReset straps
      ({ t with power := { t.power with replay := s.power.replay } } : State).replayAll
    else s)

/-- PCIE_RESET (R50, R474): every effect of an FLR of PF0 and of every other function; the link and the configuration space;
firmware's look-aside jobs end too. -/
def execPcieReset (s : State) : Host.Outcome State Fault Refusal :=
  let s := s.pf0Flr.laFwFreed
  let fns := s.pcie.fns.map (fun kv => (kv.1, { fnHostReset kv.1 with epoch := kv.2.epoch }))
  .next (({ s with pcie := { s.pcie with
      ptmEn := true, link := .reset, speed := 0, width := 0, held := [], irqWait := []
      fns := fns.filter (fun kv => decide (kv.2 ≠ fnHostReset kv.1)) } } : State).set Pg.DEV DEV.RESET_CAUSE_PCIE 1)

/-- HOOK_WATCHDOG_EXPIRY (R52): the core restarts; a second expiry within 60 s is a device reset. -/
def execHookWatchdogExpiry (core : Fin 4) (straps : Straps) (s : State) : Host.Outcome State Fault Refusal :=
  let again := match SMap.get (fun _ => none) s.watchdog core.val with
    | some c => decide (s.clock.cycles ≤ c + cyclesOf (60 * sec))
    | none => false
  .next (
    if again then s.resetBy .watchdog straps
    else { s with watchdog := SMap.set (fun _ => none) s.watchdog core.val (some s.clock.cycles),
                  restarting := SMap.set (fun _ => false) s.restarting core.val true })

/-! ### Boot (R54, R63 to R73) -/

/-- The banks tried in turn: the first whose header passes checks 1 to 5 of R68 is loaded; with none left, RECOVERY (R66,
R72), where no bank has booted.  `named` is the bank that the record names, with whether it is on trial. -/
def State.tryBanks (s : State) (named : Bank) (trial : Bool) : List Bank → State
  | [] =>
    let s := ({ s with boot := { s.boot with loading := none, left := [] } } : State).set Pg.DEV DEV.BOOT_STAT_BANK 0
    ((s.set Pg.DEV DEV.BOOT_STAT_TRIAL 0).set Pg.DEV DEV.BOOT_STAT_FALLBACK 0).set Pg.DEV DEV.BOOT_STAT_STAGE Stg.recovery
  | b :: bs =>
    match s.headerCheck 1 (s.bankHeader b) with
    | some c => ((s.set Pg.DEV DEV.BOOT_STAT_FAIL_CODE c).bootLog b.num c).tryBanks named trial bs
    | none =>
      let s : State := { s with boot := { s.boot with loading := some b, left := bs } }
      let s := (s.set Pg.DEV DEV.BOOT_STAT_BANK b.num).setBit Pg.DEV DEV.BOOT_STAT_TRIAL (trial && decide (b = named))
      s.setBit Pg.DEV DEV.BOOT_STAT_FALLBACK (decide (b ≠ named))

/-- The bank a boot record names, and whether it is on trial. -/
def recBank (r : List Byte) : Bank := if hdrField r 8 1 = 1 then .bankB else .bankA
def recTrial (r : List Byte) : Bool := decide (hdrField r 9 1 = 1)

/-- The choice of the bank (R71, R72). -/
def State.chooseBank (s : State) : State :=
  match s.recordInForce.1 with
  | none => s.tryBanks .bankA false [.bankA, .bankB]
  | some r =>
    let b := recBank r
    let tries := hdrField r 0xA 1
    if !recTrial r then s.tryBanks b false [b, b.other]
    else if tries = 0 then s.tryBanks b true [b.other]
    else (s.writeRecord b true (tries - 1)).tryBanks b true [b, b.other]

/-- BOOT_START (R54, R71, R72, R76, R87, R528): once the holder is ready. -/
def execBootStart (s : State) : Host.Outcome State Fault Refusal :=
  .next (
    if s.power.ready && decide (s.stage = Stg.fuseLoad) && !s.domIsOff .core then
      let src := s.get Pg.DEV DEV.BOOT_STAT_BOOT_SRC
      let twin := s.get Pg.DEV DEV.BOOT_STAT_TWIN_ID
      let s : State := { s with boot := { s.boot with count := s.boot.count + 1 } }
      let s := (s.measExtend 0 (Crypto.shake256 64 (Config.meas0Bytes s.protectWord src twin))).startupTest
      let s := s.set Pg.DEV DEV.BOOT_STAT_STAGE Stg.rom
      let denied := decide (src = 3) || decide (s.fuses.bootSrcAllow.toNat / 2 ^ src % 2 = 0)
      let s := s.setBit Pg.DEV DEV.BOOT_STAT_STRAP_DENIED denied
      if denied || decide (src = 0) then s.chooseBank else s.set Pg.DEV DEV.BOOT_STAT_STAGE Stg.recovery
    else s)

/-- MEMORY_TRAINING_COMPLETE (R66). -/
def execMemoryTrainingComplete (ok : Bool) (s : State) : Host.Outcome State Fault Refusal :=
  .next (
    if (s.stage = Stg.rom ∨ s.stage = Stg.recovery) ∧ s.boot.memTrained = false then
      if ok then
        let s : State := { s with boot := { s.boot with memTrained := true } }
        if s.stage = Stg.rom then s.set Pg.DEV DEV.BOOT_STAT_STAGE Stg.imageLoad else s
      else
        (({ s with boot := { s.boot with memFailed := true } } : State).set Pg.DEV DEV.BOOT_STAT_FAIL_CODE 8).set Pg.DEV
          DEV.BOOT_STAT_STAGE Stg.halted
    else s)

/-- The body of a bank's firmware image. -/
def State.bankBody (s : State) (b : Bank) : List Byte :=
  s.flashBytes (bankBase b + 0x140) (hdrBodyLength (s.bankHeader b))

/-- IMAGE_LOAD_COMPLETE (R66, R68): the image starts, or the other bank or recovery is tried. -/
def execImageLoadComplete (readOk : Bool) (s : State) : Host.Outcome State Fault Refusal :=
  .next (
    match s.boot.loading with
    | none => s
    | some b =>
      if s.stage ≠ Stg.imageLoad then s
      else
        let fail : Option Nat := if readOk then bodyCheck (s.bankHeader b) (s.bankBody b) else some 7
        match fail with
        | none => s.startFw (s.bankHeader b)
        | some c =>
          let named := if s.bit Pg.DEV DEV.BOOT_STAT_FALLBACK then b.other else b
          ((s.set Pg.DEV DEV.BOOT_STAT_FAIL_CODE c).bootLog b.num c).tryBanks named (s.bit Pg.DEV DEV.BOOT_STAT_TRIAL)
            s.boot.left)

/-- The REMAPs recorded repeated, in their order (R405). -/
def State.repeatRemaps (s : State) : State :=
  let rs := s.mem.record
  let darned := (rs.zipIdx).foldl (fun m x => SMap.set (fun _ => 0) m x.1 (x.2 + 1)) []
  ({ s with mem := { s.mem with darned := darned, used := rs.length } } : State).set Pg.DARN DARN.STAT_USED rs.length

/-- The remote mutes kept over a reset shown in `REG_STAT` again (R262). -/
def State.showMutes (s : State) : State :=
  [Port.portA, .portB].foldl (fun s p => s.setBit (Pg.LFR p) LFR2.REG_STAT_MUTE_REMOTE (s.rg p).muteRemote.isSome) s

/-- FW_READY (R63, R262, R405): the kernel set and the boot configuration are loaded when firmware came from a bank, and
BOOT_READY is raised. -/
def execFwReady (s : State) : Host.Outcome State Fault Refusal :=
  .next (
    if s.stage = Stg.fwStart then
      let b := s.bootedBank
      let s := if s.boot.fw.map ImgInfo.digest = some (signedDigest (s.bankHeader b)) then (s.loadKernels b).loadConfig b else s
      ((s.repeatRemaps.showMutes).set Pg.DEV DEV.BOOT_STAT_STAGE Stg.fwReady).evt Pg.DEV 8
    else s)

end Sys2Proof.Machine
end

