-- ==== Sys2Proof/Machine/Gauge.lean ====
section
/-!
DEFINITION. Machine/Gauge.lean: the Gauge (R304 to R318): nulls, chirp, dispersion, asymmetry, confidence, and the checks
on a fit.  Quantities are exact rationals until a register takes them; where the spec states no rounding, the rounding is
free.
-/

namespace Sys2Proof.Machine

/-! ### Arithmetic -/

/-- A quotient; by zero it is a free value. -/
def overQ (n d : Rat) : Rat := if d = 0 then Config.overZero n else n / d

/-- A rational as a whole number, rounded freely. -/
def roundQ (place : Nat) (q : Rat) : Int := divFree place q.num q.den

/-- π, to 24 places. -/
def piQ : Rat := 3141592653589793238462643 / 1000000000000000000000000

/-- Euler's series of the arctangent, for an argument of at most 1: `z` is x² / (1 + x²), `t` the next term. -/
def eulerSum (z : Rat) : Nat → Nat → Rat → Rat
  | 0, _, _ => 0
  | k + 1, n, t => t + eulerSum z k (n + 1) (t * z * (2 * (n : Rat) + 2) / (2 * (n : Rat) + 3))

/-- arctan(x) / π: in half turns. -/
def atanTurns (x : Rat) : Rat :=
  let small := fun (x : Rat) => eulerSum (x * x / (1 + x * x)) 48 0 (x / (1 + x * x)) / piQ
  if x < -1 then -(1 / 2) - small (1 / x) else if 1 < x then 1 / 2 - small (1 / x) else small x

/-- The greatest α, in units of 2^-12 and of 16 bits signed, whose arctangent is at most `t` half turns. -/
def alphaAt (t : Rat) : Int :=
  (List.range 16).foldl (fun (a : Int) k =>
    let b : Int := a + (2 ^ (15 - k) : Nat)
    if atanTurns ((b : Rat) / 4096) ≤ t then b else a) (-32768)

/-- The whole fourth root of a rational at least 0, rounded freely. -/
def root4 (place : Nat) (q : Rat) : Nat :=
  let m := q.num.toNat / q.den
  let r := Nat.sqrt (Nat.sqrt m)
  if (r ^ 4 : Nat) = q then r else if Config.roundsUp place q.num q.den then r + 1 else r

/-! ### Nulls (R306) -/

/-- A null: its position in subcarriers, and its depth in 10^-6 dB. -/
structure GNull where
  pos : Rat
  depth : Rat
deriving DecidableEq, Repr

/-- The power average of a port (R305) in 10^-6 dB, subcarriers 16 to 1,919: over as many captures as there are, up to 64. -/
def State.powerAverage (s : State) (p : Port) : List Int :=
  let ps := (s.modem p).powers
  ((ps.tail.foldl (List.zipWith (· + ·)) (ps.headD []))).map (fun x => microDb x (2 ^ 32 * ps.length))

/-- Whether the newest capture of the average is more than 1 s old, or there is none (R305). -/
def State.powerStale (s : State) (p : Port) : Bool :=
  (s.modem p).powers.isEmpty || decide (500000000 < s.clock.cycles - (s.modem p).powersAt)

/-- The power of a subcarrier in 10^-6 dB. -/
def obsAt (o : List Int) (k : Nat) : Int := o.getD (k - 16) 0

/-- How far subcarrier k lies below the mean power of subcarriers k − 64 to k − 48 and k + 48 to k + 64 in the band. -/
def obsDepth (o : List Int) (k : Nat) : Rat :=
  let ks := ((List.range 17).map (fun j => k + j - 64) ++ (List.range 17).map (fun j => k + j + 48)).filter
    (fun j => decide (16 ≤ j ∧ j ≤ 1919))
  (((ks.map (obsAt o)).foldl (· + ·) 0 : Int) : Rat) / (ks.length : Rat) - (obsAt o k : Rat)

/-- The lowest subcarrier of each run of subcarriers that are deep enough, in ascending frequency: `best` is the lowest of
the run that reaches up to the subcarrier before. -/
def runMinima (o : List Int) : List Nat → Option (Nat × Nat) → List Nat
  | [], none => []
  | [], some (b, _) => [b]
  | k :: ks, none => runMinima o ks (some (k, k))
  | k :: ks, some (b, last) =>
    if k = last + 1 then runMinima o ks (some (if obsAt o k < obsAt o b then k else b, k))
    else b :: runMinima o ks (some (k, k))

/-- A null refined by the parabola through its 9 subcarriers. -/
def obsRefine (o : List Int) (k : Nat) : GNull :=
  let xs : List Int := (List.range 9).map (fun (j : Nat) => (j : Int) - 4)
  let y := fun (x : Int) => obsAt o (((k : Int) + x).toNat)
  let sum := fun (f : Int → Int) => (((xs.map f).foldl (· + ·) 0 : Int) : Rat)
  let b := sum (fun x => x * y x) / 60
  let a := (sum (fun x => x * x * y x) - sum y * (60 / 9)) / 308
  let pos := (k : Rat) + overQ (-b) (2 * a)
  ⟨(roundQ 306 (pos * 16) : Rat) / 16, obsDepth o k⟩

/-- The nulls of a power average, the first 4 at most; `depth` is NULL_DEPTH in 0.5 dB. -/
def obsNulls (o : List Int) (depth : Nat) : List GNull :=
  let deep := ((List.range 1838).map (· + 49)).filter (fun k => decide (((500000 * depth : Nat) : Rat) ≤ obsDepth o k))
  ((runMinima o deep none).take 4).map (obsRefine o)

/-! ### The model (R307 to R312) -/

/-- The configuration of a fit as it was sampled, in nm, ps/nm²/km and the units of the registers. -/
structure GCfg where
  w : List Word
deriving DecidableEq, Repr

/-- A field of it. -/
def GCfg.f (c : GCfg) (F : Fld) : Nat := F.get (c.w.getD ((F.off - 0x40) / 4) 0)
def GCfg.ld (c : GCfg) : Rat := (c.f GAUGE.MODEL_LAMBDA_DS : Rat) / 10
def GCfg.lu (c : GCfg) : Rat := (c.f GAUGE.MODEL_LAMBDA_US : Rat) / 10
def GCfg.s0 (c : GCfg) : Rat := (c.f GAUGE.FIBRE_S0 : Rat) / 100000
def GCfg.s0Tol (c : GCfg) : Rat := (c.f GAUGE.TOL_S0_TOL : Rat) / 10000
def GCfg.lTol (c : GCfg) : Rat := (c.f GAUGE.TOL_LAMBDA_TOL : Rat) / 10
def GCfg.l0Min4 (c : GCfg) : Rat := ((c.f GAUGE.L0_RANGE_MIN : Rat) / 10) ^ 4
def GCfg.l0Max4 (c : GCfg) : Rat := ((c.f GAUGE.L0_RANGE_MAX : Rat) / 10) ^ 4

/-- The speed of light in m/s. -/
def lightQ : Rat := 299792458

/-- Hz of a position in subcarriers: 23.4375 MHz each. -/
def subHz (pos : Rat) : Rat := pos * 23437500

/-- c / (λd² f²) in ps/nm for a frequency squared in Hz². -/
def GCfg.unitDl (c : GCfg) (f2 : Rat) : Rat := overQ (lightQ * 1000) ((c.ld / 1000000000) ^ 2 * f2)

/-- The least-squares line through (k, f_k²): slope and value at k = 0. -/
def lineFit (ys : List Rat) : Rat × Rat :=
  let n : Rat := ys.length
  let ks : List Rat := (List.range ys.length).map (fun (k : Nat) => (k : Rat))
  let sum := fun (l : List Rat) => l.foldl (· + ·) 0
  let sk := sum ks
  let sy := sum ys
  let a := overQ (n * sum (List.zipWith (· * ·) ks ys) - sk * sy) (n * sum (ks.map (fun k => k * k)) - sk * sk)
  (a, overQ (sy - a * sk) n)

/-- α fitted from two nulls or more (R307, R308), in units of 2^-12. -/
def fitAlpha (ns : List GNull) : Int :=
  let l := lineFit (ns.map (fun x => subHz x.pos ^ 2))
  alphaAt (1 / 2 - overQ l.2 l.1)

/-- α and its CHIRP_SRC with the source that applies first (R307); the source is 0 where α is unknown. -/
def State.chirp (s : State) (p : Port) (c : GCfg) (kept : Option (Nat × Int)) (ns : List GNull) : Nat × Bool × Int :=
  let pub := (s.line p).reg.params
  let flags := (pub.map (fun m => msgField m 0x0E 1)).getD 0
  if flags / 4 % 2 = 1 ∧ c.f GAUGE.CTRL_USE_PUB = 1 then (1, false, toSigned 16 ((pub.map (fun m => msgField m 0x10 2)).getD 0))
  else if 2 ≤ ns.length ∧ c.f GAUGE.CTRL_FIT_CHIRP = 1 then (2, true, fitAlpha ns)
  else
    match kept with
    | some (_, a) => (2, false, a)
    | none =>
      if c.f GAUGE.CHIRP_CFG_VALID = 1 then (3, false, toSigned 16 (c.f GAUGE.CHIRP_CFG_ALPHA)) else (0, false, 0)

/-- DL in ps/nm (R308): from the line where α was fitted in this fit, else the mean over the nulls weighted by depth. -/
def GCfg.dl (c : GCfg) (fitted : Bool) (alpha : Int) (ns : List GNull) : Rat :=
  if fitted then c.unitDl (lineFit (ns.map (fun x => subHz x.pos ^ 2))).1
  else
    let x := atanTurns ((alpha : Rat) / 4096)
    let ds := (List.range ns.length).map (fun k =>
      let z := ns.getD k ⟨0, 0⟩
      (z.depth, c.unitDl (subHz z.pos ^ 2) * ((k : Rat) + 1 / 2 - x)))
    overQ ((ds.map (fun d => d.1 * d.2)).foldl (· + ·) 0) ((ds.map (fun d => d.1)).foldl (· + ·) 0)

/-- The fibre length in km (R309); the delays are in 2^-8 ns. -/
def GCfg.length (c : GCfg) (rtd rx tx : Int) : Rat :=
  ((rtd - rx - tx : Int) : Rat) / 256 / 1000000000 * lightQ / (2 * (1 + (c.f GAUGE.FIBRE_NG : Rat) / 100000)) / 1000

/-- The fourth power of λ0 for a dispersion d in ps/nm/km (R310). -/
def GCfg.l04 (c : GCfg) (s0 d : Rat) : Rat := c.ld ^ 3 * (c.ld - overQ (4 * d) s0)

/-- Δτ in ps/km for the fourth power of λ0: the terms in λ0² of the two squares cancel (R310). -/
def GCfg.dtau (c : GCfg) (s0 l04 : Rat) : Rat :=
  s0 / 8 * (c.ld ^ 2 - c.lu ^ 2 + overQ l04 (c.ld ^ 2) - overQ l04 (c.lu ^ 2))

/-- D(λ) in ps/nm/km. -/
def GCfg.disp (c : GCfg) (l04 lam : Rat) : Rat := c.s0 / 4 * (lam - overQ l04 (lam ^ 3))

/-- The limits of a BOUNDED fit (R311) for a zero-dispersion slope, as fourth powers of λ0. -/
def GCfg.bounds (c : GCfg) (s0 len : Rat) (alpha : Option Int) : Rat × Rat :=
  match alpha with
  | none => (c.l0Min4, c.l0Max4)
  | some a =>
    let dlMax := c.unitDl (subHz 1887 ^ 2) * (1 / 2 - atanTurns ((a : Rat) / 4096))
    (max c.l0Min4 (c.l04 s0 (overQ dlMax len)), c.l0Max4)

/-- A rational's absolute value. -/
def absQ (q : Rat) : Rat := if q < 0 then -q else q

/-- What a fit comes to: the asymmetry and CONF in ps, and the fourth power of λ0. -/
structure GFit where
  asym : Rat
  conf : Rat
  l04 : Rat

/-- The asymmetry as a function of S0, with the linear terms of CONF added to the fit term (R312). -/
def GCfg.finish (c : GCfg) (len : Rat) (asymOf : Rat → Rat) (fitTerm l04 : Rat) : GFit :=
  let a := asymOf c.s0
  let s0Term := max (absQ (asymOf (c.s0 + c.s0Tol) - a)) (absQ (asymOf (c.s0 - c.s0Tol) - a))
  ⟨a, fitTerm + s0Term + len * absQ (c.disp l04 c.ld) * c.lTol + len * absQ (c.disp l04 c.lu) * c.lTol, l04⟩

/-- NULL mode (R310, R312): the fit term is what twice the standard deviation of DL moves the asymmetry by. -/
def GCfg.nullFit (c : GCfg) (len dl : Rat) (ns : List GNull) : GFit :=
  let asymOf := fun (dl s0 : Rat) => len * c.dtau s0 (c.l04 s0 (overQ dl len))
  let spread := 2 * Config.dlSpread (ns.map (fun x => (x.pos * 16).num))
  c.finish len (asymOf dl) (absQ (asymOf (dl + spread) c.s0 - asymOf dl c.s0)) (c.l04 c.s0 (overQ dl len))

/-- A polynomial at k, the constant first. -/
def polyAt (cs : List Rat) (k : Nat) : Rat := cs.foldr (fun c v => c + (k : Rat) * v) 0

/-- The fitted model at a subcarrier in 10^-6 dB: the optics response times cos²(θ + arctan α), with θ = π DL / unitDl. -/
def GCfg.model (c : GCfg) (optics : List Rat) (dl x : Rat) (k : Nat) : Int :=
  let turns := (overQ dl (c.unitDl (subHz k ^ 2)) + x) / 2
  let q := polyAt optics k
  microDb (q.num.toNat * (cosPart turns.num turns.den).natAbs ^ 2) (q.den * 2 ^ 120)

/-- The residual in 10^-6 dB (R312): the RMS difference from the fitted model over the subcarriers within 48 of each null. -/
def GCfg.residual (c : GCfg) (o : List Int) (optics : List Rat) (dl : Rat) (alpha : Int) (ns : List GNull) : Nat :=
  let ks := ((List.range 1904).map (· + 16)).filter (fun (k : Nat) => ns.any (fun z => decide (absQ ((k : Rat) - z.pos) ≤ 48)))
  let x := atanTurns ((alpha : Rat) / 4096)
  Nat.sqrt (((ks.map (fun k => (obsAt o k - c.model optics dl x k).natAbs ^ 2)).sum) / ks.length)

/-- BOUNDED mode (R311, R312). -/
def GCfg.boundedFit (c : GCfg) (len : Rat) (alpha : Option Int) : GFit :=
  let mean := fun (s0 : Rat) =>
    let b := c.bounds s0 len alpha
    len * ((c.dtau s0 b.1 + c.dtau s0 b.2) / 2)
  let b := c.bounds c.s0 len alpha
  c.finish len mean (len * absQ (c.dtau c.s0 b.1 - c.dtau c.s0 b.2) / 2) (Config.boundedL0 b.1 b.2)

/-- Picoseconds in units of 2^-8 ns. -/
def unitsOfPs (place : Nat) (q : Rat) : Int := roundQ place (q * 256 / 1000)

/-! ### Checks and acceptance (R313, R314) -/

namespace GRes
def accepted : Nat := 0
def notRun : Nat := 1
def staleInput : Nat := 2
def noNull : Nat := 3
def noChirp : Nat := 4
def residual : Nat := 5
def lambda0Range : Nat := 6
def confidence : Nat := 7
def held : Nat := 8
def abandoned : Nat := 9
end GRes

/-- A fit that fails drops the candidate (R314). -/
def State.gaugeDrop (s : State) (p : Port) : State :=
  (s.setGauge p { s.gaugeOf p with cand := none }).set (Pg.GAUGE p) GAUGE.STAT_CAND 0

/-- A fit's result recorded; a rejected one is counted and signalled. -/
def State.gaugeResult (s : State) (p : Port) (r : Nat) : State :=
  let s := s.set (Pg.GAUGE p) GAUGE.STAT_RESULT r
  if (2 ≤ r ∧ r ≤ 7) ∨ r = 9 then (((s.gaugeDrop p).inc (Pg.GAUGE p) GAUGE.REJECTED).evt (Pg.GAUGE p) 9) else s

/-- An estimate comes into use. -/
def State.gaugeAccept (s : State) (p : Port) (asym : Int) (conf : Nat) (rtd : Int) : State :=
  let b := Pg.GAUGE p
  let s := s.setGauge p { s.gaugeOf p with rtd := rtd, at_ := s.clock.cycles, cand := none }
  let s := ((s.set b GAUGE.STAT_VALID 1).set b GAUGE.STAT_CAND 0).set b GAUGE.ASYM (ofSigned 32 asym)
  (((s.set b GAUGE.CONF_USE conf).inc b GAUGE.ACCEPTED).evt b 8).gaugeResult p GRes.accepted

/-- Whether two asymmetries differ by more than twice the larger of their CONF values. -/
def differ (a : Int) (ca : Nat) (b : Int) (cb : Nat) : Bool := decide (2 * max ca cb < (a - b).natAbs)

/-- A fit that passes every other check (R314). -/
def State.gaugeJudge (s : State) (p : Port) (asym : Int) (conf : Nat) (rtd : Int) : State :=
  let b := Pg.GAUGE p
  let hold : State → State := fun s =>
    let est := s.getSigned b GAUGE.ASYM
    if s.bit b GAUGE.STAT_VALID && differ asym conf est (s.get b GAUGE.CONF_USE) then
      let s := s.setGauge p { s.gaugeOf p with cand := some (asym, conf, rtd) }
      (((s.set b GAUGE.STAT_CAND 1).inc b GAUGE.HELD).evt b 11).gaugeResult p GRes.held
    else s.gaugeAccept p asym conf rtd
  match (s.gaugeOf p).cand with
  | some (a, c, r) =>
    if differ asym conf a c then hold (s.gaugeDrop p)
    else s.gaugeAccept p a c r
  | none => hold s

/-- The registers of a fit's asymmetry, length, λ0 and CONF. -/
def State.gaugeShow (s : State) (p : Port) (len : Rat) (g : GFit) (asym : Int) (conf : Nat) : State :=
  let b := Pg.GAUGE p
  let s := (s.set b GAUGE.LAST_ASYM (ofSigned 32 asym)).set b GAUGE.CONF_LAST conf
  (s.set b GAUGE.LENGTH (ofSigned 32 (roundQ 309 (len * 1000)))).set b GAUGE.LAMBDA0_L0 (root4 310 (g.l04 * 10000))

/-- The nulls of a fit in their registers. -/
def State.gaugeNulls (s : State) (p : Port) (ns : List GNull) : State :=
  (List.range 4).foldl (fun s k =>
    let w : Word := match ns[k]? with
      | none => 0
      | some x => BitVec.ofNat 32 ((x.pos * 16).num.toNat % 2 ^ 16 + (roundQ 307 (x.depth / 100000)).toNat % 2 ^ 16 * 2 ^ 16)
    s.wr (Pg.GAUGE p + (GAUGE.NULL k).off) w) (s.set (Pg.GAUGE p) GAUGE.STAT_NULLS ns.length)

/-- A fit with input that is fresh (R306 to R314). -/
def State.gaugeFit (s : State) (p : Port) (f : GaugeFit) (optics : List Rat) : State :=
  let b := Pg.GAUGE p
  let c : GCfg := ⟨f.cfg⟩
  let o := s.powerAverage p
  let ns := obsNulls o (c.f GAUGE.ACCEPT_NULL_DEPTH)
  let x := s.gaugeOf p
  let ch := s.chirp p c x.kept ns
  let len := c.length f.rtd (s.getSigned Pg.TIME (TIME0.PORT_RX_DELAY p.num)) (s.getSigned Pg.TIME (TIME0.PORT_TX_DELAY p.num))
  let s := if ch.2.1 then s.setGauge p { x with kept := some (s.get (Pg.LFR p) LFR0.TREE, ch.2.2) } else s
  let s := (s.gaugeNulls p ns).set b GAUGE.STAT_CHIRP_SRC ch.1
  let s := if ch.1 = 0 then s else s.set b GAUGE.ALPHA (ofSigned 16 ch.2.2)
  match ns with
  | [] =>
    if c.f GAUGE.CTRL_BOUNDED_EN = 0 then (s.set b GAUGE.STAT_MODE 0).gaugeResult p GRes.noNull
    else
      let g := c.boundedFit len (if ch.1 = 0 then none else some ch.2.2)
      let asym := unitsOfPs 311 g.asym
      let conf := min 65535 (unitsOfPs 312 g.conf).toNat
      let s := ((s.set b GAUGE.STAT_MODE 2).gaugeShow p len g asym conf).set b GAUGE.LAMBDA0_RESID 0
      if c.f GAUGE.ACCEPT_CONF_MAX < conf then s.gaugeResult p GRes.confidence else s.gaugeJudge p asym conf f.rtd
  | _ =>
    let s := s.set b GAUGE.STAT_MODE 1
    if ch.1 = 0 then s.gaugeResult p GRes.noChirp
    else
      let dl := c.dl ch.2.1 ch.2.2 ns
      let g := c.nullFit len dl ns
      let asym := unitsOfPs 310 g.asym
      let conf := min 65535 (unitsOfPs 312 g.conf).toNat
      let resid := c.residual o (optics.take 5) dl ch.2.2 ns
      let s := (s.gaugeShow p len g asym conf).set b GAUGE.LAMBDA0_RESID (min 65535 (divFree 313 resid 10000).toNat)
      let s := s.set b GAUGE.DL (ofSigned 32 (roundQ 308 (dl * 100)))
      if c.f GAUGE.ACCEPT_RESID_MAX * 100000 < resid then s.gaugeResult p GRes.residual
      else if g.l04 < c.l0Min4 ∨ c.l0Max4 < g.l04 then s.gaugeResult p GRes.lambda0Range
      else if c.f GAUGE.ACCEPT_CONF_MAX < conf then s.gaugeResult p GRes.confidence
      else s.gaugeJudge p asym conf f.rtd

/-! ### Meanings -/

/-- Whether firmware runs a fit of a port (R304). -/
def State.gaugeMayRun (s : State) (p : Port) : Bool :=
  s.feat 5 && decide (s.get (Pg.LFR p) LFR0.DS_CTRL_GEN = 0) && s.bit (Pg.GAUGE p) GAUGE.CTRL_EN && s.inWork p
    && (s.tport p).rtd.isSome

/-- The next fit is due PERIOD_S seconds from now (R304). -/
def State.gaugeNext (s : State) (p : Port) : Nat :=
  s.clock.cycles + max 1 (s.get (Pg.GAUGE p) GAUGE.CTRL_PERIOD_S) * 500000000

/-- GAUGE_FIT_START (R304, R316): the first fit runs as soon as it may, and a later one when it is due; one that is due and
may not run is skipped with NOT_RUN, and the next is a first fit again.  A fit triggers NDL4 (R165). -/
def execGaugeFitStart (p : Port) (s : State) : Host.Outcome State Fault Refusal :=
  .next (
    let x := s.gaugeOf p
    let due := match x.sched with
      | some t => decide (t ≤ s.clock.cycles)
      | none => s.gaugeMayRun p
    if x.fit.isSome || !due then s
    else if s.gaugeMayRun p then
      let s := (s.setGauge p { x with fit := some ⟨s.rdWords (Pg.GAUGE p + 0x40) 8, (s.tport p).rtd.getD 0, false⟩,
                                      sched := some (s.gaugeNext p) }).inc (Pg.GAUGE p) GAUGE.FITS
      if s.takesFrom 4 4 then s.trigger (s.trigEngine 4) else s
    else (s.setGauge p { x with sched := none }).gaugeResult p GRes.notRun)

/-- GAUGE_FIT_DONE (R305 to R316): the average is the one kept when the fit ends. -/
def execGaugeFitDone (p : Port) (optics : List Rat) (s : State) : Host.Outcome State Fault Refusal :=
  .next (
    match (s.gaugeOf p).fit with
    | none => s
    | some f =>
      let s := s.setGauge p { s.gaugeOf p with fit := none }
      let s :=
        if f.abandoned then s.gaugeResult p GRes.abandoned
        else if s.powerStale p then s.gaugeResult p GRes.staleInput
        else s.gaugeFit p f optics
      s.reselect)

/-- Seconds since the estimate in use was accepted, saturating (R315). -/
def State.gaugeAge (s : State) (p : Port) : Nat :=
  if s.bit (Pg.GAUGE p) GAUGE.STAT_VALID then min 65535 ((s.clock.cycles - (s.gaugeOf p).at_) / 500000000) else 0

/-- GAUGE_EXPIRED (R315): the estimate is discarded when one of the grounds holds. -/
def execGaugeExpired (p : Port) (s : State) : Host.Outcome State Fault Refusal :=
  .next (
    let b := Pg.GAUGE p
    let rtd := (s.tport p).rtd.getD 0
    if s.get b GAUGE.STALE < s.gaugeAge p ∨ 256000 < (rtd - (s.gaugeOf p).rtd).natAbs ∨ s.inWork p = false
        ∨ s.fnIs (.line p) .running = false ∨ s.bit b GAUGE.CTRL_EN = false then (s.gaugeDiscard p).reselect
    else s)

end Sys2Proof.Machine
end

