-- ==== Sys2Proof/Machine/HostTx.lean ====
section
/-!
DEFINITION. Machine/HostTx.lean: descriptors and the reads they cause (R420 to R423, R429, R440).
-/

namespace Sys2Proof.Machine

/-! ### Send descriptors (R420, R440) -/

/-- Bytes of a descriptor. -/
def State.descSize (s : State) : Nat := if s.feat 1 then 32 else 16

/-- Field of a descriptor. -/
def df (d : List Byte) (off n : Nat) : Nat := leNat ((d.drop off).take n)

/-- LEN, FLAGS and one flag of a send descriptor. -/
def descLen (d : List Byte) : Nat := df d 8 2
def descFlags (d : List Byte) : Nat := df d 0xA 2
def descFlag (d : List Byte) (b : Nat) : Bool := decide (descFlags d / 2 ^ b % 2 = 1)

/-- A handle that a descriptor names. -/
def descHandle (d : List Byte) : Option Nat := if descFlag d 1 then some (df d 0 5) else none

/-- Whether a descriptor's own bits are in order (R421, R440). -/
def State.descGood (s : State) (e : Ep) (d : List Byte) : Bool :=
  decide (descLen d ≠ 0) &&
    (if s.feat 1 then
      decide (descFlags d < 256) && decide (df d 0xE 1 < 8) && decide (df d 0xF 1 = 0) && decide (df d 0x14 4 < 2 ^ 30)
        && decide (df d 0x1A 6 = 0) && (!descFlag d 1 || (e.handleOk && s.feat 17))
    else
      -- FLAGS other than EOP, TS_REQ, CSUM_L3 and CSUM_L4, and the zero bytes
      decide (descFlags d &&& 0xFF9A = 0) && decide (df d 0xE 2 = 0))

/-- Descriptors of the next frame: those up to the first EOP. -/
def untilEop : List (List Byte) → Option (List (List Byte))
  | [] => none
  | d :: ds => if descFlag d 0 then some [d] else (untilEop ds).map (fun r => d :: r)

/-- Whether a frame's descriptors give BAD_DESC (R421). -/
def State.frameBad (s : State) (e : Ep) (ds : List (List Byte)) : Bool :=
  let d := ds.headD []
  decide (16 < ds.length) || ds.any (fun x => !s.descGood e x)
    || (s.feat 1 && descFlag d 7 && (!s.feat 11 || descFlag d 4 || descFlag d 3 || decide (df d 0x18 2 < 64)
        || decide (9000 < df d 0x18 2)))

/-- The launch time of a descriptor: seconds [47:32] are those nearest the time counter (R422). -/
def State.launchTime (s : State) (d : List Byte) : Nat :=
  let lo := df d 0x10 4
  let now := secOf s.clock.cnt
  let hi := now / 2 ^ 32
  let c := hi * 2 ^ 32 + lo
  let sec := if now + 2 ^ 31 < c ∧ 0 < hi then c - 2 ^ 32 else if c + 2 ^ 31 < now then c + 2 ^ 32 else c
  sec * secUnit + df d 0x14 4 * 2 ^ 40

/-- What the first descriptor of a frame asks for (R422). -/
def State.sendOf (s : State) (q : Nat) (e : Ep) (ds : List (List Byte)) (epoch : Nat) : Send :=
  let d := ds.headD []
  let f2 := s.feat 1
  { ep := q, index := e.sqHead, ndesc := min 16 ds.length,
    tsId := if descFlag d 2 && e.tsOk then some (df d 0xC 2) else none,
    launch := if f2 && descFlag d 3 && s.feat 3 then some (s.launchTime d) else none,
    dl := if f2 && descFlag d 4 && e.dlDesc && s.feat 2 then some (df d 0xE 1 % 8) else none,
    csumL3 := descFlag d 5 && s.feat 10, csumL4 := descFlag d 6 && s.feat 10,
    length := (ds.map descLen).sum, tso := f2 && descFlag d 7, epoch := epoch }

/-- The source that a PCIe function number stands for. -/
def Source.ofFunc (f : Nat) : Source :=
  if f = 0 then .pf0 else if f = 1 then .pf1 else if h : 2 ≤ f ∧ f < 254 then .vf ⟨f - 2, by omega⟩ else .pf0

/-- The handles of a frame handed over to host transmit (R394), each checked against what its pool holds: those taken,
and whether all were. -/
def State.takeHandles (s : State) (src : Source) : List (List Byte) → List Nat × Bool × State
  | [] => ([], true, s)
  | d :: ds =>
    match descHandle d with
    | none => s.takeHandles src ds
    | some h =>
      match s.takeHandle src h 7 with
      | (false, t) => ([], false, t)
      | (true, t) =>
        if t.poolSize (handlePool h) < descLen d then ([h], false, t)
        else
          match t.takeHandles src ds with
          | (hs, ok, u) => (h :: hs, ok, u)

/-- A handle as the packet path carries it. -/
def handleRef (h : Nat) : Nat × Nat × Nat := (handlePool h, handleIndex h, handleGen h)

/-- Whether an endpoint may fetch send descriptors now (R418, R419, R428, R429, R432, R487). -/
def State.mayFetch (s : State) (e : Ep) (f : Nat) : Bool :=
  e.en && e.txEn && !e.sqErr && decide (e.wait = []) && decide (s.hostFn f = .running) && !(s.fnHost f).d3
    && !s.domIsOff .core

/-- DESCRIPTOR_FETCH (R420, R421, R440): the frame's data is read into buffers of producer 7, and while that has none the
descriptors stay queued (R19). -/
def execDescriptorFetch (ep : Fin 131072) (descs : List (List Byte)) (s : State) : Host.Outcome State Fault Refusal :=
  let q := ep.val
  let e := s.ep q
  .next (
    match s.epFn q with
    | none => s
    | some f =>
      let n := s.sqEntries e
      let posted := (e.sqTail + n - e.sqHead) % n
      match untilEop (descs.take posted) with
      | none => s
      | some ds =>
        if !s.mayFetch e f then s
        else
          let d := s.sendOf q e ds (s.fnHost f).epoch
          let taken := { e with sqHead := (e.sqHead + ds.length) % n, inFlight := e.inFlight + 1, idle := false }
          let fail := fun (s : State) (st : Nat) => (s.setEp q taken).sendDone { d with tso := false } st true
          if s.frameBad e ds then fail (s.inc Pg.HQ HQ1.BAD_DESC) Snd.badDesc
          else if (if d.tso then 262143 else 16383) < d.length then fail s Snd.tooLong
          else
            let plain := ((ds.filter (fun x => (descHandle x).isNone)).map descLen).sum
            match (if plain = 0 then (some [], s) else s.allocFrame 7 plain) with
            | (none, t) => t
            | (some bufs, t) =>
              match t.takeHandles (Source.ofFunc f) ds with
              | (hs, false, u) => fail ((u.freeAll 7 (bufs ++ hs.map handleRef))) Snd.bufErr
              | (hs, true, u) =>
                let fetch : Fetch := ⟨d, ds.map (fun x => (descLen x, descHandle x)), bufs ++ hs.map handleRef,
                  if d.tso then some (df (ds.headD []) 0x18 2) else none⟩
                u.setEp q { taken with fetching := taken.fetching ++ [fetch] })

/-! ### Reads completing (R421, R422, R429) -/

/-- The bytes of a frame from its parts, and whether any of them is poisoned. -/
def State.gather (s : State) : List (Nat × Option Nat) → List Byte → List Byte × Bool × State
  | [], _ => ([], false, s)
  | (n, none) :: ps, bs =>
    match s.gather ps (bs.drop n) with
    | (r, p, t) => ((bs.take n ++ List.replicate (n - bs.length) 0) ++ r, p, t)
  | (n, some h) :: ps, bs =>
    match s.memRead (s.handleAddr h) n 1 with
    | (x, p, t) =>
      match t.gather ps bs with
      | (r, p', u) => (x ++ r, p || p', u)

/-- Buffers of producer 7 for each of a list of frames; none when there are not enough. -/
def State.allocEach (s : State) : List (List Byte) → Option (List (List (Nat × Nat × Nat))) × State
  | [] => (some [], s)
  | x :: xs =>
    match s.allocFrame 7 x.length with
    | (none, t) => (none, t)
    | (some hs, t) =>
      match t.allocEach xs with
      | (some r, u) => (some (hs :: r), u)
      | (none, u) => (none, u.freeAll 7 hs)

/-- A frame handed to the classifier as ingress 7. -/
def State.txPush (s : State) (k : Pkt) : State := (s.toPath 7 k.bufs).setInq 7 (s.inq 7 ++ [k])

/-- The data of the oldest frame being read has come (R421, R422). -/
def State.fetchData (s : State) (q f : Nat) (bytes : List Byte) : State :=
  let e := s.ep q
  match e.fetching with
  | [] => s
  | x :: xs =>
    let done := fun (t : State) => t.setEp q { t.ep q with fetching := xs }
    match s.gather x.parts bytes with
    | (frame, poison, t) =>
      match x.mss with
      | none =>
        let b := if x.send.csumL3 then writeL3 frame else frame
        let b := if x.send.csumL4 then writeL4 b else b
        (done t).txPush ⟨7, b, 0, false, f, x.bufs, 0, some x.send, poison, []⟩
      | some mss =>
        let r := parse frame
        if r.judged ≠ .normal ∨ (tsoTcp r).isNone then
          (((done t).freeAll 7 x.bufs).inc Pg.HQ HQ1.BAD_DESC).sendDone { x.send with tso := false } Snd.badDesc true
        else
          let segs := segments frame mss
          match t.allocEach segs with
          | (none, u) => u
          | (some bufs, u) =>
            let u := (done u).freeAll 7 x.bufs
            let e := u.ep q
            let u := u.setEp q { e with tso := SMap.set (fun _ => (0, 0, false)) e.tso x.send.index (segs.length, 0, false) }
            (segs.zip bufs).foldl (fun u sb => u.txPush ⟨7, sb.1, 0, false, f, sb.2, 0, some x.send, poison, []⟩) u

/-- Receive descriptors read (R423): address and size. -/
def State.rxPosted (s : State) (q : Nat) (descs : List (List Byte)) : State :=
  let e := s.ep q
  let n := s.rqEntries e
  let posted := (e.rqTail + n - e.rqHead) % n
  let ds := descs.take posted
  s.setEp q { e with rqHead := (e.rqHead + ds.length) % n, rxd := e.rxd ++ ds.map (fun d => (df d 0 8, df d 8 2)) }

/-- FETCH_COMPLETE (R421 to R423, R429). -/
def execFetchComplete (ep : Fin 131072) (how : FetchEnd) (s : State) : Host.Outcome State Fault Refusal :=
  let q := ep.val
  let e := s.ep q
  .next (
    match s.epFn q with
    | none => s
    | some f =>
      let err := fun (t : State) => (t.evt Pg.HQ 8).inc Pg.HQ HQ1.DMA_ERR
      match how with
      | .data bytes => s.fetchData q f bytes
      | .dataError =>
        match e.fetching with
        | [] => s
        | x :: xs =>
          (((s.setEp q { e with fetching := xs }).freeAll 7 x.bufs).inc Pg.HQ HQ1.DMA_ERR).sendDone { x.send with tso := false }
            Snd.dmaErr true
      | .receive descs =>
        if e.en && e.rxEn && !e.rqErr && decide (s.hostFn f = .running) && !(s.fnHost f).d3 then s.rxPosted q descs else s
      | .sendError => if e.en && e.txEn then err (s.setEp q { e with sqErr := true }) else s
      | .receiveError => if e.en && e.rxEn then err (s.setEp q { e with rqErr := true }) else s)

end Sys2Proof.Machine
end

