-- ==== Sys2Proof/Machine/Memory.lean ====
section
/-!
DEFINITION. Machine/Memory.lean: frees and handovers of the units (R387 to R389), the patrols (R395, R396, R399 to R401,
R404) and darning (R402 to R405).
-/

namespace Sys2Proof.Machine

/-! ### Frees and handovers (R387 to R389) -/

/-- The function whose block acts under an owner ID from 0 to 6 (R381). -/
def ownerFn (owner : Nat) : Option Fn :=
  if owner = 0 then some (.line .portA)
  else if owner = 1 then some (.line .portB)
  else if h : 2 ≤ owner ∧ owner < 6 then some (.site ⟨owner - 2, by omega⟩)
  else if owner = 6 then some .ply
  else none

/-- FAULT_CODE of a Skein owner violation by a block (R33). -/
def faultOwner : Nat := 0x04

/-- A function that is in service enters FAULT (R38). -/
def State.faultLive (s : State) (f : Fn) (code : Nat) : State :=
  if s.fnIs f .off || s.fnIs f .fault then s else s.faultFn f code

/-- What a violation leads to (R389), and the answer kept. -/
def State.unitAnswer (s : State) (caller : Nat) (r h : Nat) : State :=
  let s : State := { s with skein := { s.skein with answer := (r, h) } }
  if r = Skr.ok then s
  else
    match ownerFn caller with
    | some f => s.faultLive f faultOwner
    | none => s

/-- FREE (R387 to R389). -/
def execFreeBuffer (caller : Fin 64) (handle : BitVec 40) (s : State) : Host.Outcome State Fault Refusal :=
  let r := s.freeBuf caller.val handle.toNat
  .next (r.2.unitAnswer caller.val r.1 handle.toNat)

/-- HANDOVER (R387 to R389). -/
def execHandover (caller : Fin 64) (handle : BitVec 40) (to_ : Fin 64) (s : State) : Host.Outcome State Fault Refusal :=
  let r := s.handOver caller.val handle.toNat to_.val
  .next (r.2.unitAnswer caller.val r.1 handle.toNat)

/-! ### Darning (R402 to R404) -/

/-! RESULT of `DARN.STAT`. -/
namespace Darn
def ok : Nat := 0
def full : Nat := 1
def badRow : Nat := 2
def notDarned : Nat := 3
end Darn

/-- REMAP (R402). -/
def State.darnRemap (s : State) (row : Nat) : State :=
  if firstSpare ≤ row then s.set Pg.DARN DARN.STAT_RESULT Darn.badRow
  else if spares ≤ s.mem.used then s.set Pg.DARN DARN.STAT_RESULT Darn.full
  else s.darnStart row false

/-- QUERY (R402). -/
def State.darnQuery (s : State) (row : Nat) : State :=
  match SMap.get (fun _ => 0) s.mem.darned row with
  | 0 => s.set Pg.DARN DARN.STAT_RESULT Darn.notDarned
  | k + 1 => ((s.set Pg.DARN DARN.STAT_RESULT Darn.ok).set Pg.DARN DARN.LAST k).set Pg.DARN DARN.DARN_ROW row

/-- A write of `DARN.CMD` (R402, R406): OP 1 remaps, OP 2 queries, and no other does anything; rejected while BUSY. -/
def State.darnCmd (s : State) (src : Source) (val : Word) : State :=
  let a := Pg.DARN + DARN.CMD.off
  let op := DARN.CMD_OP.get val
  match s.accessReg src a true with
  | .rejected p r => s.refuse src p r true a
  | .ok _ =>
    if s.bit Pg.DARN DARN.STAT_BUSY then s.refuse src Pg.DARN .locked true a
    else if op = 1 then s.darnRemap (DARN.CMD_ROW.get val)
    else if op = 2 then s.darnQuery (DARN.CMD_ROW.get val)
    else s

/-- REMAP (R402, R403, R406). -/
def execRemap (src : Source) (val : Word) (s : State) : Host.Outcome State Fault Refusal := .next (s.darnCmd src val)

/-- DARN_QUERY (R402, R406). -/
def execDarnQuery (src : Source) (val : Word) (s : State) : Host.Outcome State Fault Refusal := .next (s.darnCmd src val)

/-- The copy of a row reads its words; what it corrects is right in the new spare (R396, R403). -/
def State.copyReads (s : State) (row : Nat) : State :=
  (s.mem.flips.filter (fun e => decide (e.1 / 256 = row))).foldl (fun s e => (s.wordRead e.1 6).setFlips e.1 0) s

/-- DARN_COPY_DONE (R403, R404): accesses to the row go to the spare; the next row that AUTO asks for follows. -/
def execDarnCopyDone (s : State) : Host.Outcome State Fault Refusal :=
  .next (
    match s.mem.copy with
    | none => s
    | some (row, spare, auto) =>
      let s := s.copyReads row
      let m := s.mem
      let s : State := { s with mem := { m with copy := none, darned := SMap.set (fun _ => 0) m.darned row (spare + 1) } }
      let s := ((s.set Pg.DARN DARN.STAT_BUSY 0).set Pg.DARN DARN.STAT_RESULT Darn.ok).set Pg.DARN DARN.LAST spare
      let s := ((s.set Pg.DARN DARN.DARN_ROW row).inc Pg.DARN DARN.DARNED).evt Pg.DARN 8
      let s := if auto then s.inc Pg.DARN DARN.AUTO_DARNED else s
      match s.mem.autoDue with
      | [] => s
      | r :: rs => ({ s with mem := { s.mem with autoDue := rs } } : State).autoDarn r)

/-! ### The patrol of LPDDR5X (R396, R400, R404) -/

/-- The row whose words a row of the array holds: itself, or for a spare the row it serves. -/
def State.rowAt (s : State) (r : Nat) : Option Nat :=
  if r < firstSpare then some r else (s.mem.darned.find? (fun kv => decide (kv.2 = r - firstSpare + 1))).map (fun kv => kv.1)

/-- A word the patrol reads, by its address (R396, R397, R400): the correction is always written back. -/
def State.patrolWord (s : State) (w : Nat) (found : WordFound) : State :=
  match found with
  | .poisonBit => if s.poisoned w then (s.inc Pg.MEM MEM1.POISON_READ).memErr w 4 0 else s
  | .three => s.wordLost w 0
  | .one => (s.wordCorrected w 1 0).setFlips w 0
  | .two => (s.wordCorrected w 2 0).setFlips w 0

/-- The rows of one patrol pass: every data row and every spare in use (R400). -/
def State.patrolRows (s : State) : Nat := firstSpare + s.mem.used

/-- The address of a word by its row in the array and its place there; none where the row serves no address. -/
def State.wordAt (s : State) (r off : Nat) : Option Nat := (s.rowAt r).map (fun row => row * 256 + off)

/-- The words in error as a patrol of so many rows meets them, by their place from the row it begins at: those of its rows
that the command lists, then those that no read has found yet, and those poisoned; and the listed ones that lie further on. -/
def State.patrolWords (s : State) (words : List (Nat × WordFound)) (rows : Nat) : List (Nat × WordFound) × List (Nat × WordFound) :=
  let pos := s.get Pg.MEM MEM0.SCRUB_POS
  let total := s.patrolRows
  let at_ := fun (x : Nat × WordFound) => (s.wordAt ((pos + x.1 / 256) % total) (x.1 % 256)).map (fun w => (w, x.2))
  let here := (words.filter (fun x => decide (x.1 < rows * 256))).filterMap at_
  let inRows := fun (w : Nat) => decide ((s.arrayRow (w / 256) + total - pos % total) % total < rows)
    && !here.any (fun x => decide (x.1 = w))
  let old := (s.mem.flips.filter (fun e => inRows e.1)).map (fun e =>
    (e.1, if e.2 = 1 then WordFound.one else if e.2 = 2 then .two else .three))
  let bad := ((s.mem.poison.filter (fun e => inRows e.1 && decide (s.flipsAt e.1 = 0))).map (fun e => (e.1, WordFound.poisonBit)))
  (here ++ old ++ bad, (words.filter (fun x => !decide (x.1 < rows * 256))).filterMap at_)

/-- Words left in error for a read to find. -/
def State.addFlips (s : State) (ws : List (Nat × WordFound)) : State :=
  ws.foldl (fun s x =>
    match x.2 with
    | .one => s.setFlips x.1 1
    | .two => s.setFlips x.1 2
    | .three => s.setFlips x.1 3
    | .poisonBit => s) s

/-- PATROL_SCRUB (R396, R397, R400, R404): the next `rows` rows are read.  `words` lists words in error by their place from
the row the patrol has reached; those beyond the rows read stay in error. -/
def execPatrolScrub (words : List (Nat × WordFound)) (rows : Nat) (s : State) : Host.Outcome State Fault Refusal :=
  .next (
    if s.bit Pg.MEM MEM0.SCRUB_EN then
      let pos := s.get Pg.MEM MEM0.SCRUB_POS
      let total := s.patrolRows
      let ws := s.patrolWords words rows
      let s := ws.1.foldl (fun s x => s.patrolWord x.1 x.2) (s.addFlips ws.2)
      let s := s.set Pg.MEM MEM0.SCRUB_POS ((pos + rows) % total)
      if total ≤ pos + rows then
        ({ s with mem := { s.mem with corrected := [] } } : State).addCnt Pg.MEM MEM1.SCRUB_PASSES ((pos + rows) / total)
      else s
    else s)

/-! ### The patrol of the on-chip arrays (R400, R401) -/

/-- Gates of a pattern entry treated as closed until it is rewritten: its mask reads 0. -/
def closeEntry (e : Nat × Nat) : Nat × Nat := (0, e.2)

/-- What an uncorrectable word of an array leads to (R399, R401); for packet SRAM the offset says which word. -/
def State.sramBad (s : State) (arr : SramArray) (word : Nat) : State :=
  match arr with
  | .packetSram => s.poisonWord false (word * 8)
  | .flowCache loc => { s with cls := { s.cls with cache := s.cls.cache.filter (fun c => decide (c.1 ≠ loc)) } }
  | .endpointCache => s
  | .eqContext q => if (s.eq q.val).err then s else (s.setEq q.val { s.eq q.val with err := true }).evt Pg.MARK 9
  | .rule n => s.setBad Arr.rule n.val true
  | .node l n => s.setBad Arr.node (nodeKey l.val n.val) true
  | .policer n => s.setBad Arr.policer n.val true
  | .rss f n => s.setBad Arr.rss (f.val * 512 + n.val) true
  | .pattern e standby n =>
    let p := s.pattern e.val
    if standby then
      s.setPattern e.val { p with
        standby := SMap.set (fun _ => (0, 0)) p.standby n.val (closeEntry (SMap.get (fun _ => (0, 0)) p.standby n.val)) }
    else
      s.setPattern e.val { p with
        active := p.active.map (fun g => { g with ents := g.ents.modify n.val closeEntry })
        bank := SMap.set (fun _ => (0, 0)) p.bank n.val (closeEntry (SMap.get (fun _ => (0, 0)) p.bank n.val)) }
  | .skeinBitmap w =>
    let s := s.setBad Arr.bitmap w.val true
    (List.range 16).foldl (fun s p =>
      let leaf := s.get Pg.SKEIN (SKEIN.POOL_CTRL_BM_BASE p) * 16384
      if (s.poolEn p || (s.pool p).draining) && decide (leaf ≤ w.val * 32 ∧ w.val * 32 < leaf + s.poolCount p) then
        s.holdBufs p ((List.range 32).map (fun k => w.val * 32 - leaf + k))
      else s) s
  | .function f => s.faultLive f 0x02

/-- The code of an array in `MEM.SRAM_ERR`. -/
def sramCode (arr : SramArray) (secded : Bool) : Nat :=
  if arr = .packetSram then 0 else if secded then 2 else 1

/-- SRAM_PATROL (R395, R396, R400, R401). -/
def execSramPatrol (corrected : Nat) (bad : List (SramArray × Bool × BitVec 24)) (s : State) : Host.Outcome State Fault Refusal :=
  .next (bad.foldl (fun s x =>
    let s := (s.inc Pg.MEM MEM1.SRAM_UE).evt Pg.MEM 10
    let s := s.wr (Pg.MEM + MEM0.SRAM_ERR.off)
      (BitVec.ofNat 32 ((if x.2.1 then 5 else 3) * 2 ^ 28 + sramCode x.1 x.2.1 * 2 ^ 24 + x.2.2.toNat))
    s.sramBad x.1 x.2.2.toNat) (s.addCnt Pg.MEM MEM1.SRAM_CE corrected))

end Sys2Proof.Machine
end

