-- ==== Sys2Proof/Machine/Registers.lean ====
section
/-!
DEFINITION. Machine/Registers.lean: reads and writes of registers (R28 to R31, R40, R44, R78, R550): what a read
returns to its source, the rules that stop a write, and what a write does.  A register whose access has a row of the
table of its own is handed to that row's meaning.
-/

namespace Sys2Proof.Machine

/-- Whether an offset is the `_HI` half of a pair (R29). -/
def isHi (a : Nat) : Bool :=
  decide (4 ≤ a % 0x1000) && match rowOf (a - 4) with
    | some r => r.pairLo
    | none => false

/-! ### What a register reads as -/

/-- Registers kept per source (R31, R393, R418, R445, R475): the selected index, the staged words and the result. -/
def perSource (a : Nat) : Bool :=
  decide (a = Pg.HQ + 0x60 ∨ a = Pg.HQ + 0x64 ∨ (Pg.HQ + 0x80 ≤ a ∧ a < Pg.HQ + 0xC0)) ||
  decide (a = Pg.MARK + 0x50 ∨ a = Pg.MARK + 0x54 ∨ (Pg.MARK + 0x60 ≤ a ∧ a < Pg.MARK + 0x80)) ||
  decide (a = Pg.SKEIN + 0x280 ∨ a = Pg.SKEIN + 0x294 ∨ (Pg.CIPH + 0x80 ≤ a ∧ a < Pg.CIPH + 0xE0))

/-- Word `k` of a record a source has latched (R269, R291, R296, R479). -/
def State.recWord (s : State) (src : Source) (a k : Nat) : Word := (SMap.get (fun _ => []) s.recLatch (recKey a src)).getD k 0

/-- `HQ` page 0 of the function a source acts on (R412, R416, R433). -/
def State.hqWord (s : State) (src : Source) (a : Nat) : Word :=
  let f := s.epRange src
  let x := s.fnHost f
  let off := a - Pg.HQ
  if off = 0x48 then
    match Fn.ofFunc f with
    | some g => BitVec.ofNat 32 (s.fn g).word
    | none => BitVec.ofNat 32 FState.running.code
  else if off = 0x4C then BitVec.ofNat 32 x.qbaseStaged
  else if off = 0x50 then BitVec.ofNat 32 ((if x.qerr then 2 ^ 31 else 0) + x.qcount)
  else if off = 0x54 then BitVec.ofNat 32 x.win
  else if off = 0x58 then BitVec.ofNat 32 (x.win / 2 ^ 32)
  else s.busWord a

/-- `MARK` page 1 of what it selects (R446, R450). -/
def State.markWord (s : State) (a : Nat) : Word :=
  let x := s.eqRange s.markSel
  let off := a - Pg.MARK
  if off = 0x1044 then BitVec.ofNat 32 x.staged
  else if off = 0x1048 then BitVec.ofNat 32 ((if x.err then 2 ^ 31 else 0) + x.count)
  else if off = 0x1054 then
    match s.srcSel with
    | some k => s.route k
    | none => 0
  else s.busWord a

/-- Registers of `TIME` and `TSQ` that read what their source has latched, and of `PATTERN` and `DEADLINE` that read
what they select. -/
def State.selWord (s : State) (src : Source) (a : Nat) : Word :=
  if Pg.TIME + 0x54 ≤ a ∧ a < Pg.TIME + 0x60 then s.recWord src (Pg.TIME + 0x50) ((a - Pg.TIME - 0x50) / 4)
  else if Pg.TIME + 0x1100 ≤ a ∧ a < Pg.TIME + 0x1200 ∧ 8 ≤ a % 0x20 ∧ a % 0x20 < 0x14 then
    if s.get Pg.TIME (TIME1.EVT_CTRL_MODE ((a - Pg.TIME - 0x1100) / 0x20)) = 1 then
      s.recWord src (a / 0x20 * 0x20 + 4) (a % 0x20 / 4 - 1)
    else s.busWord a
  else if Pg.TSQ + 0x40 ≤ a ∧ a < Pg.TSQ + 0x100 ∧ 4 ≤ a % 0x20 ∧ a % 0x20 < 0x14 then
    s.recWord src (a / 0x20 * 0x20) (a % 0x20 / 4 - 1)
  else if a = Pg.PATTERN + 0x5C then
    let p := s.pattern s.patSel
    BitVec.ofNat 32 (min (2 ^ 24 - 1) p.n * 2 ^ 8 + (if p.late then 8 else 0) + (if p.err then 4 else 0)
      + (if p.pending.isSome then 2 else 0) + (if p.active.isSome then 1 else 0))
  else if a = Pg.PATTERN + 0x68 ∨ a = Pg.PATTERN + 0x6C then
    let e := SMap.get (fun _ => (0, 0)) (s.pattern s.patSel).standby (s.get Pg.PATTERN PATTERN.ENT_INDEX)
    BitVec.ofNat 32 (if a = Pg.PATTERN + 0x68 then e.1 else e.2)
  else if a = Pg.DEADLINE + 0xC4 ∨ a = Pg.DEADLINE + 0xC8 then
    let e := s.get Pg.DEADLINE DEADLINE.BL_SEL_EGRESS
    let c := s.get Pg.DEADLINE DEADLINE.BL_SEL_CLASS
    if 128 < e then 0 else BitVec.ofNat 32 (if a = Pg.DEADLINE + 0xC4 then s.backlog e c else s.dlLimit e c)
  else if Pg.DEADLINE + 0xE0 ≤ a ∧ a < Pg.DEADLINE + 0x100 then BitVec.ofNat 32 (s.classBacklog ((a - Pg.DEADLINE - 0xE0) / 4))
  else s.busWord a

/-- Registers of a port computed when they are read: AGE_S (R315), `US_STAT` (R219) and VALID of `US_BPROF` (R20). -/
def State.portWord (s : State) (p : Port) (a : Nat) : Word :=
  let b := Pg.LFR p
  if a = Pg.GAUGE p + GAUGE.STAT.off then GAUGE.STAT_AGE_S.put (s.busWord a) (s.gaugeAge p)
  else if a = b + LFR0.US_STAT.off then
    LFR0.US_STAT_RDI.put (LFR0.US_STAT_SDI.put (s.busWord a) (if s.sdiNow p then 1 else 0)) (if s.rdiNow p then 1 else 0)
  else if b + 0x110 ≤ a ∧ a < b + 0x120 then
    (LFR0.US_BPROF_VALID 0).put (s.busWord a) (if s.bprofValid p ((a - b - 0x110) / 4) then 1 else 0)
  else s.busWord a

/-- What a source reads at a mapped, powered register (R28), before anything is popped, latched or cleared. -/
def State.word (s : State) (src : Source) (a : Nat) : Word :=
  if perSource a then s.srcReg a src
  else
    match blockOf a with
    | none => 0
    | some b =>
      match b.type with
      | 0x41 => s.hqWord src a
      | 0x08 => s.markWord a
      | 0x10 => s.selWord src a
      | 0x11 => s.selWord src a
      | 0x33 => s.selWord src a
      | 0x34 => s.selWord src a
      | 0x12 => s.portWord (if b.inst = 0 then .portA else .portB) a
      | 0x21 => s.portWord (if b.inst = 0 then .portA else .portB) a
      | 0x48 =>
        if a = Pg.CIPH + 0x54 then BitVec.ofNat 32 (s.laStat src)
        else if Pg.CIPH + 0x100 ≤ a ∧ a < Pg.CIPH + 0x120 then s.recWord src (Pg.CIPH + 0x100) ((a - Pg.CIPH - 0x100) / 4)
        else s.busWord a
      | _ => s.busWord a

/-! ### Reads -/

/-- Look-aside registers that only the holder of the lock uses (R474). -/
def laLocked (a : Nat) : Bool := decide (Pg.CIPH + 0x54 ≤ a ∧ a < Pg.CIPH + 0x120)

/-- What the RC bits of a register hold once it has been read: their reset value, which is 0 but for `MON.TEMP.PEAK`;
DESIGN CHOICE: `POOL[p].MIN_FREE` and `RXBUF_PEAK`, the lowest and the highest since the last read, start again from the
register before (log entry 18). -/
def State.rcStart (s : State) (a : Nat) : Word :=
  let p := (a - Pg.SKEIN - 0x54) / 0x20
  if (p < 16 ∧ a = Pg.SKEIN + 0x54 + 0x20 * p) ∨ a = Pg.LFR .portA + LFR0.RXBUF_PEAK.off ∨ a = Pg.LFR .portB + LFR0.RXBUF_PEAK.off
  then s.rd (a - 4) else resetOf a

/-- A read that has been let through: a `_LO` register latches its high half, an RC register is cleared (R28, R29, R44).
DESIGN CHOICE: a read of a snapshot view latches nothing, since both halves stand still there (log entry 23). -/
def State.readPlain (s : State) (src : Source) (a : Nat) : State :=
  let v := s.word src a
  let hi := s.word src (a + 4)
  let l := SMap.get latchReset s.latches (latchKey a src)
  let s : State := { s with rdata := v }
  match rowOf a with
  | none => s
  | some row =>
    if row.pairLo then
      let s : State := { s with latches := SMap.set latchReset s.latches (latchKey a src) ⟨some (a % 0x1000), hi⟩ }
      if s.readClears a row then (s.wr a 0).wr (a + 4) 0 else s
    else if l.lo = some (a % 0x1000 - 4) ∧ 4 ≤ a % 0x1000 then { s with rdata := l.hi }
    else if isHi a then s
    else if s.readClears a row then
      s.wr a ((v &&& ~~~ BitVec.ofNat 32 row.rc) ||| (s.rcStart a &&& BitVec.ofNat 32 row.rc))
    else s

/-- A read of a register by a source.  The reads that pop, allocate or advance have rows of their own. -/
def State.regRead (s : State) (src : Source) (addr : Nat) : State :=
  match s.access src addr false with
  | .rejected p r => s.refuse src p r false addr
  | .ok a =>
    if laLocked a && !s.laMay src then s.refuse src Pg.CIPH .locked false addr
    else if a = Pg.TIME + TIME0.NOW_FRAC.off then nextOr s (execNowFracRead src s)
    else if a = Pg.SKEIN + SKEIN.ALLOC_LO.off then nextOr s (execAllocLoRead src s)
    else if a = Pg.CIPH + (CIPH0.LA_RESULT 0).off then nextOr s (execLaResultRead src s)
    else if a = Pg.CLS + CLS0.RSS_DATA.off then nextOr s (execRssDataAccess src none s)
    else if a = Pg.LINE .portA + LINE0.LOAD_DATA.off then nextOr s (execLoadDataAccess src .portA none s)
    else if a = Pg.LINE .portB + LINE0.LOAD_DATA.off then nextOr s (execLoadDataAccess src .portB none s)
    else
      match (List.finRange 6).find? (fun q => decide (a = Pg.TSQ + (TSQ.Q_ENTRY0 q.val).off)) with
      | some q => nextOr s (execTsqPop src q s)
      | none =>
        match (List.finRange 8).find? (fun n => decide (a = Pg.TIME + (TIME1.EVT_FRAC n.val).off)) with
        | some n => nextOr s (execEvtFracRead src n s)
        | none => s.readPlain src a

/-! ### The rules that stop a write -/

/-- Whether PF0's range, window or queues of the function selected may be written now: R416 for PF0 itself, else OFF. -/
def State.winOpen (s : State) (f : Nat) : Bool := decide (f = 0) || decide (s.hostFn f = .off)

/-- BAR4 window that a write of `FN_WIN_HI` would commit (R30, R412). -/
def State.winOf (s : State) (src : Source) (a : Nat) (hi : Word) : Nat :=
  let g := SMap.get stageReset s.staging (latchKey a src)
  let lo := if g.lo = some (a % 0x1000 - 4) then g.val.toNat else (s.fnHost s.fnSel).win % 2 ^ 32
  hi.toNat % 2 ^ 8 * 2 ^ 32 + lo / 2 ^ 24 % 2 ^ 8 * 2 ^ 24

/-- Host interface: `FN_QBASE` and `FN_WIN` (R412, R416). -/
def State.hqStop (s : State) (src : Source) (a : Nat) (v : Word) : Option Reason :=
  let f := s.fnSel
  let off := a - Pg.HQ
  if off = 0x4C then if s.rangeOpen f then none else some .offOnly
  else if off = 0x54 then if s.winOpen f then none else some .offOnly
  else if off = 0x58 then
    let w := s.winOf src a v
    if w % barSize f 4 ≠ 0 ∨ w < firmwareRegion then some .locked
    else if s.winOpen f then none else some .offOnly
  else none

/-- Classifier: FT_SEED, FT_BASE and FT_CMD (R329 to R331, R391). -/
def State.clsStop (s : State) (src : Source) (a : Nat) (v : Word) : Option Reason :=
  let off := a - Pg.CLS
  if 0x50 ≤ off ∧ off < 0x58 ∧ s.get Pg.CLS CLS0.FT_COUNT ≠ 0 then some .locked
  else if 0x60 ≤ off ∧ off < 0x70 ∧ s.get Pg.CLS CLS0.FT_COUNT ≠ 0 then some .locked
  else if off = 0x54 ∧ v.toNat % 2 ^ 8 * 2 ^ 32 + (s.stagedLo src a).toNat / 2 ^ 25 * 2 ^ 25 < firmwareRegion then some .locked
  else if off = 0x58 ∧ s.bit Pg.CLS CLS0.FT_STAT_BUSY = true then some .locked
  else none

/-- A write of `DEADLINE.CLASS[c]` (R367): CLOSED alone may be written at any time. -/
def State.classStop (s : State) (a : Nat) (v : Word) : Option Reason :=
  let off := a - Pg.DEADLINE
  if 0x80 ≤ off ∧ off < 0xC0 ∧ s.classBacklog ((off - 0x80) / 8) ≠ 0
      ∧ (off % 8 ≠ 0 ∨ (v ^^^ s.rd a) &&& 0x40FFFFFF ≠ 0) then some .locked
  else none

/-- A write of COUNT or BASE of a pool (R378). -/
def State.poolStop (s : State) (a : Nat) : Option Reason :=
  let off := a - Pg.SKEIN
  let p := (off - 0x40) / 0x20
  if 0x40 ≤ off ∧ off < 0x240 ∧ off % 0x20 ≠ 0 ∧ (s.poolEn p || (s.pool p).draining) = true then some .locked else none

/-- The line port's own rules: SERVE (R225) and a DPD bank in use (R148). -/
def State.lineWriteStop (s : State) (src : Source) (p : Port) (a : Nat) (v : Word) : Option Reason :=
  let b := Pg.LINE p
  if a = Pg.LFR p + LFR0.US_CTRL.off then
    if src.isHook = false ∧ v.toNat / 2 ^ 12 % 8 ≠ (s.rd a).toNat / 2 ^ 12 % 8 then some .privilege else none
  else if b + 0x1100 ≤ a ∧ a < b + 0x1300 then
    let off := a - b - 0x1100
    if s.get b LINE1.DPD_SEL / 2 ^ (off % 0x100 / 0x40) % 2 = off / 0x100 then some .locked else none
  else none

/-- The reason under which a write that its source may make is rejected by the rules of its own register (R550). -/
def State.writeStop (s : State) (src : Source) (b : Block) (a : Nat) (v : Word) : Option Reason :=
  let port : Port := if b.inst = 0 then .portA else .portB
  let own : Option Reason :=
    match b.type with
    | 0x01 => if 0x150 ≤ a ∧ a < 0x160 ∧ s.bit Pg.DEV DEV.FEAT_STAT_COMMITTED = true then some .locked else none
    | 0x07 => if 0x80 ≤ a % 0x1000 ∧ a % 0x1000 < 0x100 ∧ s.bit (a - a % 0x1000) HOOK.MBX_STAT_BUSY = true then some .locked
      else none
    | 0x08 => if a = Pg.MARK + 0x1044 then
        (if (if s.markSel = 0 then s.eqsOff 0 else decide (s.hostFn s.markSel = .off)) then none else some .offOnly) else none
    | 0x20 => s.lineWriteStop src port a v
    | 0x21 => s.lineWriteStop src port a v
    | 0x30 => s.clsStop src a v
    | 0x34 => s.classStop a v
    | 0x38 => s.poolStop a
    | 0x41 => s.hqStop src a v
    | 0x48 => if laLocked a && !s.laMay src then some .locked else none
    | _ => none
  match own with
  | some r => some r
  | none => if s.offOnlyStops a && !decide (b.type = 0x21) then some .offOnly else none

/-! ### Writes -/

/-- A register stored by its access codes alone (R28), or with its pair (R30). -/
def State.writePlain (s : State) (src : Source) (a : Nat) (v : Word) : State :=
  if isHi a then s.commitPair src a v else s.storeReg a v

/-- The common header (R32, R33, R38, R443): PAGE_CTRL where the page has RUNCTL, events and their mask, the scratch word. -/
def State.writeHeader (s : State) (src : Source) (b : Block) (a : Nat) (v : Word) : State :=
  let off := a % 0x1000
  let page := a - off
  if off = 0x008 then
    match fnOfBlock b with
    | some f => if b.runctl && decide (page = b.base) then s.ctrlWrite src f v.toNat else s
    | none => s
  else if off = 0x010 then s.eventWrite page v
  else if off = 0x014 then s.maskWrite page v
  else s.storeReg a v

/-- The straps as they were last sampled (R53). -/
def State.strapsNow (s : State) : Straps :=
  ⟨BitVec.ofNat 2 (s.get Pg.DEV DEV.BOOT_STAT_BOOT_SRC), s.bit Pg.DEV DEV.BOOT_STAT_TWIN_ID⟩

/-- `DEV`. -/
def State.writeDev (s : State) (src : Source) (a : Nat) (v : Word) : State :=
  if a = Pg.DEV + DEV.RESET_CTRL.off then
    if v.toNat % 2 = 1 then nextOr s (execResetCtrlDevice src (BitVec.ofNat 16 (v.toNat / 2 ^ 16)) s.strapsNow s) else s
  else if a = Pg.DEV + DEV.FEAT_COMMIT.off then nextOr s (execFeatCommit src v s)
  else s.writePlain src a v

/-- `HOOK` (R78): GO submits the request in `MBX_REQ`, and while BUSY sets OVERRUN. -/
def State.writeHook (s : State) (src : Source) (a : Nat) (v : Word) : State :=
  if a % 0x1000 = HOOK.MBX_CTRL.off then
    if v.toNat % 2 = 1 then s.mbxGo (if a < 0x9000 then .ch0 else .ch1) else s
  else s.writePlain src a v

/-- `MARK`. -/
def State.writeMark (s : State) (src : Source) (a : Nat) (v : Word) : State :=
  let off := a - Pg.MARK
  if off = 0x40 then nextOr s (execMarkerHold src v s)
  else if off = 0x54 then
    s.eqCmd src v
  else if off = 0x58 then nextOr s (execEqDb src v s)
  else if off = 0x5C then nextOr s (execEqPrio src v s)
  else if off = 0x1044 then s.setEqRange s.markSel { s.eqRange s.markSel with staged := MARK1.FN_EQBASE.get (v &&& 0xFFF) }
  else if off = 0x1048 then nextOr s (execFnEqcountWrite src v s)
  else if off = 0x1054 then s.routeWrite src v
  else if off = 0x105C then
    s.grpCmd src v
  else s.writePlain src a v

/-- `TIME`.  Leaving the trigger modes of `EVT[n].CTRL.MODE` disarms the trigger; FRAC is RO in capture mode (R291). -/
def State.writeTime (s : State) (src : Source) (a : Nat) (v : Word) : State :=
  let off := a - Pg.TIME
  if off = 0x40 then s.timeCtrl src (v.getLsbD 1) (v.getLsbD 2)
  else if off = 0x4C then s.incCommit src v
  else if off = 0x6C then s.stepCommit src v
  else if off = 0xC8 then nextOr s (execTensionErr src v s)
  else if off = 0x1200 then
    let t := s.storeReg a v
    if v.getLsbD 1 then nextOr t (execPtmNow src t) else t
  else
    match (List.finRange 8).find? (fun n => decide (off / 0x20 = 0x88 + n.val)) with
    | some n =>
      if off % 0x20 = 0 then
        let t := s.storeReg a v
        if v.toNat % 4 < 2 then t.evtArmSet n.val none else t
      else if off % 0x20 = 4 then if s.get Pg.TIME (TIME1.EVT_CTRL_MODE n.val) = 1 then s else s.storeReg a v
      else if off % 0x20 = 0x10 then s.evtArmWrite src n.val v
      else s.writePlain src a v
    | none => s.writePlain src a v

/-- `GAUGE` (R315): EN cleared discards the estimate in use. -/
def State.writeGauge (s : State) (src : Source) (p : Port) (a : Nat) (v : Word) : State :=
  let t := s.writePlain src a v
  if a = Pg.GAUGE p + GAUGE.CTRL.off ∧ t.bit (Pg.GAUGE p) GAUGE.CTRL_EN = false then (t.gaugeDiscard p).reselect else t

/-- `LINE_x` (R126, R141, R151, R155, R161). -/
def State.writeLine (s : State) (src : Source) (p : Port) (a : Nat) (v : Word) : State :=
  let off := a - Pg.LINE p
  if off = 0x64 then nextOr s (execLoadDataAccess src p (some v) s)
  else if off = 0x1040 then nextOr s (execLaserEnWrite src p v s)
  else if off = 0x2048 then s.txmonWrite src p v
  else if off = 0x40 then (s.writePlain src a v).fixedGain p
  else if off = 0x2040 then (s.writePlain src a v).biasHeld p
  else s.writePlain src a v

/-- `LFR_x` (R124, R210): an allocation slot that loses VALID gives up its grants. -/
def State.writeLfr (s : State) (src : Source) (p : Port) (a : Nat) (v : Word) : State :=
  let off := a - Pg.LFR p
  if off = 0x40 then nextOr s (execDsCtrlWrite src v p s)
  else if 0x140 ≤ off ∧ off < 0x240 then s.allocWrite p ((off - 0x140) / 4) v
  else s.writePlain src a v

/-- `CLS` (R331, R334, R337, R341). -/
def State.writeCls (s : State) (src : Source) (a : Nat) (v : Word) : State :=
  let off := a - Pg.CLS
  if off = 0x48 then s.hushWrite src v
  else if off = 0x58 then s.ftCmd src v
  else if off = 0xA4 then nextOr s (execRssDataAccess src (some v) s)
  else if off = 0xB0 then s.ruleCmd src v
  else s.writePlain src a v

/-- `SCHED` and `METER` (R353, R357). -/
def State.writeSched (s : State) (src : Source) (a : Nat) (v : Word) : State :=
  if a = Pg.SCHED + 0x44 then s.nodeCmd src v
  else if a = Pg.METER + 0x44 then s.polCmd src v
  else s.writePlain src a v

/-- `PATTERN` (R368, R371). -/
def State.writePattern (s : State) (src : Source) (a : Nat) (v : Word) : State :=
  let off := a - Pg.PATTERN
  if off = 0x58 then s.patternCmd src v
  else if off = 0x6C then nextOr s (execPatternEntDataWrite src v s)
  else s.writePlain src a v

/-- `SKEIN` and `DARN` (R378, R393, R402). -/
def State.writeSkein (s : State) (src : Source) (a : Nat) (v : Word) : State :=
  let off := a - Pg.SKEIN
  if Pg.DARN ≤ a then
    if a = Pg.DARN + DARN.CMD.off then s.darnCmd src v
    else s.writePlain src a v
  else if 0x40 ≤ off ∧ off < 0x240 ∧ off % 0x20 = 0 then s.poolCtrl src ((off - 0x40) / 0x20) v
  else if off = 0x290 then nextOr s (execFreeHiWrite src v s)
  else s.writePlain src a v

/-- `HQ` (R412, R416, R418, R433): FN_SEL is used by PF0, and a write to it from PF1 or a VF is ignored. -/
def State.writeHq (s : State) (src : Source) (a : Nat) (v : Word) : State :=
  let off := a - Pg.HQ
  let f := s.fnSel
  if off = 0x40 then
    match src with
    | .pf1 => s
    | .vf _ => s
    | _ => s.storeReg a v
  else if off = 0x44 then
    match Fn.ofFunc (s.epRange src) with
    | some g => s.ctrlWrite src g v.toNat
    | none => s
  else if off = 0x4C then s.setFnHost f { s.fnHost f with qbaseStaged := v.toNat % 2 ^ 17 }
  else if off = 0x50 then nextOr s (execFnQcountWrite src v s)
  else if off = 0x58 then (s.setFnHost f { s.fnHost f with win := s.winOf src a v }).endStage src a
  else if off = 0x64 then
    s.epCmd src v
  else s.writePlain src a v

/-- `CIPH` (R473 to R475). -/
def State.writeCiph (s : State) (src : Source) (a : Nat) (v : Word) : State :=
  let off := a - Pg.CIPH
  if off = 0x50 then
    s.laLockWrite src v
  else if off = 0x58 then nextOr s (execLaSubmit src v s)
  else if off = 0x1064 then s.msecCmd src v
  else s.writePlain src a v

/-- `PLY`: the takeover registers act as PLY_CONFIG sets them (R519 to R521). -/
def State.writePly (s : State) (src : Source) (a : Nat) (v : Word) : State :=
  let t := s.writePlain src a v
  if a = Pg.PLY + 0x4C ∨ a = Pg.PLY + 0x50 then t.tkoRefresh.holdGated
  else if Pg.PLY + 0x80 ≤ a ∧ a < Pg.PLY + 0xC0 then
    if t.role = Role.solo ∨ t.role = Role.serving then t.tkoUnbind.tkoBind else t
  else t

/-- A write that no rule stops, by the block of its register. -/
def State.writeBlock (s : State) (src : Source) (b : Block) (a : Nat) (v : Word) : State :=
  let port : Port := if b.inst = 0 then .portA else .portB
  match b.type with
  | 0x01 => s.writeDev src a v
  | 0x04 => if a = Pg.HOLD + HOLD.ALARM_SEC_HI.off then nextOr s (execAlarmCommit src v s) else s.writePlain src a v
  | 0x06 =>
    if a = Pg.SNAP + SNAP.CTRL.off then s.snapCtrl src v
    else if a = Pg.SNAP + SNAP.AT_SEC_HI.off then nextOr s (execSnapAtCommit src v s) else s.writePlain src a v
  | 0x07 => s.writeHook src a v
  | 0x08 => s.writeMark src a v
  | 0x10 => s.writeTime src a v
  | 0x12 => s.writeGauge src port a v
  | 0x20 => s.writeLine src port a v
  | 0x21 => s.writeLfr src port a v
  | 0x28 =>
    match fnOfBlock b with
    | some (.ndl n) =>
      if a = b.base + NDL.KICK.off then s.kick src n v
      else if a = b.base + NDL.CFG_OPMODE.off then (s.writePlain src a v).ndlCoef n
      else s.writePlain src a v
    | _ => s
  | 0x30 => s.writeCls src a v
  | 0x31 => s.writeSched src a v
  | 0x32 => s.writeSched src a v
  | 0x33 => s.writePattern src a v
  | 0x38 => s.writeSkein src a v
  | 0x3A => s.writeSkein src a v
  | 0x41 => s.writeHq src a v
  | 0x48 => s.writeCiph src a v
  | 0x58 => s.writePly src a v
  | _ => s.writePlain src a v

/-- A write of a register by a source (R28, R30, R31, R34, R40, R42): a snapshot view ignores it, a `_LO` register stages
it, and the rest follow the rules of their block. -/
def State.regWrite (s : State) (src : Source) (addr : Nat) (v : Word) : State :=
  match s.access src addr true with
  | .rejected p r => s.refuse src p r true addr
  | .ok a =>
    if pageHasSnap a && decide (0x800 ≤ a % 0x1000) then s
    else
      match blockOf a, rowOf a with
      | some b, some row =>
        if a % 0x1000 < 0x40 then s.writeHeader src b a v
        else
          match s.writeStop src b a v with
          | some r => s.refuse src (a - a % 0x1000) r true addr
          | none =>
            if row.pairLo then { s with staging := SMap.set stageReset s.staging (latchKey a src) ⟨some (a % 0x1000), v⟩ }
            else if perSource a && decide (row.rw ≠ 0) then s.setSrcReg a src (row.store (s.srcReg a src) v)
            else s.writeBlock src b a v
      | _, _ => s

/-! ### Meanings -/

/-- REGISTER_WRITE (R28, R34, R40, R78). -/
def execRegisterWrite (src : Source) (addr : BitVec 24) (val : Word) (s : State) : Host.Outcome State Fault Refusal :=
  .next (s.regWrite src addr.toNat val)

/-- UNMAPPED_ACCESS (R25): outside every page it is recorded in `DEV.PAGE_ERR_INFO`; an offset that does lie in a
page is accessed as any is (R34). -/
def execUnmappedAccess (src : Source) (addr : BitVec 24) (write : Bool) (s : State) : Host.Outcome State Fault Refusal :=
  .next (match s.access src addr.toNat write with
    | .rejected p r => s.refuse src p r write addr.toNat
    | .ok _ => if write then s else s.regRead src addr.toNat)

/-- POWERED_OFF_ACCESS (R35): recorded in `DEV.PAGE_ERR_INFO` with reason POWERED_OFF, a read all ones. -/
def execPoweredOffAccess (src : Source) (addr : BitVec 24) (write : Bool) (s : State) : Host.Outcome State Fault Refusal :=
  .next (match s.access src addr.toNat write with
    | .rejected p r => s.refuse src p r write addr.toNat
    | .ok _ => if write then s else s.regRead src addr.toNat)

/-- READ_LO (R29). -/
def execReadLo (src : Source) (addr : BitVec 24) (s : State) : Host.Outcome State Fault Refusal :=
  .next (s.regRead src addr.toNat)

/-- READ_HI (R29). -/
def execReadHi (src : Source) (addr : BitVec 24) (s : State) : Host.Outcome State Fault Refusal :=
  .next (s.regRead src addr.toNat)

/-- WRITE_LO (R30). -/
def execWriteLo (src : Source) (addr : BitVec 24) (val : Word) (s : State) : Host.Outcome State Fault Refusal :=
  .next (s.regWrite src addr.toNat val)

/-- WRITE_HI (R30). -/
def execWriteHi (src : Source) (addr : BitVec 24) (val : Word) (s : State) : Host.Outcome State Fault Refusal :=
  .next (s.regWrite src addr.toNat val)

/-- RC_COUNTER_READ (R28, R44). -/
def execRcCounterRead (src : Source) (addr : BitVec 24) (s : State) : Host.Outcome State Fault Refusal :=
  .next (s.regRead src addr.toNat)

end Sys2Proof.Machine
end

