-- ==== Sys2Proof/Machine/Dispatch.lean ====
section
/-!
DEFINITION. Machine/Dispatch.lean: the effect of a command on everything but the queue of waiting commands.
-/

namespace Sys2Proof.Machine

def exec (i : Instr) (s : State) : Host.Outcome State Fault Refusal :=
  match i with
  | .registerWrite src addr val => Sys2Proof.Machine.execRegisterWrite src addr val s
  | .unmappedAccess src addr write => Sys2Proof.Machine.execUnmappedAccess src addr write s
  | .sizeViolationAccess src addr bytes write => Sys2Proof.Machine.execSizeViolationAccess src addr bytes write s
  | .poweredOffAccess src addr write => Sys2Proof.Machine.execPoweredOffAccess src addr write s
  | .readLo src addr => Sys2Proof.Machine.execReadLo src addr s
  | .readHi src addr => Sys2Proof.Machine.execReadHi src addr s
  | .writeLo src addr val => Sys2Proof.Machine.execWriteLo src addr val s
  | .writeHi src addr val => Sys2Proof.Machine.execWriteHi src addr val s
  | .rcCounterRead src addr => Sys2Proof.Machine.execRcCounterRead src addr s
  | .run src f => Sys2Proof.Machine.execRun src f s
  | .stopReq src f => Sys2Proof.Machine.execStopReq src f s
  | .blockReset src f => Sys2Proof.Machine.execBlockReset src f s
  | .forceStop src f => Sys2Proof.Machine.execForceStop src f s
  | .castOnComplete f => Sys2Proof.Machine.execCastOnComplete f s
  | .castOnFail f code => Sys2Proof.Machine.execCastOnFail f code s
  | .internalFault f code => Sys2Proof.Machine.execInternalFault f code s
  | .bindOffComplete f => Sys2Proof.Machine.execBindOffComplete f s
  | .snapArm src mode cancel => Sys2Proof.Machine.execSnapArm src mode cancel s
  | .snapNow src mode cancel => Sys2Proof.Machine.execSnapNow src mode cancel s
  | .snapCancel src => Sys2Proof.Machine.execSnapCancel src s
  | .snapAtCommit src hi => Sys2Proof.Machine.execSnapAtCommit src hi s
  | .snapCapture slot => Sys2Proof.Machine.execSnapCapture slot s
  | .snapComplete => Sys2Proof.Machine.execSnapComplete s
  | .coldReset straps supplyA supplyB => Sys2Proof.Machine.execColdReset straps supplyA supplyB s
  | .deviceReset cause straps => Sys2Proof.Machine.execDeviceReset cause straps s
  | .resetCtrlDevice src key straps => Sys2Proof.Machine.execResetCtrlDevice src key straps s
  | .pcieReset => Sys2Proof.Machine.execPcieReset s
  | .hookWatchdogExpiry core straps => Sys2Proof.Machine.execHookWatchdogExpiry core straps s
  | .bootStart => Sys2Proof.Machine.execBootStart s
  | .memoryTrainingComplete ok => Sys2Proof.Machine.execMemoryTrainingComplete ok s
  | .imageLoadComplete readOk => Sys2Proof.Machine.execImageLoadComplete readOk s
  | .fwReady => Sys2Proof.Machine.execFwReady s
  | .mbxOverrun ch => Sys2Proof.Machine.execMbxOverrun ch s
  | .unknownCmd ch tag code => Sys2Proof.Machine.execUnknownCmd ch tag code s
  | .getInfo ch tag => Sys2Proof.Machine.execGetInfo ch tag s
  | .getBootLog ch req => Sys2Proof.Machine.execGetBootLog ch req s
  | .recoveryLoad ch tag image => Sys2Proof.Machine.execRecoveryLoad ch tag image s
  | .flashRead ch tag offset length dest => Sys2Proof.Machine.execFlashRead ch tag offset length dest s
  | .flashErase ch tag r sector count => Sys2Proof.Machine.execFlashErase ch tag r sector count s
  | .flashWrite ch tag r offset data => Sys2Proof.Machine.execFlashWrite ch tag r offset data s
  | .imageVerify ch tag b => Sys2Proof.Machine.execImageVerify ch tag b s
  | .bankSelect ch tag b m => Sys2Proof.Machine.execBankSelect ch tag b m s
  | .rollbackCommit ch tag type => Sys2Proof.Machine.execRollbackCommit ch tag type s
  | .updateStart ch tag => Sys2Proof.Machine.execUpdateStart ch tag s
  | .updateStatus ch tag => Sys2Proof.Machine.execUpdateStatus ch tag s
  | .updateAbort ch tag => Sys2Proof.Machine.execUpdateAbort ch tag s
  | .coreMoveStart core => Sys2Proof.Machine.execCoreMoveStart core s
  | .coreMoveComplete core passed => Sys2Proof.Machine.execCoreMoveComplete core passed s
  | .certRead ch tag dest => Sys2Proof.Machine.execCertRead ch tag dest s
  | .quote ch tag nonce dest => Sys2Proof.Machine.execQuote ch tag nonce dest s
  | .measExtend ch tag reg input => Sys2Proof.Machine.execMeasExtend ch tag reg input s
  | .measRead ch tag dest => Sys2Proof.Machine.execMeasRead ch tag dest s
  | .fuseRead ch tag bit count => Sys2Proof.Machine.execFuseRead ch tag bit count s
  | .fuseProgram ch tag bit data caseTemp readBackOk => Sys2Proof.Machine.execFuseProgram ch tag bit data caseTemp readBackOk s
  | .protectAdvance ch tag req => Sys2Proof.Machine.execProtectAdvance ch tag req s
  | .debugChallenge ch tag => Sys2Proof.Machine.execDebugChallenge ch tag s
  | .debugResponse ch tag keySlot publicKey signature => Sys2Proof.Machine.execDebugResponse ch tag keySlot publicKey signature s
  | .random ch tag count => Sys2Proof.Machine.execRandom ch tag count s
  | .rootkeyLoad ch tag args => Sys2Proof.Machine.execRootkeyLoad ch tag args s
  | .entropyHealthFail => Sys2Proof.Machine.execEntropyHealthFail s
  | .drbgReseed => Sys2Proof.Machine.execDrbgReseed s
  | .entropyStartupRetest samples => Sys2Proof.Machine.execEntropyStartupRetest samples s
  | .syncSymbolFound p obs => Sys2Proof.Machine.execSyncSymbolFound p obs s
  | .syncSymbolMiss p => Sys2Proof.Machine.execSyncSymbolMiss p s
  | .headerBody p body => Sys2Proof.Machine.execHeaderBody p body s
  | .codewordArrival p kind rx => Sys2Proof.Machine.execCodewordArrival p kind rx s
  | .codewordDecoded p zero info parity iters at_ => Sys2Proof.Machine.execCodewordDecoded p zero info parity iters at_ s
  | .delineatorFeh p profile => Sys2Proof.Machine.execDelineatorFeh p profile s
  | .delineatorAnchor p profile => Sys2Proof.Machine.execDelineatorAnchor p profile s
  | .downstreamFrame p profile => Sys2Proof.Machine.execDownstreamFrame p profile s
  | .grantMap p => Sys2Proof.Machine.execGrantMap p s
  | .mgmtSection p => Sys2Proof.Machine.execMgmtSection p s
  | .timeSection p => Sys2Proof.Machine.execTimeSection p s
  | .losWindow p power clipped => Sys2Proof.Machine.execLosWindow p power clipped s
  | .defectWindowEnd p long => Sys2Proof.Machine.execDefectWindowEnd p long s
  | .lodEvaluation p => Sys2Proof.Machine.execLodEvaluation p s
  | .dsCtrlWrite src val p => Sys2Proof.Machine.execDsCtrlWrite src val p s
  | .cdrAcquireStart p => Sys2Proof.Machine.execCdrAcquireStart p s
  | .cdrAcquireTimeout p => Sys2Proof.Machine.execCdrAcquireTimeout p s
  | .cdrLoss p => Sys2Proof.Machine.execCdrLoss p s
  | .loadDataAccess src p write => Sys2Proof.Machine.execLoadDataAccess src p write s
  | .eqCaptureRecord p => Sys2Proof.Machine.execEqCaptureRecord p s
  | .txmonArm src p val => Sys2Proof.Machine.execTxmonArm src p val s
  | .txmonCancel src p val => Sys2Proof.Machine.execTxmonCancel src p val s
  | .txmonCaptureDone p first input => Sys2Proof.Machine.execTxmonCaptureDone p first input s
  | .burstStart p phase => Sys2Proof.Machine.execBurstStart p phase s
  | .burstComplete p order => Sys2Proof.Machine.execBurstComplete p order s
  | .benStuck p => Sys2Proof.Machine.execBenStuck p s
  | .laserEnWrite src p val => Sys2Proof.Machine.execLaserEnWrite src p val s
  | .optFault p faultPin => Sys2Proof.Machine.execOptFault p faultPin s
  | .optPresent p presentPin => Sys2Proof.Machine.execOptPresent p presentPin s
  | .biasRampStep p => Sys2Proof.Machine.execBiasRampStep p s
  | .rssiSample p sample => Sys2Proof.Machine.execRssiSample p sample s
  | .ndlLd n d e => Sys2Proof.Machine.execNdlLd n d e s
  | .ndlLdp n d e => Sys2Proof.Machine.execNdlLdp n d e s
  | .ndlSt n e d => Sys2Proof.Machine.execNdlSt n e d s
  | .ndlStp n e d => Sys2Proof.Machine.execNdlStp n e d s
  | .ndlLdi n r v => Sys2Proof.Machine.execNdlLdi n r v s
  | .ndlLdil n r v => Sys2Proof.Machine.execNdlLdil n r v s
  | .ndlMov n r q => Sys2Proof.Machine.execNdlMov n r q s
  | .ndlLea n pd ps mk => Sys2Proof.Machine.execNdlLea n pd ps mk s
  | .ndlLda n a e => Sys2Proof.Machine.execNdlLda n a e s
  | .ndlSth n e a => Sys2Proof.Machine.execNdlSth n e a s
  | .ndlStl n e a => Sys2Proof.Machine.execNdlStl n e a s
  | .ndlStah n d a => Sys2Proof.Machine.execNdlStah n d a s
  | .ndlAdd n d q x => Sys2Proof.Machine.execNdlAdd n d q x s
  | .ndlSub n d q x => Sys2Proof.Machine.execNdlSub n d q x s
  | .ndlAdds n d q x => Sys2Proof.Machine.execNdlAdds n d q x s
  | .ndlSubs n d q x => Sys2Proof.Machine.execNdlSubs n d q x s
  | .ndlAnd n d q x => Sys2Proof.Machine.execNdlAnd n d q x s
  | .ndlOr n d q x => Sys2Proof.Machine.execNdlOr n d q x s
  | .ndlXor n d q x => Sys2Proof.Machine.execNdlXor n d q x s
  | .ndlShl n d q k => Sys2Proof.Machine.execNdlShl n d q k s
  | .ndlShr n d q k => Sys2Proof.Machine.execNdlShr n d q k s
  | .ndlShrl n d q k => Sys2Proof.Machine.execNdlShrl n d q k s
  | .ndlAbs n d q => Sys2Proof.Machine.execNdlAbs n d q s
  | .ndlCmp n q x => Sys2Proof.Machine.execNdlCmp n q x s
  | .ndlNorm n d a => Sys2Proof.Machine.execNdlNorm n d a s
  | .ndlDivs n d q => Sys2Proof.Machine.execNdlDivs n d q s
  | .ndlMpy n a x y => Sys2Proof.Machine.execNdlMpy n a x y s
  | .ndlMpyi n a x y => Sys2Proof.Machine.execNdlMpyi n a x y s
  | .ndlMac n a x y => Sys2Proof.Machine.execNdlMac n a x y s
  | .ndlMsu n a x y => Sys2Proof.Machine.execNdlMsu n a x y s
  | .ndlMacd n a e f => Sys2Proof.Machine.execNdlMacd n a e f s
  | .ndlCmac n a x y => Sys2Proof.Machine.execNdlCmac n a x y s
  | .ndlCmacj n a x y => Sys2Proof.Machine.execNdlCmacj n a x y s
  | .ndlPwr n a x => Sys2Proof.Machine.execNdlPwr n a x s
  | .ndlPwra n a x => Sys2Proof.Machine.execNdlPwra n a x s
  | .ndlAdda n a b => Sys2Proof.Machine.execNdlAdda n a b s
  | .ndlSuba n a b => Sys2Proof.Machine.execNdlSuba n a b s
  | .ndlSha n a k => Sys2Proof.Machine.execNdlSha n a k s
  | .ndlNega n a => Sys2Proof.Machine.execNdlNega n a s
  | .ndlClra n a => Sys2Proof.Machine.execNdlClra n a s
  | .ndlSetix n v => Sys2Proof.Machine.execNdlSetix n v s
  | .ndlImin n v d e => Sys2Proof.Machine.execNdlImin n v d e s
  | .ndlImax n v d e => Sys2Proof.Machine.execNdlImax n v d e s
  | .ndlImin2 n v d e => Sys2Proof.Machine.execNdlImin2 n v d e s
  | .ndlImax2 n v d e => Sys2Proof.Machine.execNdlImax2 n v d e s
  | .ndlBr n cond to_ => Sys2Proof.Machine.execNdlBr n cond to_ s
  | .ndlCall n to_ => Sys2Proof.Machine.execNdlCall n to_ s
  | .ndlRet n => Sys2Proof.Machine.execNdlRet n s
  | .ndlLoop n k c end_ => Sys2Proof.Machine.execNdlLoop n k c end_ s
  | .ndlRep n c => Sys2Proof.Machine.execNdlRep n c s
  | .ndlClrf n mask => Sys2Proof.Machine.execNdlClrf n mask s
  | .ndlClaim n p slot => Sys2Proof.Machine.execNdlClaim n p slot s
  | .ndlRelease n slot => Sys2Proof.Machine.execNdlRelease n slot s
  | .ndlXfer n pd ps d => Sys2Proof.Machine.execNdlXfer n pd ps d s
  | .ndlWaitx n => Sys2Proof.Machine.execNdlWaitx n s
  | .ndlSignal n code => Sys2Proof.Machine.execNdlSignal n code s
  | .ndlHalt n => Sys2Proof.Machine.execNdlHalt n s
  | .ndlNop n => Sys2Proof.Machine.execNdlNop n s
  | .illegalInstruction n => Sys2Proof.Machine.execIllegalInstruction n s
  | .xferComplete n => Sys2Proof.Machine.execXferComplete n s
  | .needleTrigger n source slot => Sys2Proof.Machine.execNeedleTrigger n source slot s
  | .needlePeriodTimer n => Sys2Proof.Machine.execNeedlePeriodTimer n s
  | .kick src n val => Sys2Proof.Machine.execKick src n val s
  | .maxCyclesExceeded n => Sys2Proof.Machine.execMaxCyclesExceeded n s
  | .ndlLoad ch tag args image => Sys2Proof.Machine.execNdlLoad ch tag args image s
  | .ndlAssign ch tag args => Sys2Proof.Machine.execNdlAssign ch tag args s
  | .ndlStatus ch tag => Sys2Proof.Machine.execNdlStatus ch tag s
  | .drawClose p => Sys2Proof.Machine.execDrawClose p s
  | .allocInvalidate src p slot val => Sys2Proof.Machine.execAllocInvalidate src p slot val s
  | .treeParams p msg => Sys2Proof.Machine.execTreeParams p msg s
  | .assignAddr p msg => Sys2Proof.Machine.execAssignAddr p msg s
  | .rangingResult p msg => Sys2Proof.Machine.execRangingResult p msg s
  | .proveChallenge p msg => Sys2Proof.Machine.execProveChallenge p msg s
  | .proveResult p msg => Sys2Proof.Machine.execProveResult p msg s
  | .profileAssign p msg => Sys2Proof.Machine.execProfileAssign p msg s
  | .profileRetire p => Sys2Proof.Machine.execProfileRetire p s
  | .allocAssign p msg => Sys2Proof.Machine.execAllocAssign p msg s
  | .keyUse p msg => Sys2Proof.Machine.execKeyUse p msg s
  | .msgMute p msg => Sys2Proof.Machine.execMsgMute p msg s
  | .msgUnmute p msg => Sys2Proof.Machine.execMsgUnmute p msg s
  | .deregister p msg => Sys2Proof.Machine.execDeregister p msg s
  | .msgDoze p msg => Sys2Proof.Machine.execMsgDoze p msg s
  | .msgAck p msg => Sys2Proof.Machine.execMsgAck p msg s
  | .dsProfileDesc p msg => Sys2Proof.Machine.execDsProfileDesc p msg s
  | .usProfileDesc p msg => Sys2Proof.Machine.execUsProfileDesc p msg s
  | .usProfileApply p => Sys2Proof.Machine.execUsProfileApply p s
  | .distortionReport p msg => Sys2Proof.Machine.execDistortionReport p msg s
  | .keyOffer p msg => Sys2Proof.Machine.execKeyOffer p msg s
  | .tunnelMessage p => Sys2Proof.Machine.execTunnelMessage p s
  | .unsolicitedResend p => Sys2Proof.Machine.execUnsolicitedResend p s
  | .tAnnounce p => Sys2Proof.Machine.execTAnnounce p s
  | .tRange p => Sys2Proof.Machine.execTRange p s
  | .tProve p => Sys2Proof.Machine.execTProve p s
  | .tHold p => Sys2Proof.Machine.execTHold p s
  | .regDefectClear p => Sys2Proof.Machine.execRegDefectClear p s
  | .leaveSlotTimeout p => Sys2Proof.Machine.execLeaveSlotTimeout p s
  | .lineConfig ch tag args => Sys2Proof.Machine.execLineConfig ch tag args s
  | .lineCastOn ch tag args => Sys2Proof.Machine.execLineCastOn ch tag args s
  | .lineStatus ch tag args => Sys2Proof.Machine.execLineStatus ch tag args s
  | .lineMute ch tag args => Sys2Proof.Machine.execLineMute ch tag args s
  | .dualhomeConfig ch tag args => Sys2Proof.Machine.execDualhomeConfig ch tag args s
  | .apsCommand ch tag args => Sys2Proof.Machine.execApsCommand ch tag args s
  | .apsEvaluation => Sys2Proof.Machine.execApsEvaluation s
  | .wtrExpiry => Sys2Proof.Machine.execWtrExpiry s
  | .holdoffExpiry => Sys2Proof.Machine.execHoldoffExpiry s
  | .apsSwitch => Sys2Proof.Machine.execApsSwitch s
  | .lineDozeBacklog p => Sys2Proof.Machine.execLineDozeBacklog p s
  | .alignmentInstant => Sys2Proof.Machine.execAlignmentInstant s
  | .incCommit src hi => Sys2Proof.Machine.execIncCommit src hi s
  | .stepCommit src hi => Sys2Proof.Machine.execStepCommit src hi s
  | .jumpArm src disarm => Sys2Proof.Machine.execJumpArm src disarm s
  | .jumpDisarm src => Sys2Proof.Machine.execJumpDisarm src s
  | .jumpArmTimeout => Sys2Proof.Machine.execJumpArmTimeout s
  | .nowFracRead src => Sys2Proof.Machine.execNowFracRead src s
  | .tensionErr src err => Sys2Proof.Machine.execTensionErr src err s
  | .timeRef p msg => Sys2Proof.Machine.execTimeRef p msg s
  | .timeRefAgeExpiry p => Sys2Proof.Machine.execTimeRefAgeExpiry p s
  | .preferRevertTimer => Sys2Proof.Machine.execPreferRevertTimer s
  | .lockQualifyTimer => Sys2Proof.Machine.execLockQualifyTimer s
  | .noSelectionTimer => Sys2Proof.Machine.execNoSelectionTimer s
  | .holdoverExpiry => Sys2Proof.Machine.execHoldoverExpiry s
  | .trefLost => Sys2Proof.Machine.execTrefLost s
  | .trefRestored => Sys2Proof.Machine.execTrefRestored s
  | .timeConfig ch tag args => Sys2Proof.Machine.execTimeConfig ch tag args s
  | .timeStatus ch tag args => Sys2Proof.Machine.execTimeStatus ch tag args s
  | .ppsOutAssert n => Sys2Proof.Machine.execPpsOutAssert n s
  | .ppsOutDeassert n => Sys2Proof.Machine.execPpsOutDeassert n s
  | .todSentence => Sys2Proof.Machine.execTodSentence s
  | .ppsInEdge n rising phase => Sys2Proof.Machine.execPpsInEdge n rising phase s
  | .todRxSentence chars => Sys2Proof.Machine.execTodRxSentence chars s
  | .evtCapture pin rising phase => Sys2Proof.Machine.execEvtCapture pin rising phase s
  | .evtFracRead src pin => Sys2Proof.Machine.execEvtFracRead src pin s
  | .evtTriggerArm src pin hi => Sys2Proof.Machine.execEvtTriggerArm src pin hi s
  | .evtTriggerFire pin => Sys2Proof.Machine.execEvtTriggerFire pin s
  | .evtTriggerEnd pin => Sys2Proof.Machine.execEvtTriggerEnd pin s
  | .ptmNow src => Sys2Proof.Machine.execPtmNow src s
  | .ptmPeriodTimer => Sys2Proof.Machine.execPtmPeriodTimer s
  | .ptmResponse masterNs propNs => Sys2Proof.Machine.execPtmResponse masterNs propNs s
  | .ptmTimeout => Sys2Proof.Machine.execPtmTimeout s
  | .tsqPop src q => Sys2Proof.Machine.execTsqPop src q s
  | .launchTimeReached => Sys2Proof.Machine.execLaunchTimeReached s
  | .gaugeFitStart p => Sys2Proof.Machine.execGaugeFitStart p s
  | .gaugeFitDone p optics => Sys2Proof.Machine.execGaugeFitDone p optics s
  | .gaugeExpired p => Sys2Proof.Machine.execGaugeExpired p s
  | .classifyFrame ing => Sys2Proof.Machine.execClassifyFrame ing s
  | .ftInsert src val => Sys2Proof.Machine.execFtInsert src val s
  | .ftDelete src val => Sys2Proof.Machine.execFtDelete src val s
  | .ftModify src val => Sys2Proof.Machine.execFtModify src val s
  | .ftQuery src val => Sys2Proof.Machine.execFtQuery src val s
  | .ftRead src val => Sys2Proof.Machine.execFtRead src val s
  | .ftDone => Sys2Proof.Machine.execFtDone s
  | .ftHitWriteback location => Sys2Proof.Machine.execFtHitWriteback location s
  | .ruleWrite src val => Sys2Proof.Machine.execRuleWrite src val s
  | .ruleRead src val => Sys2Proof.Machine.execRuleRead src val s
  | .ruleInvalidate src val => Sys2Proof.Machine.execRuleInvalidate src val s
  | .rssDataAccess src write => Sys2Proof.Machine.execRssDataAccess src write s
  | .hushRequest src val => Sys2Proof.Machine.execHushRequest src val s
  | .hushed => Sys2Proof.Machine.execHushed s
  | .hushRelease src val => Sys2Proof.Machine.execHushRelease src val s
  | .hushExpired => Sys2Proof.Machine.execHushExpired s
  | .enqueue => Sys2Proof.Machine.execEnqueue s
  | .schedulerSelect egress sub => Sys2Proof.Machine.execSchedulerSelect egress sub s
  | .stallDrop queue => Sys2Proof.Machine.execStallDrop queue s
  | .refillTick => Sys2Proof.Machine.execRefillTick s
  | .nodeRead src val => Sys2Proof.Machine.execNodeRead src val s
  | .nodeWrite src val => Sys2Proof.Machine.execNodeWrite src val s
  | .polRead src val => Sys2Proof.Machine.execPolRead src val s
  | .polWrite src val => Sys2Proof.Machine.execPolWrite src val s
  | .deadlineDue egress => Sys2Proof.Machine.execDeadlineDue egress s
  | .patternCommit src val => Sys2Proof.Machine.execPatternCommit src val s
  | .patternAbort src val => Sys2Proof.Machine.execPatternAbort src val s
  | .patternStart egress => Sys2Proof.Machine.execPatternStart egress s
  | .patternEntryAdvance egress => Sys2Proof.Machine.execPatternEntryAdvance egress s
  | .patternEntDataWrite src val => Sys2Proof.Machine.execPatternEntDataWrite src val s
  | .poolEnable src pool val => Sys2Proof.Machine.execPoolEnable src pool val s
  | .poolInitDone pool => Sys2Proof.Machine.execPoolInitDone pool s
  | .poolDisable src pool val => Sys2Proof.Machine.execPoolDisable src pool val s
  | .poolDrainEnd pool => Sys2Proof.Machine.execPoolDrainEnd pool s
  | .allocation producer bytes => Sys2Proof.Machine.execAllocation producer bytes s
  | .freeBuffer caller handle => Sys2Proof.Machine.execFreeBuffer caller handle s
  | .handover caller handle to_ => Sys2Proof.Machine.execHandover caller handle to_ s
  | .spillTick => Sys2Proof.Machine.execSpillTick s
  | .allocLoRead src => Sys2Proof.Machine.execAllocLoRead src s
  | .freeHiWrite src val => Sys2Proof.Machine.execFreeHiWrite src val s
  | .patrolScrub words rows => Sys2Proof.Machine.execPatrolScrub words rows s
  | .sramPatrol corrected bad => Sys2Proof.Machine.execSramPatrol corrected bad s
  | .remap src val => Sys2Proof.Machine.execRemap src val s
  | .darnQuery src val => Sys2Proof.Machine.execDarnQuery src val s
  | .darnCopyDone => Sys2Proof.Machine.execDarnCopyDone s
  | .bar4Access func offset bytes write => Sys2Proof.Machine.execBar4Access func offset bytes write s
  | .featCommit src val => Sys2Proof.Machine.execFeatCommit src val s
  | .fnQcountWrite src val => Sys2Proof.Machine.execFnQcountWrite src val s
  | .epRead src val => Sys2Proof.Machine.execEpRead src val s
  | .epWrite src val => Sys2Proof.Machine.execEpWrite src val s
  | .sqTailDoorbell func k val => Sys2Proof.Machine.execSqTailDoorbell func k val s
  | .rqTailDoorbell func k val => Sys2Proof.Machine.execRqTailDoorbell func k val s
  | .cqHeadDoorbell func k val => Sys2Proof.Machine.execCqHeadDoorbell func k val s
  | .descriptorFetch ep descs => Sys2Proof.Machine.execDescriptorFetch ep descs s
  | .fetchComplete ep how => Sys2Proof.Machine.execFetchComplete ep how s
  | .modTimerExpiry ep => Sys2Proof.Machine.execModTimerExpiry ep s
  | .linkL1ExitDone => Sys2Proof.Machine.execLinkL1ExitDone s
  | .d3hotEntry func => Sys2Proof.Machine.execD3hotEntry func s
  | .d0Return func => Sys2Proof.Machine.execD0Return func s
  | .busMasterClear func => Sys2Proof.Machine.execBusMasterClear func s
  | .flr func => Sys2Proof.Machine.execFlr func s
  | .pf0Flr => Sys2Proof.Machine.execPf0Flr s
  | .eventRaise slot bit => Sys2Proof.Machine.execEventRaise slot bit s
  | .recordWithdraw src slot mask val => Sys2Proof.Machine.execRecordWithdraw src slot mask val s
  | .markerSelect => Sys2Proof.Machine.execMarkerSelect s
  | .markerCommit => Sys2Proof.Machine.execMarkerCommit s
  | .waitingReselect => Sys2Proof.Machine.execWaitingReselect s
  | .eqDb src val => Sys2Proof.Machine.execEqDb src val s
  | .eqPrio src val => Sys2Proof.Machine.execEqPrio src val s
  | .eqRead src val => Sys2Proof.Machine.execEqRead src val s
  | .eqWrite src val => Sys2Proof.Machine.execEqWrite src val s
  | .grpRead src val => Sys2Proof.Machine.execGrpRead src val s
  | .grpWrite src val => Sys2Proof.Machine.execGrpWrite src val s
  | .fnEqcountWrite src val => Sys2Proof.Machine.execFnEqcountWrite src val s
  | .markerHold src val => Sys2Proof.Machine.execMarkerHold src val s
  | .laLockAcquire src val => Sys2Proof.Machine.execLaLockAcquire src val s
  | .laLockRelease src val => Sys2Proof.Machine.execLaLockRelease src val s
  | .laSubmit src val => Sys2Proof.Machine.execLaSubmit src val s
  | .laDone source => Sys2Proof.Machine.execLaDone source s
  | .laPreempt => Sys2Proof.Machine.execLaPreempt s
  | .laResultRead src => Sys2Proof.Machine.execLaResultRead src s
  | .maskReseed => Sys2Proof.Machine.execMaskReseed s
  | .msecRead src val => Sys2Proof.Machine.execMsecRead src val s
  | .msecWrite src val => Sys2Proof.Machine.execMsecWrite src val s
  | .powerRequest ch tag args => Sys2Proof.Machine.execPowerRequest ch tag args s
  | .autoDozeTimer => Sys2Proof.Machine.execAutoDozeTimer s
  | .blockAgree => Sys2Proof.Machine.execBlockAgree s
  | .blockRefuse => Sys2Proof.Machine.execBlockRefuse s
  | .prepareTimeout => Sys2Proof.Machine.execPrepareTimeout s
  | .stateReached => Sys2Proof.Machine.execStateReached s
  | .wakeWatch k => Sys2Proof.Machine.execWakeWatch k s
  | .wakeAlarm => Sys2Proof.Machine.execWakeAlarm s
  | .wakePin => Sys2Proof.Machine.execWakePin s
  | .wakePerst => Sys2Proof.Machine.execWakePerst s
  | .wakeDoorbell func => Sys2Proof.Machine.execWakeDoorbell func s
  | .wakeFirmware => Sys2Proof.Machine.execWakeFirmware s
  | .wakeRestartComplete => Sys2Proof.Machine.execWakeRestartComplete s
  | .alarmCommit src hi => Sys2Proof.Machine.execAlarmCommit src hi s
  | .supplySwitch toB => Sys2Proof.Machine.execSupplySwitch toB s
  | .vholdAQualified => Sys2Proof.Machine.execVholdAQualified s
  | .backupLow mv => Sys2Proof.Machine.execBackupLow mv s
  | .holderReady tref => Sys2Proof.Machine.execHolderReady tref s
  | .mainSupplyFault straps => Sys2Proof.Machine.execMainSupplyFault straps s
  | .siteRxFrame n bytes sub fifoFree fecCorr fecUncorr => Sys2Proof.Machine.execSiteRxFrame n bytes sub fifoFree fecCorr fecUncorr s
  | .siteLinkUp n => Sys2Proof.Machine.execSiteLinkUp n s
  | .siteLinkDown n => Sys2Proof.Machine.execSiteLinkDown n s
  | .lpiEntry n => Sys2Proof.Machine.execLpiEntry n s
  | .lpiWake n sub => Sys2Proof.Machine.execLpiWake n sub s
  | .plyClockDetect => Sys2Proof.Machine.execPlyClockDetect s
  | .plyTrainComplete precode => Sys2Proof.Machine.execPlyTrainComplete precode s
  | .plyTrainTimeout => Sys2Proof.Machine.execPlyTrainTimeout s
  | .plyLock => Sys2Proof.Machine.execPlyLock s
  | .plyCapabilities serial twinId version twinInForce => Sys2Proof.Machine.execPlyCapabilities serial twinId version twinInForce s
  | .plyLinkLoss uncorrectable => Sys2Proof.Machine.execPlyLinkLoss uncorrectable s
  | .plyFrameFlit bytes last corr uncorr => Sys2Proof.Machine.execPlyFrameFlit bytes last corr uncorr s
  | .timeFlit t1 t2 t3 sub => Sys2Proof.Machine.execTimeFlit t1 t2 t3 sub s
  | .beatSend => Sys2Proof.Machine.execBeatSend s
  | .beatReceive regA regB working power role selected timeState => Sys2Proof.Machine.execBeatReceive regA regB working power role selected timeState s
  | .hbLost => Sys2Proof.Machine.execHbLost s
  | .tkoTake => Sys2Proof.Machine.execTkoTake s
  | .tkoYield => Sys2Proof.Machine.execTkoYield s
  | .tkoGuard => Sys2Proof.Machine.execTkoGuard s
  | .tkoAbort => Sys2Proof.Machine.execTkoAbort s
  | .dualServe => Sys2Proof.Machine.execDualServe s
  | .plyConfig ch tag args => Sys2Proof.Machine.execPlyConfig ch tag args s
  | .plyTake ch tag args => Sys2Proof.Machine.execPlyTake ch tag args s
  | .plyYield ch tag args => Sys2Proof.Machine.execPlyYield ch tag args s
  | .thermAlert tj => Sys2Proof.Machine.execThermAlert tj s
  | .thermalTrip => Sys2Proof.Machine.execThermalTrip s
  | .monRailSample mv => Sys2Proof.Machine.execMonRailSample mv s
  | .linkTrainingComplete speed width => Sys2Proof.Machine.execLinkTrainingComplete speed width s
  | .perstDeassertion => Sys2Proof.Machine.execPerstDeassertion s
  | .aspmL1Entry => Sys2Proof.Machine.execAspmL1Entry s
  | .mainRailsValid straps => Sys2Proof.Machine.execMainRailsValid straps s
  | .holderSuppliesLost => Sys2Proof.Machine.execHolderSuppliesLost s
  | .moduleChange n present => Sys2Proof.Machine.execModuleChange n present s
  | .boundaryScan => Sys2Proof.Machine.execBoundaryScan s
  | .hookRestart core => Sys2Proof.Machine.execHookRestart core s
  | .lssClear p => Sys2Proof.Machine.execLssClear p s

end Sys2Proof.Machine
end

