-- ==== Sys2Proof/Machine/Step.lean ====
section
/-!
DEFINITION. Machine/Step.lean: one step of the block.

A step takes the command at the front of the queue and runs it on the state with the rest of the queue.  With nothing
waiting, one cycle of `ck_time` passes: the time counter advances and nothing else is commanded.
-/

namespace Sys2Proof.Machine

/-- One step: the command at the front of the queue, or one `ck_time` cycle. -/
def step (s : State) : Host.Outcome State Fault Refusal :=
  match s.pending with
  | [] => .next s.cycle
  | c :: cs => exec c { s with pending := cs }

/-- The state with a command at the front of its queue. -/
def State.withFront (s : State) (c : Instr) : State := { s with pending := c :: s.pending }

/-- The state with the command a table word spells at the front of its queue; no word spells one. -/
def State.withFetchWord (s : State) (nbits w : Nat) : State :=
  match Sys2Proof.decodeTableWord nbits w with
  | some c => s.withFront c
  | none => s

end Sys2Proof.Machine
end

