-- ==== Sys2Proof/Safety.lean ====
section
/-!
DEFINITION. Safety.lean: the terms in which claims about the block are stated: a command that answers, an access that
every check lets through, what a command leaves alone, and what every run keeps.
-/

namespace Sys2Proof.Machine

/-- The command answers a next state, and `Q` holds of it. -/
def Answers (c : Instr) (s : State) (Q : State → Prop) : Prop := ∃ t, exec c s = .next t ∧ Q t

/-- Every check that an access meets before its register's own rules lets the access through (R25, R34, R35, R411). -/
def Granted (src : Source) (a : Nat) (write : Bool) (s : State) : Prop := s.accessReg src a write = .ok a

/-- Every register but those listed reads as before. -/
def OnlyRegs (l : List Nat) (s t : State) : Prop := ∀ a, a ∉ l → t.rd a = s.rd a

/-- Every register outside the pages listed reads as before. -/
def OnlyPages (l : List Nat) (s t : State) : Prop := ∀ a, a - a % 0x1000 ∉ l → t.rd a = s.rd a

/-- The record that R34 leaves of a rejected access in the header of a page, and nothing else: the last SOURCE, REASON,
direction and offset, one more in COUNT, and ACCESS_REJECTED. -/
def RejectedTo (src : Source) (page code : Nat) (write : Bool) (addr : Nat) (s t : State) : Prop :=
  t.get page HDR.PAGE_ERR_COUNT = min 255 (s.get page HDR.PAGE_ERR_COUNT + 1) ∧
  t.get page ⟨HDR.PAGE_ERR_INFO.off, 20, 4⟩ = src.code ∧ t.get page ⟨HDR.PAGE_ERR_INFO.off, 16, 4⟩ = code ∧
  t.get page ⟨HDR.PAGE_ERR_INFO.off, 15, 1⟩ = (if write then 1 else 0) ∧
  t.get page ⟨HDR.PAGE_ERR_INFO.off, 0, 12⟩ = addr % 0x1000 ∧
  t.bit page ⟨HDR.PAGE_EVENT.off, 2, 1⟩ = true ∧
  OnlyRegs [page + HDR.PAGE_ERR_INFO.off, page + HDR.PAGE_EVENT.off] s t ∧
  (if write then t = { s with regs := t.regs } else t = { s with regs := t.regs, rdata := t.rdata })

/-- A mailbox channel that serves a request at once: GO reaches it, it is not BUSY, core 0 is not being moved, firmware is
ready, and channel 1 is open to every command (R65, R78, R80, R83). -/
def MbxOpen (ch : Chan) (s : State) : Prop :=
  Granted (chanSource ch) (Pg.HOOK ch + HOOK.MBX_CTRL.off) true s ∧ s.bit (Pg.HOOK ch) HOOK.MBX_STAT_BUSY = false ∧
  (s.upd.active = false ∨ s.upd.phase ≠ .moving 0) ∧ s.fwIsReady = true ∧ (ch = .ch1 → s.fuses.oobFull = true)

/-- The response R78 gives a request: TAG, LENGTH, STATUS and the words, with DONE, MBX_DONE and BUSY clear. -/
def MbxReply (ch : Chan) (tag : Byte) (status : Nat) (words : List Word) (t : State) : Prop :=
  t.rdWords (Pg.HOOK ch + 0x100) ((words.take 31).length + 1) =
    BitVec.ofNat 32 (tag.toNat * 2 ^ 24 + 4 * (words.take 31).length * 2 ^ 16 + status) :: words.take 31 ∧
  t.bit (Pg.HOOK ch) HOOK.MBX_STAT_BUSY = false ∧ t.bit (Pg.HOOK ch) HOOK.MBX_STAT_DONE = true ∧
  t.bit (Pg.HOOK ch) ⟨HDR.PAGE_EVENT.off, 9, 1⟩ = true

/-- Data answered (R78): up to 124 bytes in the response; more by DMA on channel 0, and on channel 1 the chunk from
`dest` on. -/
def MbxData (ch : Chan) (tag : Byte) (dest : Nat) (bytes : List Byte) (s t : State) : Prop :=
  if bytes.length ≤ 124 then MbxReply ch tag Sts.ok (wordsOf bytes) t ∧ t.out = s.out
  else match ch with
    | .ch0 => MbxReply ch tag Sts.ok [] t ∧ t.out = s.out ++ [.dmaWrite dest bytes]
    | .ch1 => MbxReply ch tag Sts.ok (wordsOf ((bytes.drop dest).take 124)) t ∧ t.out = s.out

/-- A downstream short message of a TYPE that firmware acts on (R228, R229): its CRC is right, it is addressed to this
terminal, and the port is not in DOWN. -/
def ShortHeard (type : Nat) (p : Port) (m : List Byte) (s : State) : Prop :=
  m.length = 64 ∧ msgField m 0 1 = type ∧ shortCrcOk m = true ∧ s.shortForUs p m = true ∧ s.serialOk m = true ∧
  s.regSt p ≠ RegSt.down ∧ s.coreMoves p = false ∧ (s.rg p).early.contains m = false

/-- A downstream tunnel message of a TYPE that firmware acts on (R230): in PROVE or WORK. -/
def TunnelHeard (type : Nat) (p : Port) (m : List Byte) (s : State) : Prop :=
  4 ≤ m.length ∧ msgField m 0 1 = type ∧ msgField m 2 2 ≤ m.length - 4 ∧ (s.regSt p = RegSt.prove ∨ s.regSt p = RegSt.work) ∧
  s.coreMoves p = false ∧ (s.rg p).early.contains m = false

/-- A request that is not the repetition of the last one of its TYPE (R231). -/
def NewRequest (p : Port) (m : List Byte) (s : State) : Prop :=
  ∀ x, SMap.get (fun _ => none) (s.rg p).lastReq (msgField m 0 1) = some x → x.1 ≠ msgField m 1 1

/-- An upstream ACK to a message, with a STATUS, is the last thing put in the queue of the next management slot. -/
def Acked (p : Port) (m : List Byte) (status : Nat) (s t : State) : Prop :=
  ∃ seq addr, (t.up p).mgmtQ = (s.up p).mgmtQ ++ [shortMsg 0x83 seq addr [m.getD 0 0, m.getD 1 0, BitVec.ofNat 8 status]]

/-- A wake out of a reduced state (R492, R493): the ledger's next record names the source, and the restart has begun;
out of KEEP the holder raises PWR_MAIN_EN. -/
def Woken (code detail : Nat) (s t : State) : Prop :=
  let i := s.get Pg.HOLD HOLD.LEDGER_NEXT
  t.power.waking = true ∧ t.power.latched = none ∧ t.pstate = s.pstate ∧
  t.get Pg.HOLD HOLD.LEDGER_NEXT = (i + 1) % 16 ∧
  t.rdWords (Pg.HOLD + (HOLD.LEDGER_SEC i).off) 3 =
    [BitVec.ofNat 32 (secOf s.clock.cnt), BitVec.ofNat 32 (nsOf s.clock.cnt),
      BitVec.ofNat 32 (2 ^ 31 + s.pstate * 2 ^ 16 + detail % 256 * 2 ^ 8 + code)] ∧
  t.bit Pg.HOLD ⟨HDR.PAGE_EVENT.off, 10, 1⟩ = true ∧
  (s.pstate = Pst.keep → t.bit Pg.HOLD HOLD.SUPPLY_MAIN_EN = true ∧ t.pin Pin.mainEn = true)

/-- An attempt at a reduced state that a block ends (R488): every domain runs, the state is as it was, and
`PWR.LAST_ATTEMPT` names the block and the reason. -/
def AttemptFailed (slot reason : Nat) (s t : State) : Prop :=
  t.powerBusy = false ∧ t.pstate = s.pstate ∧ t.domOff = [] ∧ t.power.ask = [] ∧ t.get Pg.HOLD HOLD.WAKE_LATCH = 0 ∧
  t.rd (Pg.PWR + PWR.LAST_ATTEMPT.off) = BitVec.ofNat 32 (2 ^ 28 + slot * 2 ^ 16 + reason * 2 ^ 8 + s.ptarget) ∧
  t.get Pg.HOLD HOLD.ATTEMPTS_FAILED = satAdd32 (s.get Pg.HOLD HOLD.ATTEMPTS_FAILED) 1 ∧
  t.bit Pg.PWR ⟨HDR.PAGE_EVENT.off, 9, 1⟩ = true

/-- A stall of one cycle: the previous instruction wrote an accumulator that this one reads (R177). -/
def nstall (n : Fin 8) (reads : List (Fin 4)) (s : State) : Nat :=
  if reads.any (fun a => (s.eng n).accW.contains a) then 1 else 0

/-- An instruction of an engine completed (R177, R181, R197): `u` is the state with its operands taken and its results
written; `cycles` are counted, PC goes on (round a loop or a REP), and nothing else happens. -/
def NDid (n : Fin 8) (cycles : Nat) (writes : List (Fin 4)) (u s t : State) : Prop :=
  t.eng n = { u.eng n with accW := writes, cycles := (u.eng n).cycles + cycles, wait := .none }.after ∧
  (∀ m, m ≠ n → t.eng m = s.eng m) ∧
  t.get64 (Pg.NDL n) NDL.BUSY_CYCLES_LO = wrapAdd64 (s.get64 (Pg.NDL n) NDL.BUSY_CYCLES_LO) cycles ∧
  OnlyRegs [Pg.NDL n + NDL.BUSY_CYCLES_LO.off, Pg.NDL n + NDL.BUSY_CYCLES_LO.off + 4] u t ∧
  t = { s with regs := t.regs, ndl := t.ndl, free := u.free, out := u.out }

/-- The same of an instruction that sets PC itself: `x` is the engine it leaves. -/
def NJumped (n : Fin 8) (cycles : Nat) (x : Ndl) (s t : State) : Prop :=
  t.eng n = { x with accW := [], cycles := x.cycles + cycles, wait := .none } ∧ (∀ m, m ≠ n → t.eng m = s.eng m) ∧
  t.get64 (Pg.NDL n) NDL.BUSY_CYCLES_LO = wrapAdd64 (s.get64 (Pg.NDL n) NDL.BUSY_CYCLES_LO) cycles ∧
  OnlyRegs [Pg.NDL n + NDL.BUSY_CYCLES_LO.off, Pg.NDL n + NDL.BUSY_CYCLES_LO.off + 4] s t ∧
  t = { s with regs := t.regs, ndl := t.ndl, free := t.free }

/-- An engine enters FAULT with a code (R38, R189): its run, its moves and its claims are over, and a kernel that waited for
it is loaded; no live reload is in progress. -/
def NFaulted (n : Fin 8) (code : Nat) (s t : State) : Prop :=
  s.reload.phase = .idle →
  t.fn (.ndl n) = ⟨.fault, false, code⟩ ∧ (t.eng n).lastFault = code ∧ t.ndlBusy n = false ∧ t.ndlPend n = false ∧
  (t.eng n).moves = [] ∧ (t.eng n).claims = [] ∧ ((s.eng n).next = none → (t.eng n).mem = (s.eng n).mem) ∧
  (∀ k, (s.eng n).next = some k → (t.eng n).kernel = some k ∧ (t.eng n).next = none) ∧ (∀ m, m ≠ n → t.eng m = s.eng m) ∧
  (∀ f : Fn, f ≠ .ndl n → t.fn f = s.fn f) ∧ t = { s with regs := t.regs, fns := t.fns, ndl := t.ndl } ∧
  OnlyPages [Pg.NDL n] s t

/-- A trigger taken (R187): a run at the kernel's entry, a trigger held, or one too many. -/
def Triggered (n : Fin 8) (s t : State) : Prop :=
  (s.ndlBusy n = false →
    t.ndlBusy n = true ∧ t.ndlPend n = s.ndlPend n ∧ (t.eng n).loops = [] ∧ (t.eng n).calls = [] ∧ (t.eng n).cycles = 0 ∧
    (∀ k, s.ndlKernel n = some k → (t.eng n).pc = k.entry)) ∧
  (s.ndlBusy n = true → s.ndlPend n = false → t.ndlPend n = true ∧ t.ndl = s.ndl) ∧
  (s.ndlBusy n = true → s.ndlPend n = true →
    t.get (Pg.NDL n) NDL.TRIG_OVERRUN = satAdd32 (s.get (Pg.NDL n) NDL.TRIG_OVERRUN) 1 ∧
    t.bit (Pg.NDL n) ⟨HDR.PAGE_EVENT.off, 9, 1⟩ = true ∧ t.ndl = s.ndl) ∧
  t = { s with regs := t.regs, ndl := t.ndl } ∧ OnlyPages [Pg.NDL n] s t

/-- The memory holds its canonical form: addresses strictly rising, no byte listed that reads as an unlisted one. -/
def Memory.wf (s : State) : Bool := SMap.wf (fun _ => 0) s.mem.data

/-- A register map in its canonical form. -/
def Registers.wf (s : State) : Bool := SMap.wf resetOf s.regs

/-- The tables that later commands walk are in their canonical form, and each line port tells six defects apart. -/
def Coherent (s : State) : Prop :=
  Memory.wf s = true ∧ Registers.wf s = true ∧ SMap.wf nodeReset s.sched.nodes = true ∧
  SMap.wf polReset s.sched.pols = true ∧ ∀ p, (s.down p).raw.length = 6

/-- A protection set-up that only narrows another (R59). -/
def Narrower (f g : Fuses) : Prop :=
  (g.debug = f.debug ∨ (f.debug = 1 ∧ g.debug = 3)) ∧ g.bootSrcAllow &&& ~~~ f.bootSrcAllow = 0 ∧
  (f.ownerKeysLocked = true → g.ownerKeysLocked = true) ∧ (g.oobFull = true → f.oobFull = true) ∧
  (g.userKernels = true → f.userKernels = true) ∧ g.personality = f.personality

/-- A function holds PEND_RUN only in BINDING_OFF (R38). -/
def PendRunOk (s : State) : Prop := ∀ kv ∈ s.fns, kv.2.pendRun = true → kv.2.st = .bindingOff

/-- A safe step: a well-formed command, or none, is waiting, so the block does not stop. -/
def StepSafe (s : State) : Bool := s.pending.headD .pcieReset |>.wellFormed

end Sys2Proof.Machine
end

