-- ==== Sys2Proof/Certificates/Slice0/Obligations.lean ====
section
/-!
DEFINITION. Certificates/Slice0/Obligations.lean: the statements.
-/

open Sys2Proof Sys2Proof.Machine


/-! ### Register accesses (chapter 2) -/

/-- R25, R34, R35, R550: an access that a check rejects has no effect but its record, and a read of it answers 0, or
all ones from a page without power. The model's choices in it: log entries 19, 20 and 14. -/
def Obligations.RejectedAccessesAreRecorded : Prop :=
  (∀ (src : Source) (addr : BitVec 24) (val : Word) (page : Nat) (r : Reason) (s : State),
    s.access src addr.toNat true = .rejected page r →
    ∀ c ∈ [Instr.registerWrite src addr val, .writeLo src addr val, .writeHi src addr val],
      Answers c s (fun t => RejectedTo src page r.code true addr.toNat s t)) ∧
  (∀ (src : Source) (addr : BitVec 24) (page : Nat) (r : Reason) (s : State),
    s.access src addr.toNat false = .rejected page r →
    ∀ c ∈ [Instr.readLo src addr, .readHi src addr, .rcCounterRead src addr],
      Answers c s (fun t => t.rdata = (if r = .poweredOff then 0xFFFFFFFF else 0) ∧
        RejectedTo src page r.code false addr.toNat s t)) ∧
  (∀ (src : Source) (addr : BitVec 24) (write : Bool) (s : State),
    (src.target addr.toNat).bind blockOf = none →
    Answers (.unmappedAccess src addr write) s (fun t =>
      (write = false → t.rdata = 0) ∧ RejectedTo src Pg.DEV 2 write addr.toNat s t)) ∧
  (∀ (src : Source) (addr : BitVec 24) (write : Bool) (b : Block) (s : State),
    (src.target addr.toNat).bind blockOf = some b → s.domIsOff b.dom = true →
    Answers (.poweredOffAccess src addr write) s (fun t =>
      (write = false → t.rdata = 0xFFFFFFFF) ∧ RejectedTo src Pg.DEV 6 write addr.toNat s t)) ∧
  (∀ (src : Source) (addr : BitVec 24) (bytes : Nat) (write : Bool) (a : Nat) (b : Block) (s : State),
    (bytes ≠ 4 ∨ addr.toNat % 4 ≠ 0) → src.target (addr.toNat - addr.toNat % 4) = some a → blockOf a = some b →
    s.domIsOff b.dom = false → mapped a = true →
    Answers (.sizeViolationAccess src addr bytes write) s (fun t =>
      (write = false → t.rdata = 0) ∧ RejectedTo src (a - a % 0x1000) 3 write addr.toNat s t))

/-- R411: PF1 and a VF reach the pages R411 gives them and no other; what they may only read they cannot write. -/
def Obligations.DataFunctionsReachOnlyTheirPages : Prop :=
  ∀ (src : Source) (addr : Nat) (write : Bool) (a : Nat) (s : State), (src = .pf1 ∨ ∃ n, src = .vf n) →
    s.access src addr write = .ok a →
    src.target addr = some a ∧ dataFnReaches (decide (src = .pf1)) a = true ∧ (write = true → dataFnReadOnly a = false)

/-- R28: A write of a register without a rule of its own stores its RW bits, clears the W1C bits and sets the W1S
bits it has at 1, and leaves every other bit and register. The model's choices in it: log entries 14 and 16. -/
def Obligations.RegisterWriteFollowsAccessCodes : Prop :=
  ∀ (src : Source) (addr : BitVec 24) (val : Word) (a : Nat) (b : Block) (row : RegRow) (s : State),
    s.access src addr.toNat true = .ok a → blockOf a = some b → rowOf a = some row → 0x40 ≤ a % 0x1000 →
    (pageHasSnap a && decide (0x800 ≤ a % 0x1000)) = false →
    b.type ∈ [0x02, 0x03, 0x05, 0x11, 0x39, 0x50] → s.offOnlyStops a = false → row.pairLo = false → isHi a = false →
    Answers (.registerWrite src addr val) s (fun t =>
      (∀ k, k < 32 → (t.rd a).getLsbD k =
        (if row.w1s / 2 ^ k % 2 = 1 ∧ val.getLsbD k then true
         else if row.w1c / 2 ^ k % 2 = 1 ∧ val.getLsbD k then false
         else if row.rw / 2 ^ k % 2 = 1 then val.getLsbD k else (s.rd a).getLsbD k)) ∧
      OnlyRegs [a] s t ∧ t = { s with regs := t.regs })

/-- R40: A write of OFF-only configuration while the register's function is not in OFF changes nothing but the
record. The model's choices in it: log entries 15 and 18. -/
def Obligations.OffOnlyWritesAreRejected : Prop :=
  ∀ (src : Source) (addr : BitVec 24) (val : Word) (a : Nat) (b : Block) (row : RegRow) (s : State),
    s.access src addr.toNat true = .ok a → blockOf a = some b → rowOf a = some row → 0x40 ≤ a % 0x1000 →
    (pageHasSnap a && decide (0x800 ≤ a % 0x1000)) = false → b.type ∈ [0x12, 0x28, 0x50, 0x58] →
    s.offOnlyStops a = true →
    ∀ c ∈ [Instr.registerWrite src addr val, .writeLo src addr val, .writeHi src addr val],
      Answers c s (fun t => RejectedTo src (a - a % 0x1000) 1 true addr.toNat s t)

/-- R28, R29, R44: A read of a `_LO` register latches the high half of the same moment for its source and page; a
read of the `_HI` register then answers the latch; a read of an RC register clears it, but for a counter of the
row snapshot while capture-and-clear is armed. The model's choices in it: log entry 14. -/
def Obligations.ReadsLatchAndClear : Prop :=
  (∀ (src : Source) (addr : BitVec 24) (a : Nat) (b : Block) (row : RegRow) (s : State),
    s.access src addr.toNat false = .ok a → blockOf a = some b → b.type ∉ [0x10, 0x11, 0x20, 0x30, 0x38, 0x48] →
    rowOf a = some row → row.pairLo = true →
    Answers (.readLo src addr) s (fun t =>
      t.rdata = s.word src a ∧
      SMap.get latchReset t.latches (latchKey a src) = ⟨some (a % 0x1000), s.word src (a + 4)⟩ ∧
      (row.rc = 0 → t.regs = s.regs) ∧
      (row.rc ≠ 0 → (row.ctr && pageHasSnap a && s.captureClear) = false → t.rd a = 0 ∧ t.rd (a + 4) = 0) ∧
      OnlyRegs [a, a + 4] s t ∧ t = { s with regs := t.regs, latches := t.latches, rdata := t.rdata })) ∧
  (∀ (src : Source) (addr : BitVec 24) (a : Nat) (b : Block) (row : RegRow) (hi : Word) (s : State),
    s.access src addr.toNat false = .ok a → blockOf a = some b → b.type ∉ [0x10, 0x11, 0x20, 0x30, 0x38, 0x48] →
    rowOf a = some row → row.pairLo = false → 4 ≤ a % 0x1000 →
    SMap.get latchReset s.latches (latchKey a src) = ⟨some (a % 0x1000 - 4), hi⟩ →
    Answers (.readHi src addr) s (fun t => t = { s with rdata := hi })) ∧
  (∀ (src : Source) (addr : BitVec 24) (a : Nat) (b : Block) (row : RegRow) (s : State),
    s.access src addr.toNat false = .ok a → blockOf a = some b → b.type ∉ [0x10, 0x11, 0x20, 0x30, 0x38, 0x48] →
    rowOf a = some row → row.pairLo = false → isHi a = false →
    (SMap.get latchReset s.latches (latchKey a src)).lo ≠ some (a % 0x1000 - 4) → row.rc ≠ 0 →
    Answers (.rcCounterRead src addr) s (fun t =>
      t.rdata = s.word src a ∧
      t.rd a = (if row.ctr && pageHasSnap a && s.captureClear then s.rd a
        else (s.word src a &&& ~~~ BitVec.ofNat 32 row.rc) ||| (s.rcStart a &&& BitVec.ofNat 32 row.rc)) ∧
      OnlyRegs [a] s t ∧ t = { s with regs := t.regs, rdata := t.rdata }))

/-- R30: A write of a `_LO` register is staged and changes no register; the write of the `_HI` register puts both
halves in force at once, and a low half that was not staged stays as it is in force. The model's choices in it:
log entry 15. -/
def Obligations.PairsAreStagedAndCommitted : Prop :=
  (∀ (src : Source) (addr : BitVec 24) (val : Word) (a : Nat) (b : Block) (row : RegRow) (s : State),
    s.access src addr.toNat true = .ok a → blockOf a = some b → rowOf a = some row → 0x40 ≤ a % 0x1000 →
    (pageHasSnap a && decide (0x800 ≤ a % 0x1000)) = false → s.writeStop src b a val = none → row.pairLo = true →
    Answers (.writeLo src addr val) s (fun t =>
      SMap.get stageReset t.staging (latchKey a src) = ⟨some (a % 0x1000), val⟩ ∧ t = { s with staging := t.staging })) ∧
  (∀ (src : Source) (addr : BitVec 24) (val : Word) (a : Nat) (b : Block) (lo row : RegRow) (s : State),
    s.access src addr.toNat true = .ok a → blockOf a = some b → rowOf a = some row → rowOf (a - 4) = some lo →
    0x44 ≤ a % 0x1000 → (pageHasSnap a && decide (0x800 ≤ a % 0x1000)) = false →
    b.type ∈ [0x28, 0x30, 0x33, 0x50] → s.writeStop src b a val = none → lo.pairLo = true →
    row.pairLo = false → perSource a = false →
    Answers (.writeHi src addr val) s (fun t =>
      t.rd (a - 4) = lo.store (s.rd (a - 4)) (s.stagedLo src a) ∧ t.rd a = row.store (s.rd a) val ∧
      SMap.get stageReset t.staging (latchKey a src) = ⟨none, 0⟩ ∧
      OnlyRegs [a - 4, a] s t ∧ t = { s with regs := t.regs, staging := t.staging }))

/-! ### Functions (chapter 2) -/

/-- R38, R39, R413: the commands of a function's control register, in each state that gives the command an effect.
The model's choices in it: log entry 21. -/
def Obligations.FunctionControlCommands : Prop :=
  (∀ (src : Source) (f : Fn) (s : State), Granted src (fnCtrl f) true s →
    (ctrlOf src f = .ply → s.feat 6 = true) → (∀ n, ctrlOf src f = .site n → s.feat 7 = true) →
    s.fnIs (ctrlOf src f) .off = true →
    Answers (.run src f) s (fun t =>
      t.fn (ctrlOf src f) = ⟨.castingOn, false, (s.fn (ctrlOf src f)).code⟩ ∧
      (∀ g : Fn, g.num ≠ (ctrlOf src f).num → t.fn g = s.fn g) ∧
      t = { s with
          regs := t.regs, fns := t.fns, clock := t.clock, servo := t.servo, pins := t.pins, cls := t.cls,
          skein := t.skein, lineA := t.lineA, lineB := t.lineB, pcie := t.pcie, timers := t.timers, free := t.free,
          out := t.out, ciph := t.ciph, sched := t.sched, ndl := t.ndl, gauge := t.gauge })) ∧
  (∀ (src : Source) (f : Fn) (s : State), Granted src (fnCtrl f) true s →
    (ctrlOf src f = .ply → s.feat 6 = true) → (∀ n, ctrlOf src f = .site n → s.feat 7 = true) →
    s.fnIs (ctrlOf src f) .bindingOff = true →
    Answers (.run src f) s (fun t =>
      t.fn (ctrlOf src f) = { s.fn (ctrlOf src f) with pendRun := true } ∧
      (∀ g : Fn, g.num ≠ (ctrlOf src f).num → t.fn g = s.fn g) ∧ t = { s with fns := t.fns })) ∧
  (∀ (src : Source) (f : Fn) (s : State), Granted src (fnCtrl f) true s →
    Answers (.stopReq src f) s (fun t =>
      t.fn (ctrlOf src f) =
        (match (s.fn (ctrlOf src f)).st with
         | .castingOn => ⟨.bindingOff, false, (s.fn (ctrlOf src f)).code⟩
         | .running => ⟨.bindingOff, false, (s.fn (ctrlOf src f)).code⟩
         | .bindingOff => { s.fn (ctrlOf src f) with pendRun := false }
         | .fault => ⟨.off, false, (s.fn (ctrlOf src f)).code⟩
         | .off => s.fn (ctrlOf src f)) ∧
      (∀ g : Fn, g.num ≠ (ctrlOf src f).num → t.fn g = s.fn g) ∧
      t = { s with
          regs := t.regs, fns := t.fns, clock := t.clock, servo := t.servo, pins := t.pins, skein := t.skein,
          lineA := t.lineA, lineB := t.lineB, pcie := t.pcie, twin := t.twin, timers := t.timers, free := t.free,
          out := t.out, ciph := t.ciph, sched := t.sched, gauge := t.gauge })) ∧
  (∀ (src : Source) (f : Fn) (s : State), Granted src (fnCtrl f) true s → s.fnIs (ctrlOf src f) .off = false →
    Answers (.forceStop src f) s (fun t =>
      (s.reload.phase = .idle ∨ (∀ n, ctrlOf src f ≠ .ndl n) →
        t.fn (ctrlOf src f) = ⟨.off, false, (s.fn (ctrlOf src f)).code⟩ ∧
        (∀ g : Fn, g.num ≠ (ctrlOf src f).num → t.fn g = s.fn g)) ∧
      (∀ b ∈ (ctrlOf src f).pages, t.bit b ⟨HDR.PAGE_EVENT.off, 3, 1⟩ = true) ∧
      (∀ g : Fn, (∀ n, g ≠ .ndl n) → g.num ≠ (ctrlOf src f).num → t.fn g = s.fn g) ∧
      t = { s with
          regs := t.regs, fns := t.fns, clock := t.clock, servo := t.servo, pins := t.pins, cls := t.cls,
          skein := t.skein, lineA := t.lineA, lineB := t.lineB, pcie := t.pcie, twin := t.twin, timers := t.timers,
          free := t.free, out := t.out, ciph := t.ciph, sched := t.sched, siteWake := t.siteWake, ndl := t.ndl,
          reload := t.reload, gauge := t.gauge }))

/-- R38, R549: BLOCK_RESET brings every register of the function's pages, its counters and snapshot views back to
reset, but what shows a pin or why a port may not send; a function in FAULT ends in OFF; the commands' headers
and everything outside those pages stay. The model's choices in it: log entry 22. -/
def Obligations.BlockResetResetsTheFunctionsPages : Prop :=
  (∀ (src : Source) (f : Fn) (s : State), Granted src (fnCtrl f) true s →
    s.fnIs (ctrlOf src f) .off = true →
    Answers (.blockReset src f) s (fun t =>
      (∀ a, inPages (ctrlOf src f).pages a = true →
        (∀ p, ctrlOf src f = .line p → (s.up p).burst = none ∧ a ≠ Pg.LINE p + LINE2.OPT_STAT.off ∧
          a ≠ Pg.LINE p + LINE1.TX_CTRL_INHIBIT.off) →
        (∀ n, ctrlOf src f = .site n → a ≠ Pg.SITE n + SITE.STAT_MOD_PRESENT.off) →
        (ctrlOf src f = .ply → a ≠ Pg.PLY + PLY.TKO_STAT_SERVE_IN.off) → t.rd a = resetOf a) ∧
      (∀ a, inPages (ctrlOf src f).pages a = true → SMap.get (fun _ => 0) t.snapView a = 0) ∧
      (∀ a, inPages (ctrlOf src f).pages a = false → a % 0x1000 ≠ HDR.PAGE_SNAP_GEN.off →
        (∀ p, ctrlOf src f = .line p → (s.up p).burst = none) → t.rd a = s.rd a) ∧
      (∀ n, ctrlOf src f = .vf n → ∀ q ∈ s.epsOf (2 + n.val), t.ep q = epReset q) ∧
      t = { s with
          regs := t.regs, snapView := t.snapView, pins := t.pins, skein := t.skein, lineA := t.lineA, lineB := t.lineB,
          pcie := t.pcie, timers := t.timers, free := t.free, out := t.out, ndl := t.ndl, gauge := t.gauge })) ∧
  (∀ (src : Source) (f : Fn) (s : State), Granted src (fnCtrl f) true s →
    s.fnIs (ctrlOf src f) .fault = true →
    Answers (.blockReset src f) s (fun t =>
      t.fn (ctrlOf src f) = ⟨.off, false, (s.fn (ctrlOf src f)).code⟩ ∧
      (∀ g : Fn, g.num ≠ (ctrlOf src f).num → t.fn g = s.fn g))) ∧
  (∀ (src : Source) (f : Fn) (s : State), Granted src (fnCtrl f) true s →
    (s.fnIs (ctrlOf src f) .castingOn = true ∨ s.fnIs (ctrlOf src f) .running = true ∨
      s.fnIs (ctrlOf src f) .bindingOff = true) →
    Answers (.blockReset src f) s (fun t => t = s.refuse src (ctrlPage f) .badCommand true (fnCtrl f)))

/-- R38, R432, R434, R438: what the block and PCIe report of a function moves it as R38 says, and moves no other.
The model's choices in it: log entry 21. -/
def Obligations.FunctionReports : Prop :=
  (∀ (f : Fn) (s : State), s.fnIs f .castingOn = true → s.castReady f = true → s.castRefusal f = none →
    Answers (.castOnComplete f) s (fun t =>
      (s.reload.phase = .idle ∨ (∀ n, f ≠ .ndl n) →
        t.fn f = ⟨.running, false, (s.fn f).code⟩ ∧ (∀ g : Fn, g.num ≠ f.num → t.fn g = s.fn g)) ∧
      (∀ g : Fn, (∀ n, g ≠ .ndl n) → g.num ≠ f.num → t.fn g = s.fn g) ∧
      t = { s with
          regs := t.regs, fns := t.fns, clock := t.clock, servo := t.servo, pins := t.pins, skein := t.skein,
          lineA := t.lineA, lineB := t.lineB, pcie := t.pcie, twin := t.twin, timers := t.timers, free := t.free,
          out := t.out, ciph := t.ciph, sched := t.sched, ndl := t.ndl, reload := t.reload, gauge := t.gauge })) ∧
  (∀ (f : Fn) (code : Byte) (s : State), s.fnIs f .castingOn = true → (s.fwIsReady = true ∨ code ≠ 1) →
    Answers (.castOnFail f code) s (fun t =>
      (s.reload.phase = .idle ∨ (∀ n, f ≠ .ndl n) →
        t.fn f = ⟨.fault, false, code.toNat⟩ ∧ (∀ g : Fn, g.num ≠ f.num → t.fn g = s.fn g)) ∧
      (t.fn f).code = code.toNat ∧ (∀ g : Fn, (∀ n, g ≠ .ndl n) → g.num ≠ f.num → t.fn g = s.fn g) ∧
      t = { s with
          regs := t.regs, fns := t.fns, clock := t.clock, servo := t.servo, pins := t.pins, cls := t.cls,
          skein := t.skein, lineA := t.lineA, lineB := t.lineB, pcie := t.pcie, twin := t.twin, timers := t.timers,
          free := t.free, out := t.out, ciph := t.ciph, sched := t.sched, siteWake := t.siteWake, ndl := t.ndl,
          reload := t.reload, gauge := t.gauge })) ∧
  (∀ (f : Fn) (code : Byte) (s : State), s.fnIs f .off = false → s.fnIs f .fault = false →
    Answers (.internalFault f code) s (fun t =>
      (s.reload.phase = .idle ∨ (∀ n, f ≠ .ndl n) →
        t.fn f = ⟨.fault, false, code.toNat⟩ ∧ (∀ g : Fn, g.num ≠ f.num → t.fn g = s.fn g)) ∧
      (t.fn f).code = code.toNat ∧ (∀ g : Fn, (∀ n, g ≠ .ndl n) → g.num ≠ f.num → t.fn g = s.fn g) ∧
      t = { s with
          regs := t.regs, fns := t.fns, clock := t.clock, servo := t.servo, pins := t.pins, cls := t.cls,
          skein := t.skein, lineA := t.lineA, lineB := t.lineB, pcie := t.pcie, twin := t.twin, timers := t.timers,
          free := t.free, out := t.out, ciph := t.ciph, sched := t.sched, siteWake := t.siteWake, ndl := t.ndl,
          reload := t.reload, gauge := t.gauge })) ∧
  (∀ (f : Fn) (s : State), s.fnIs f .bindingOff = true → s.bindIdle f = true →
    Answers (.bindOffComplete f) s (fun t =>
      (s.reload.phase = .idle ∨ (s.fn f).pendRun = true ∨ (∀ n, f ≠ .ndl n) →
        t.fn f = ⟨if (s.fn f).pendRun then .castingOn else .off, false, (s.fn f).code⟩ ∧
        (∀ g : Fn, g.num ≠ f.num → t.fn g = s.fn g)) ∧
      (∀ g : Fn, (∀ n, g ≠ .ndl n) → g.num ≠ f.num → t.fn g = s.fn g) ∧
      t = { s with
          regs := t.regs, fns := t.fns, clock := t.clock, servo := t.servo, pins := t.pins, cls := t.cls,
          skein := t.skein, lineA := t.lineA, lineB := t.lineB, pcie := t.pcie, twin := t.twin, timers := t.timers,
          free := t.free, out := t.out, ciph := t.ciph, sched := t.sched, ndl := t.ndl, reload := t.reload,
          gauge := t.gauge })) ∧
  (∀ (func : Fin 254) (s : State),
    Answers (.d3hotEntry func) s (fun t =>
      (t.fnHost func.val).d3 = true ∧ t.fnHost func.val = { s.fnHost func.val with d3 := true } ∧
      t.laHolder ≠ some func.val ∧ t.fns = s.fns ∧ t = { s with regs := t.regs, pcie := t.pcie, ciph := t.ciph })) ∧
  (∀ (func : Fin 254) (f : Fn) (s : State), Fn.ofFunc func.val = some f → s.fnIs f .running = true →
    Answers (.busMasterClear func) s (fun t =>
      t.fn f = ⟨.fault, false, 0x81⟩ ∧ (t.fnHost func.val).busMaster = false ∧
      (∀ g : Fn, g.num ≠ f.num → t.fn g = s.fn g))) ∧
  (∀ (func : Fin 254) (f : Fn) (s : State), Fn.ofFunc func.val = some f →
    Answers (.flr func) s (fun t =>
      (t.fn f).st = .off ∧ (t.fn f).pendRun = false ∧ t.bit Pg.HQ ⟨HDR.PAGE_EVENT.off, 12, 1⟩ = true ∧
      t.laHolder ≠ some func.val ∧
      t = { s with
          regs := t.regs, fns := t.fns, marker := t.marker, mbxHeld := t.mbxHeld, clock := t.clock, servo := t.servo,
          pins := t.pins, cls := t.cls, skein := t.skein, lineA := t.lineA, lineB := t.lineB, pcie := t.pcie,
          twin := t.twin, timers := t.timers, free := t.free, out := t.out, ciph := t.ciph, sched := t.sched,
          siteWake := t.siteWake, ndl := t.ndl, reload := t.reload, gauge := t.gauge, power := t.power })) ∧
  (∀ s : State,
    Answers .pf0Flr s (fun t =>
      (t.fn .pf1).st = .off ∧ (t.fnHost 1).vfEn = false ∧ t.rd (Pg.DEV + 0x170) = resetOf (Pg.DEV + 0x170) ∧
      t.bit Pg.DEV DEV.FEAT_STAT_COMMITTED = false ∧ t.bit Pg.HQ ⟨HDR.PAGE_EVENT.off, 12, 1⟩ = true ∧
      t = { s with
          regs := t.regs, fns := t.fns, marker := t.marker, mbxHeld := t.mbxHeld, clock := t.clock, servo := t.servo,
          pins := t.pins, cls := t.cls, skein := t.skein, lineA := t.lineA, lineB := t.lineB, pcie := t.pcie,
          twin := t.twin, timers := t.timers, free := t.free, out := t.out, ciph := t.ciph, sched := t.sched,
          siteWake := t.siteWake, ndl := t.ndl, reload := t.reload, gauge := t.gauge, power := t.power })) ∧
  (∀ s : State, exec (.flr 0) s = exec .pf0Flr s)

/-! ### Row snapshot (chapter 2) -/

/-- R45, R47, R551, R42, R44: the commands that arm, start, end and complete a row snapshot; a page that captures
copies every one of its counters into its view, clears them in capture-and-clear mode, and marks its generation;
no other register changes. The model's choices in it: log entry 23. -/
def Obligations.RowSnapshot : Prop :=
  ((∀ (src : Source) (mode cancel : Bool) (s : State), Granted src (Pg.SNAP + SNAP.CTRL.off) true s → s.feat 16 = true →
    (s.snap.pending = false ∨ cancel = true) →
    Answers (.snapArm src mode cancel) s (fun t =>
      let late := decide (s.snap.armedNs * 2 ^ 40 < s.clock.cnt + 4000 * 2 ^ 40)
      let us := s.get Pg.SNAP SNAP.PERIOD
      t.snap = ⟨true, mode, if us = 0 then 0 else max 10 us * 1000, s.snap.armedNs,
        if late then s.nowNs + 4000 else s.snap.armedNs, [], s.snap.armedNs⟩ ∧
      t.bit Pg.SNAP SNAP.STAT_PENDING = true ∧ (late = true → t.bit Pg.SNAP SNAP.STAT_LATE = true) ∧
      t.bit Pg.SNAP SNAP.CTRL_MODE = mode ∧ t = { s with regs := t.regs, snap := t.snap } ∧
      OnlyRegs [Pg.SNAP + SNAP.CTRL.off, Pg.SNAP + SNAP.STAT.off] s t)) ∧
  (∀ (src : Source) (mode cancel : Bool) (s : State), Granted src (Pg.SNAP + SNAP.CTRL.off) true s → s.feat 16 = true →
    (s.snap.pending = false ∨ cancel = true) →
    Answers (.snapNow src mode cancel) s (fun t =>
      t.snap = ⟨true, mode, 0, s.nowNs + 4000, s.nowNs + 4000, [], s.snap.armedNs⟩ ∧
      t.bit Pg.SNAP SNAP.STAT_PENDING = true ∧ t = { s with regs := t.regs, snap := t.snap } ∧
      OnlyRegs [Pg.SNAP + SNAP.CTRL.off, Pg.SNAP + SNAP.STAT.off] s t)) ∧
  (∀ (src : Source) (s : State), Granted src (Pg.SNAP + SNAP.CTRL.off) true s →
    Answers (.snapCancel src) s (fun t =>
      t.snap = { s.snap with pending := false, periodNs := 0, captured := [] } ∧
      t.bit Pg.SNAP SNAP.STAT_PENDING = false ∧ t = { s with regs := t.regs, snap := t.snap } ∧
      OnlyRegs [Pg.SNAP + SNAP.CTRL.off, Pg.SNAP + SNAP.STAT.off] s t)) ∧
  (∀ (src : Source) (hi : Word) (s : State), Granted src (Pg.SNAP + SNAP.AT_SEC_HI.off) true s →
    s.get Pg.SNAP SNAP.AT_NS ≤ 999999999 →
    Answers (.snapAtCommit src hi) s (fun t =>
      t.snap = { s.snap with
        armedNs :=
        (hi.toNat % 2 ^ 16 * 2 ^ 32 + (s.stagedLo src (Pg.SNAP + SNAP.AT_SEC_HI.off)).toNat) * 10 ^ 9
          + s.get Pg.SNAP SNAP.AT_NS } ∧
      t = { s with regs := t.regs, snap := t.snap, staging := t.staging } ∧
      OnlyRegs [Pg.SNAP + SNAP.AT_SEC_LO.off, Pg.SNAP + SNAP.AT_SEC_HI.off] s t)) ∧
  (∀ s : State, s.snap.pending = true → snapSlots.all (fun n => s.snap.captured.contains n) = true →
    Answers .snapComplete s (fun t =>
      t.get Pg.SNAP SNAP.GEN = nextGen (s.get Pg.SNAP SNAP.GEN) ∧
      t.get Pg.SNAP SNAP.TAKEN_NS = s.snap.atNs % 10 ^ 9 ∧
      t.get Pg.SNAP SNAP.TAKEN_SEC_LO = s.snap.atNs / 10 ^ 9 % 2 ^ 32 ∧
      t.snap.pending = decide (s.snap.periodNs ≠ 0) ∧ t.snap.captured = [] ∧
      t = { s with regs := t.regs, snap := t.snap } ∧
      OnlyRegs [Pg.SNAP + SNAP.GEN.off, Pg.SNAP + SNAP.TAKEN_SEC_LO.off, Pg.SNAP + SNAP.TAKEN_SEC_HI.off,
        Pg.SNAP + SNAP.TAKEN_NS.off, Pg.SNAP + SNAP.STAT.off] s t))) ∧
  (∀ (slot : BitVec 12) (b : Block) (s : State), s.snap.pending = true → slot.toNat ∈ snapSlots →
    slot.toNat ∉ s.snap.captured → s.snap.atNs ≤ s.nowNs → blockOf (slot.toNat * 0x1000) = some b →
    s.domIsOff b.dom = false → Registers.wf s = true →
    Answers (.snapCapture slot) s (fun t =>
      let page := slot.toNat * 0x1000
      (∀ a, page ≤ a → a < page + 0x800 → isCounter a = true →
        SMap.get (fun _ => 0) t.snapView (a + 0x800) = s.rd a ∧ t.rd a = (if s.snap.clear then 0 else s.rd a)) ∧
      t.get page HDR.PAGE_SNAP_GEN = nextGen (s.get Pg.SNAP SNAP.GEN) ∧
      t.snap = { s.snap with captured := s.snap.captured ++ [slot.toNat] } ∧
      (∀ a, (page ≤ a ∧ a < page + 0x800 ∧ isCounter a = true) ∨ a = page + HDR.PAGE_SNAP_GEN.off
        ∨ a = Pg.SNAP + SNAP.STAT.off ∨ t.rd a = s.rd a) ∧
      t = { s with regs := t.regs, snap := t.snap, snapView := t.snapView }))

/-! ### Time base and transfer (chapter 9) -/

/-- R267, R271, R272: what the commands that change the counter's correction do when their access is let through,
and all they change. The model's choices in it: log entries 54 and 24. -/
def Obligations.TimeCounterCommands : Prop :=
  (∀ (src : Source) (hi : Word) (s : State), Granted src (Pg.TIME + TIME0.INC_HI.off) true s →
    Answers (.incCommit src hi) s (fun t =>
      t.clock.incPend = some (hi.toNat % 2 ^ 16 * 2 ^ 32 + (s.stagedLo src (Pg.TIME + TIME0.INC_HI.off)).toNat) ∧
      t = { s with clock := { s.clock with incPend := t.clock.incPend }, staging := t.staging })) ∧
  (∀ (src : Source) (hi : Word) (s : State), Granted src (Pg.TIME + TIME0.STEP_SEC_HI.off) true s →
    s.bit Pg.TIME TIME0.STAT_STEP_PEND = false → s.get Pg.TIME TIME0.STEP_NS ≤ 999999999 →
    let mag := s.stepMag (s.stagedLo src (Pg.TIME + TIME0.STEP_SEC_HI.off)) hi
    let small := s.bit Pg.TIME TIME0.STAT_VALID = false ∨ mag ≤ s.get Pg.TIME TIME0.JUMP_LIMIT * 2 ^ 40
    Answers (.stepCommit src hi) s (fun t =>
      (if small ∨ s.bit Pg.TIME TIME0.STAT_JUMP_ARMED = true then
        t.clock = { s.clock with step := some ⟨decide (2 ^ 31 ≤ hi.toNat), mag, 2⟩ } ∧
        t.bit Pg.TIME TIME0.STAT_STEP_PEND = true ∧
        t.bit Pg.TIME TIME0.STAT_JUMP_ARMED = (decide small && s.bit Pg.TIME TIME0.STAT_JUMP_ARMED)
      else
        t.clock = s.clock ∧ t.bit Pg.TIME TIME0.STAT_STEP_PEND = false ∧
        t.get Pg.TIME TIME1.JUMP_REFUSED = satAdd32 (s.get Pg.TIME TIME1.JUMP_REFUSED) 1 ∧
        t.bit Pg.TIME ⟨HDR.PAGE_EVENT.off, 8, 1⟩ = true) ∧
      t = { s with regs := t.regs, clock := t.clock, staging := t.staging, timers := t.timers })) ∧
  (∀ (src : Source) (disarm : Bool) (s : State), src = .pf0 → Granted src (Pg.TIME + TIME0.CTRL.off) true s →
    Answers (.jumpArm src disarm) s (fun t =>
      t.bit Pg.TIME TIME0.STAT_JUMP_ARMED = !disarm ∧
      (disarm = false → s.bit Pg.TIME TIME0.STAT_JUMP_ARMED = false →
        SMap.get noTimer t.timers Tm.jumpArm = some (10 * sec)) ∧
      t = { s with regs := t.regs, timers := t.timers } ∧
      OnlyRegs [Pg.TIME + TIME0.STAT_JUMP_ARMED.off, Pg.TIME + TIME0.CTRL.off] s t)) ∧
  (∀ (src : Source) (s : State), Granted src (Pg.TIME + TIME0.CTRL.off) true s →
    Answers (.jumpDisarm src) s (fun t =>
      t.bit Pg.TIME TIME0.STAT_JUMP_ARMED = false ∧ t.running Tm.jumpArm = false ∧
      t = { s with regs := t.regs, timers := t.timers } ∧
      OnlyRegs [Pg.TIME + TIME0.STAT_JUMP_ARMED.off, Pg.TIME + TIME0.CTRL.off] s t)) ∧
  (∀ s : State, s.running Tm.jumpArm = true →
    Answers .jumpArmTimeout s (fun t =>
      t.bit Pg.TIME TIME0.STAT_JUMP_ARMED = false ∧ t.running Tm.jumpArm = false ∧
      t = { s with regs := t.regs, timers := t.timers } ∧
      OnlyRegs [Pg.TIME + TIME0.STAT_JUMP_ARMED.off, Pg.TIME + TIME0.CTRL.off] s t)) ∧
  (∀ (src : Source) (s : State), Granted src (Pg.TIME + TIME0.NOW_FRAC.off) false s →
    Answers (.nowFracRead src) s (fun t =>
      t.rdata = BitVec.ofNat 32 (fracOf s.clock.cnt) ∧
      SMap.get (fun _ => []) t.recLatch (recKey (Pg.TIME + TIME0.NOW_FRAC.off) src) = stampWords s.clock.cnt ∧
      t = { s with recLatch := t.recLatch, rdata := t.rdata })) ∧
  (∀ (src : Source) (err : Word) (s : State), Granted src (Pg.TIME + TIME0.TENSION_ERR.off) true s →
    s.get Pg.TIME TIME0.STAT_MODE = modeTension →
    Answers (.tensionErr src err) s (fun t =>
      t.servo.tensionI = s.servo.tensionI + err.toInt * 2 ^ 24 / 2 ^ s.get Pg.TIME TIME0.TENSION_CFG_KI_SHIFT ∧
      t.clock.incPend.isSome = true ∧
      t = { s with servo := { s.servo with tensionI := t.servo.tensionI }, clock := t.clock } ∧
      t.clock = { s.clock with incPend := t.clock.incPend }))

/-- R267, R271, R287, R288: at an alignment instant a committed increment is in force, and a step committed two
instants before is applied once, to the counter as it runs; the instants of outputs that the counter's advance
passed are due, and a step passes none. The model's choices in it: log entries 54 and 1. -/
def Obligations.AlignmentInstantAppliesIncrementAndStep : Prop :=
  ∀ s : State, s.power.ready = true →
    Answers .alignmentInstant s (fun t =>
      t.clock.phase = 0 ∧ t.clock.incPend = none ∧ t.clock.inc = s.clock.incPend.getD s.clock.inc ∧
      (let run := (s.clock.cnt + (alignCycles - s.clock.phase) * s.clock.inc) % clockMod
       match s.clock.step with
       | none => t.clock.cnt = run ∧ t.clock.step = none
       | some g =>
         if g.left ≤ 1 then
           t.clock.cnt = stepped run g.neg g.mag ∧ t.clock.step = none ∧ t.bit Pg.TIME TIME0.STAT_STEP_PEND = false ∧
           t.bit Pg.TIME TIME0.STAT_VALID = true
         else t.clock.cnt = run ∧ t.clock.step = some { g with left := g.left - 1 }) ∧
      (let run := s.clock.cnt + (alignCycles - s.clock.phase) * s.clock.inc
       t.servo.ppsDue = s.ppsPassed run ∧ t.servo.evtDue = s.evtPassed run ∧
       t.servo.clk10Shift = (match s.clock.step with
         | some g => if g.left ≤ 1 then (if g.neg then -(g.mag : Int) else g.mag) else 0
         | none => 0)) ∧
      t = { s with
        regs := t.regs, clock := t.clock, pins := t.pins, twin := t.twin, out := t.out, sched := t.sched
        servo := { s.servo with ppsDue := t.servo.ppsDue, evtDue := t.servo.evtDue, clk10Shift := t.servo.clk10Shift } })

/-- R276, R280 to R282, R286: the time source of a port, and the moves of the time state that timers and the
reference oscillator cause. The model's choices in it: log entries 53, 8 and 24. -/
def Obligations.TimeStateCommands : Prop :=
  (∀ (p : Port) (msg : List Byte) (s : State), msg.length = 48 → msgField msg 0 1 = 1 →
    (timeMsgCrcOk msg = false ∨
      ((s.tport p).stamps.find? (fun x => decide (x.1 = msgField msg 4 8 % 2 ^ 51))).bind (fun x => x.2) = none) →
    Answers (.timeRef p msg) s (fun t =>
      t.get Pg.TIME TIME1.TMSG_DISCARD = satAdd32 (s.get Pg.TIME TIME1.TMSG_DISCARD) 1 ∧
      t = { s with regs := t.regs } ∧ OnlyRegs [Pg.TIME + TIME1.TMSG_DISCARD.off] s t)) ∧
  (∀ (p : Port) (msg : List Byte) (tArr : Nat) (s : State), msg.length = 48 → msgField msg 0 1 = 1 →
    timeMsgCrcOk msg = true →
    ((s.tport p).stamps.find? (fun x => decide (x.1 = msgField msg 4 8 % 2 ^ 51))).bind (fun x => x.2) = some tArr →
    (s.tport p).rtd = none →
    Answers (.timeRef p msg) s (fun t =>
      t.get Pg.TIME TIME1.TMSG_USED = satAdd32 (s.get Pg.TIME TIME1.TMSG_USED) 1 ∧
      SMap.get noTimer t.timers (Tm.refAge p) = some (2 * sec) ∧
      (t.tport p).filt = (s.tport p).filt ∧ (s.correctionHeld = false → t.clock = s.clock ∧ t.free = s.free) ∧
      t = { s with regs := t.regs, servo := t.servo, timers := t.timers, clock := t.clock, free := t.free })) ∧
  (∀ (p : Port) (msg : List Byte) (tArr : Nat) (rtd : Int) (s : State), msg.length = 48 → msgField msg 0 1 = 1 →
    timeMsgCrcOk msg = true →
    ((s.tport p).stamps.find? (fun x => decide (x.1 = msgField msg 4 8 % 2 ^ 51))).bind (fun x => x.2) = some tArr →
    (s.tport p).rtd = some rtd → (s.asymSource p).1 ≠ 0 →
    Answers (.timeRef p msg) s (fun t =>
      t.get Pg.TIME TIME1.TMSG_USED = satAdd32 (s.get Pg.TIME TIME1.TMSG_USED) 1 ∧
      t.get64 Pg.TIME (TIME0.PORT_OFFSET_LO p.num) = ofSigned 64 (offset40 tArr
        (stampOf (msgField msg 0x0C 8 % 2 ^ 48) (msgField msg 0x14 4) (msgField msg 0x18 4)) rtd
        (s.getSigned Pg.TIME (TIME0.PORT_RX_DELAY p.num)) (s.getSigned Pg.TIME (TIME0.PORT_TX_DELAY p.num))
        (s.asymSource p).2 / 2 ^ 32) ∧
      t = { s with regs := t.regs, servo := t.servo, timers := t.timers, clock := t.clock, free := t.free })) ∧
  (∀ (p : Port) (s : State), s.running (Tm.refAge p) = true →
    Answers (.timeRefAgeExpiry p) s (fun t =>
      t.inTime p = false ∧ t.bit Pg.TIME (TIME0.PORT_STAT_IN_TIME p.num) = false ∧
      t.get Pg.TIME TIME0.STAT_SELECTED ≠ p.num + 1 ∧ (s.correctionHeld = false → t.clock = s.clock ∧ t.free = s.free) ∧
      t = { s with regs := t.regs, servo := t.servo, timers := t.timers, clock := t.clock, free := t.free })) ∧
  (∀ s : State, s.running Tm.prefer = true → s.inTime s.servo.cfg.prefer = true → s.servo.cfg.revert = true →
    s.servo.revertWait = true →
    Answers .preferRevertTimer s (fun t =>
      t.get Pg.TIME TIME0.STAT_SELECTED = s.servo.cfg.prefer.num + 1 ∧ t.running Tm.prefer = false ∧
      (s.get Pg.TIME TIME0.STAT_MODE = modeFree → t.clock = s.clock ∧ t.tstate = s.tstate) ∧
      t = { s with regs := t.regs, servo := t.servo, timers := t.timers, clock := t.clock, free := t.free })) ∧
  (∀ s : State, s.running Tm.lockQualify = true → s.tstate = stAcquiring →
    Answers .lockQualifyTimer s (fun t =>
      t.tstate = stLocked ∧ t.bit Pg.TIME ⟨HDR.PAGE_EVENT.off, 12, 1⟩ = true ∧ t.running Tm.lockQualify = false ∧
      t = { s with regs := t.regs, servo := t.servo, timers := t.timers })) ∧
  (∀ s : State, s.running Tm.noSelection = true → (s.tstate = stAcquiring ∨ s.tstate = stLocked) →
    Answers .noSelectionTimer s (fun t =>
      t.tstate = stHoldover ∧ t.running Tm.noSelection = false ∧
      SMap.get noTimer t.timers Tm.holdover = some (s.servo.cfg.holdoverS * sec) ∧
      (s.get Pg.TIME TIME0.STAT_MODE ≠ modeFirmware → t.clock = s.clock) ∧
      t = { s with regs := t.regs, servo := t.servo, timers := t.timers, clock := t.clock, free := t.free })) ∧
  (∀ s : State, s.running Tm.holdover = true → s.tstate = stHoldover →
    Answers .holdoverExpiry s (fun t =>
      t.tstate = stFreeRun ∧ t.running Tm.holdover = false ∧
      t = { s with regs := t.regs, servo := t.servo, timers := t.timers })) ∧
  (∀ s : State,
    Answers .trefLost s (fun t =>
      t.bit Pg.TIME TIME0.STAT_TREF_LOST = true ∧ t.bit Pg.TIME ⟨HDR.PAGE_EVENT.off, 13, 1⟩ = true ∧
      t.tstate = stFreeRun ∧ t = { s with regs := t.regs, servo := t.servo, timers := t.timers })) ∧
  (∀ s : State,
    Answers .trefRestored s (fun t =>
      t.bit Pg.TIME TIME0.STAT_TREF_LOST = false ∧
      (s.get Pg.TIME TIME0.STAT_MODE ≠ modeFree → s.correctionHeld = false → s.get Pg.TIME TIME0.STAT_SELECTED ≠ 0 →
        s.tstate = stFreeRun → t.tstate = stAcquiring ∧ t.servo.stepDue = true) ∧
      (s.get Pg.TIME TIME0.STAT_MODE = modeFree ∨ (s.correctionHeld = false ∧ s.get Pg.TIME TIME0.STAT_SELECTED = 0) →
        t.tstate = s.tstate ∧ t.clock = s.clock ∧ OnlyRegs [Pg.TIME + TIME0.STAT_TREF_LOST.off] s t) ∧
      t = { s with regs := t.regs, servo := t.servo, timers := t.timers, clock := t.clock, free := t.free })) ∧
  (∀ (ch : Chan) (tag : Byte) (args : List Word) (s : State), MbxOpen ch s →
    Answers (.timeConfig ch tag args) s (fun t =>
      let w1 := argWord args 1
      let slew := argWord args 2 % 2 ^ 16
      (3 < w1 % 8 ∨ slew = 0 →
        MbxReply ch tag Sts.badArg [] t ∧ t = { s with regs := t.regs } ∧ OnlyPages [Pg.HOOK ch] s t) ∧
      (w1 % 8 = modeTension → slew ≠ 0 → s.feat 13 = false →
        MbxReply ch tag Sts.notPermitted [] t ∧ t = { s with regs := t.regs } ∧ OnlyPages [Pg.HOOK ch] s t) ∧
      (w1 % 8 ≤ 3 → slew ≠ 0 → (w1 % 8 = modeTension → s.feat 13 = true) →
        MbxReply ch tag Sts.ok [] t ∧ t.get Pg.TIME TIME0.STAT_MODE = w1 % 8 ∧
        t.servo.cfg = ⟨Port.ofNum (w1 / 16 % 2), decide (w1 / 32 % 2 = 1), decide (w1 / 64 % 2 = 1),
          decide (w1 / 128 % 2 = 1), slew, argWord args 3⟩) ∧
      (t.correctionHeld = false → t.clock = s.clock ∧ t.free = s.free) ∧
      t = { s with
          regs := t.regs, clock := t.clock, servo := t.servo, timers := t.timers, free := t.free })) ∧
  (∀ (ch : Chan) (tag : Byte) (args : List Word) (s : State), MbxOpen ch s →
    Answers (.timeStatus ch tag args) s (fun t =>
      MbxReply ch tag Sts.ok (mbxTimeStatus s).2.1 t ∧ t = { s with regs := t.regs, free := s.free + 1 } ∧
      OnlyPages [Pg.HOOK ch] s t))

/-- R287, R289 to R292, R293, R294, R296: the pulse outputs, the PPS inputs and the event pins; PTM dialogues and
the transmit time-stamp queues. The model's choices in it: log entries 27, 54, 53 and 24. -/
def Obligations.TimingPinsPtmAndStamps : Prop :=
  ((∀ (n : Fin 2) (second : Nat) (s : State), SMap.get (fun _ => none) s.servo.ppsDue n.val = some second →
    s.tkoHolds n.val = false → s.bit Pg.TIME (TIME1.PPS_OUT_CTRL_EN n.val) = true →
    s.gateOpen (s.bit Pg.TIME (TIME1.PPS_OUT_CTRL_GATE n.val)) = true →
    Answers (.ppsOutAssert n) s (fun t =>
      t.pin (Pin.ppsOut n.val) = true ∧
      SMap.get noTimer t.timers (Tm.ppsWidth n.val)
        = some (max 100 (min 500000000 (s.get Pg.TIME (TIME1.PPS_OUT_WIDTH n.val)))) ∧
      (n = 0 → SMap.get noTimer t.timers Tm.tod = some (10 * ms) ∧ t.servo.ppsOut0 = some (second, s.tstate)) ∧
      SMap.get (fun _ => none) t.servo.ppsDue n.val = none ∧
      t = { s with pins := t.pins, timers := t.timers,
                   servo := { s.servo with ppsOut0 := t.servo.ppsOut0, ppsDue := t.servo.ppsDue } })) ∧
  (∀ (n : Fin 2) (s : State), s.running (Tm.ppsWidth n.val) = true →
    Answers (.ppsOutDeassert n) s (fun t =>
      t.pin (Pin.ppsOut n.val) = false ∧ t.running (Tm.ppsWidth n.val) = false ∧
      t = { s with pins := t.pins, timers := t.timers })) ∧
  (∀ (second st : Nat) (s : State), s.running Tm.tod = true → s.servo.ppsOut0 = some (second, st) →
    s.tkoHolds 3 = false → s.bit Pg.TIME TIME1.TOD_CTRL_TX_EN = true → s.bit Pg.TIME TIME1.TOD_CTRL_TX_GATE = false →
    Answers .todSentence s (fun t =>
      t.out = s.out ++ [.tod (s.todSentence second st)] ∧ t.running Tm.tod = false ∧ t.servo.ppsOut0 = none ∧
      t = { s with servo := t.servo, timers := t.timers, out := t.out, free := s.free + 1 })) ∧
  (∀ (n : Fin 2) (rising : Bool) (phase : Fin 32) (s : State), s.bit Pg.TIME (TIME1.PPS_IN_CTRL_EN n.val) = true →
    rising ≠ s.bit Pg.TIME (TIME1.PPS_IN_CTRL_EDGE n.val) →
    Answers (.ppsInEdge n rising phase) s (fun t =>
      t.get Pg.TIME (TIME1.PPS_IN_DIFF n.val) = ofSigned 32 (diffToSecond
        ((s.stampAt phase : Int) - s.getSigned Pg.TIME (TIME1.PPS_IN_DELAY n.val) * 2 ^ 32)) ∧
      t.get Pg.TIME (TIME1.PPS_IN_SEC_LO n.val) = 0 ∧
      t = { s with regs := t.regs, servo := t.servo } ∧
      OnlyRegs [Pg.TIME + (TIME1.PPS_IN_DIFF n.val).off, Pg.TIME + (TIME1.PPS_IN_SEC_LO n.val).off,
        Pg.TIME + HDR.PAGE_EVENT.off] s t)) ∧
  (∀ (chars : List Byte) (s : State), s.bit Pg.TIME TIME1.TOD_CTRL_RX_EN = true → (todParse chars).2 = false →
    Answers (.todRxSentence chars) s (fun t =>
      t.get Pg.TIME TIME1.TOD_RX_ERR = satAdd32 (s.get Pg.TIME TIME1.TOD_RX_ERR) 1 ∧
      t = { s with regs := t.regs } ∧ OnlyRegs [Pg.TIME + TIME1.TOD_RX_ERR.off] s t)) ∧
  (∀ (pin : Fin 8) (rising : Bool) (phase : Fin 32) (s : State), s.feat 19 = true →
    s.get Pg.TIME (TIME1.EVT_CTRL_MODE pin.val) = 1 → rising ≠ s.bit Pg.TIME (TIME1.EVT_CTRL_EDGE pin.val) →
    Answers (.evtCapture pin rising phase) s (fun t =>
      (if (s.evtStamps pin.val).length < 16 then
        t.evtStamps pin.val = s.evtStamps pin.val ++ [s.stampAt phase] ∧
        t.get Pg.TIME (TIME1.EVT_CTRL_FILL pin.val) = (s.evtStamps pin.val).length + 1
      else
        t.evtStamps pin.val = s.evtStamps pin.val ∧ t.bit Pg.TIME (TIME1.EVT_CTRL_OVF pin.val) = true ∧
        t.get Pg.TIME TIME1.EVT_DROPS = satAdd32 (s.get Pg.TIME TIME1.EVT_DROPS) 1) ∧
      t.bit Pg.TIME ⟨HDR.PAGE_EVENT.off, 16, 1⟩ = true ∧ t = { s with regs := t.regs, servo := t.servo })) ∧
  (∀ (src : Source) (pin : Fin 8) (st : Nat) (q : List Nat) (s : State),
    Granted src (Pg.TIME + (TIME1.EVT_FRAC pin.val).off) false s →
    s.get Pg.TIME (TIME1.EVT_CTRL_MODE pin.val) = 1 → s.evtStamps pin.val = st :: q →
    Answers (.evtFracRead src pin) s (fun t =>
      t.rdata = BitVec.ofNat 32 (fracOf st) ∧ t.evtStamps pin.val = q ∧
      SMap.get (fun _ => []) t.recLatch (recKey (Pg.TIME + (TIME1.EVT_FRAC pin.val).off) src) = stampWords st ∧
      t = { s with regs := t.regs, servo := t.servo, recLatch := t.recLatch, rdata := t.rdata } ∧
      OnlyRegs [Pg.TIME + (TIME1.EVT_CTRL_FILL pin.val).off] s t)) ∧
  (∀ (src : Source) (pin : Fin 8) (hi : Word) (s : State), Granted src (Pg.TIME + (TIME1.EVT_SEC_HI pin.val).off) true s →
    s.feat 19 = true → (s.get Pg.TIME (TIME1.EVT_CTRL_MODE pin.val) = 2 ∨ s.get Pg.TIME (TIME1.EVT_CTRL_MODE pin.val) = 3) →
    Answers (.evtTriggerArm src pin hi) s (fun t =>
      (let at_ := stampOf ((s.stagedLo src (Pg.TIME + (TIME1.EVT_SEC_HI pin.val).off)).toNat + hi.toNat % 2 ^ 16 * 2 ^ 32)
         (s.get Pg.TIME (TIME1.EVT_NS pin.val)) (s.get Pg.TIME (TIME1.EVT_FRAC pin.val))
       if at_ ≤ s.clock.cnt then
         t.bit Pg.TIME (TIME1.EVT_CTRL_LATE pin.val) = true ∧
         (s.tkoHolds (4 + pin.val) = false → t.pin (Pin.evt pin.val) = true)
       else SMap.get (fun _ => none) t.servo.evtArm pin.val = some (at_, at_) ∧ t.pins = s.pins) ∧
      t = { s with regs := t.regs, staging := t.staging, servo := t.servo, pins := t.pins, timers := t.timers })) ∧
  (∀ (pin : Fin 8) (first base at_ : Nat) (s : State),
    SMap.get (fun _ => none) s.servo.evtArm pin.val = some (first, base) →
    SMap.get (fun _ => none) s.servo.evtDue pin.val = some at_ → s.feat 19 = true → s.tkoHolds (4 + pin.val) = false →
    Answers (.evtTriggerFire pin) s (fun t =>
      t.pin (Pin.evt pin.val) = true ∧
      SMap.get noTimer t.timers (Tm.evtWidth pin.val) = some (max 20 (s.get Pg.TIME (TIME1.EVT_WIDTH_NS pin.val))) ∧
      SMap.get (fun _ => none) t.servo.evtArm pin.val =
        (if s.get Pg.TIME (TIME1.EVT_CTRL_MODE pin.val) = 3 then some (first, at_) else none) ∧
      SMap.get (fun _ => none) t.servo.evtDue pin.val = none ∧
      t = { s with pins := t.pins, timers := t.timers,
                   servo := { s.servo with evtArm := t.servo.evtArm, evtDue := t.servo.evtDue } })) ∧
  (∀ (pin : Fin 8) (s : State), s.running (Tm.evtWidth pin.val) = true →
    Answers (.evtTriggerEnd pin) s (fun t =>
      t.pin (Pin.evt pin.val) = false ∧ t.running (Tm.evtWidth pin.val) = false ∧
      t = { s with pins := t.pins, timers := t.timers })) ∧
  (∀ (n : Fin 2) (s : State), SMap.get (fun _ => none) s.servo.ppsDue n.val = none →
    exec (.ppsOutAssert n) s = .next s) ∧
  (∀ (pin : Fin 8) (s : State), SMap.get (fun _ => none) s.servo.evtDue pin.val = none →
    exec (.evtTriggerFire pin) s = .next s) ∧
  (∀ (chars : List Byte) (edge at_ second : Nat) (s : State), s.bit Pg.TIME TIME1.TOD_CTRL_RX_EN = true →
    (todParse chars).2 = true → s.servo.ppsIn0 = some (edge, at_) →
    decValue ((splitCommas (todParse chars).1).getD 1 []) = some second →
    Answers (.todRxSentence chars) s (fun t =>
      (if s.clock.cycles ≤ at_ + cyclesOf (900 * ms) ∧ (splitCommas (todParse chars).1).length = 7 ∧
          (splitCommas (todParse chars).1).headD [] = "LBTOD".toList.map ascii ∧ chars.headD 0 = ascii '$' then
        t.get Pg.TIME (TIME1.PPS_IN_SEC_LO 0) = second % 2 ^ 32
      else t = s) ∧
      t = { s with regs := t.regs } ∧ OnlyRegs [Pg.TIME + (TIME1.PPS_IN_SEC_LO 0).off] s t))) ∧
  ((∀ (src : Source) (s : State), Granted src (Pg.TIME + TIME1.PTM_CTRL.off) true s →
    s.feat 15 = true → s.pcie.ptmEn = true → s.servo.ptmT1 = none →
    Answers (.ptmNow src) s (fun t =>
      t.servo = { s.servo with ptmT1 := some s.clock.cnt } ∧ t.out = s.out ++ [.ptmRequest] ∧
      SMap.get noTimer t.timers Tm.ptm = some (10 * ms) ∧
      t = { s with servo := t.servo, out := t.out, timers := t.timers })) ∧
  (∀ s : State, s.bit Pg.TIME TIME1.PTM_CTRL_AUTO = true → s.feat 15 = true → s.pcie.ptmEn = true → s.servo.ptmT1 = none →
    Answers .ptmPeriodTimer s (fun t =>
      t.servo = { s.servo with ptmT1 := some s.clock.cnt } ∧ t.out = s.out ++ [.ptmRequest] ∧
      SMap.get noTimer t.timers Tm.ptm = some (10 * ms) ∧
      t = { s with servo := t.servo, out := t.out, timers := t.timers })) ∧
  (∀ (masterNs : Word64) (propNs : Word) (t1 : Nat) (s : State), s.servo.ptmT1 = some t1 →
    Answers (.ptmResponse masterNs propNs) s (fun t =>
      t.get64 Pg.TIME TIME1.PTM_OFFSET_LO = ofSigned 64
        (((masterNs.toNat : Int) * 2 ^ 41
          - (s.servo.ptmTrip.getD ((s.clock.cnt : Int) - t1) - (propNs.toNat : Int) * 2 ^ 40) - 2 * (t1 : Int)) / 2 ^ 33) ∧
      t.servo.ptmTrip = some ((s.clock.cnt : Int) - t1) ∧
      t.get Pg.TIME TIME1.PTM_AT_NS = nsOf t1 ∧ t.servo.ptmT1 = none ∧ t.running Tm.ptm = false ∧
      t.bit Pg.TIME ⟨HDR.PAGE_EVENT.off, 14, 1⟩ = true ∧
      t = { s with regs := t.regs, servo := t.servo, timers := t.timers })) ∧
  (∀ s : State, s.running Tm.ptm = true →
    Answers .ptmTimeout s (fun t =>
      t.get Pg.TIME TIME1.PTM_FAILS = satAdd32 (s.get Pg.TIME TIME1.PTM_FAILS) 1 ∧ t.servo.ptmT1 = none ∧
      t.running Tm.ptm = false ∧ t.bit Pg.TIME ⟨HDR.PAGE_EVENT.off, 15, 1⟩ = true ∧
      t = { s with regs := t.regs, servo := t.servo, timers := t.timers })) ∧
  (∀ (src : Source) (q : Fin 6) (s : State), Granted src (Pg.TSQ + (TSQ.Q_ENTRY0 q.val).off) false s →
    Answers (.tsqPop src q) s (fun t =>
      (match s.tsqOf q.val with
       | [] => t.rdata = 0 ∧ t.tsqOf q.val = []
       | (id, st) :: es =>
         t.rdata = BitVec.ofNat 32 (2 ^ 31 + id % 2 ^ 16) ∧ t.tsqOf q.val = es ∧
         SMap.get (fun _ => []) t.recLatch (recKey (Pg.TSQ + (TSQ.Q_ENTRY0 q.val).off) src) = stampWords st) ∧
      t = { s with regs := t.regs, servo := t.servo, recLatch := t.recLatch, rdata := t.rdata } ∧
      OnlyRegs [Pg.TSQ + (TSQ.Q_STAT_FILL q.val).off] s t)))

/-! ### Resets, boot and live update (chapter 3) -/

/-- R49 to R52, R266, R528, R529: what each reset leaves. A cold reset brings every register back but what shows
pins and straps; a reset of the main domains keeps the holder's registers, the fuses, the flash and the running
counter. The model's choices in it: log entries 36 and 10. -/
def Obligations.ResetCommands : Prop :=
  (∀ (straps : Straps) (a b : Bool) (s : State), (a || b) = true →
    Answers (.coldReset straps a b) s (fun t =>
      (∀ r, r - r % 0x1000 ∉ [Pg.DEV, Pg.HOLD, Pg.LINE .portA + 0x2000, Pg.LINE .portB + 0x2000, Pg.SITE 0, Pg.SITE 1,
        Pg.SITE 2, Pg.SITE 3, Pg.PLY] → t.rd r = resetOf r) ∧
      t.get Pg.DEV DEV.BOOT_STAT_BOOT_SRC = straps.bootSrc.toNat ∧ t.bit Pg.HOLD HOLD.SUPPLY_A_OK = a ∧
      t.clock = State.reset.clock ∧ t.fns = [] ∧ t.mem.data = [] ∧ t.power.ready = false ∧
      t.fuses = s.fuses ∧ t.flash = s.flash ∧ t.mem.record = s.mem.record)) ∧
  (∀ (cause : ResetCause) (straps : Straps) (s : State), s.power.off = false → s.pstate ≠ Pst.keep →
    Answers (.deviceReset cause straps) s (fun t =>
      t.bit Pg.DEV (ResetCause.fld cause) = true ∧ t.get Pg.DEV DEV.BOOT_STAT_BOOT_SRC = straps.bootSrc.toNat ∧
      t.clock = { s.clock with incPend := none, step := none } ∧
      t.bit Pg.TIME TIME0.STAT_VALID = s.bit Pg.TIME TIME0.STAT_VALID ∧
      t.bit Pg.HOLD HOLD.SUPPLY_MAIN_EN = s.bit Pg.HOLD HOLD.SUPPLY_MAIN_EN ∧ t.get Pg.HOLD HOLD.WAKE_LATCH = 0 ∧
      t.fns = [] ∧ t.boot.count = s.boot.count ∧ t.fuses = s.fuses ∧ t.flash = s.flash ∧ t.mem.record = s.mem.record)) ∧
  (∀ (src : Source) (straps : Straps) (s : State), Granted src (Pg.DEV + DEV.RESET_CTRL.off) true s →
    s.power.off = false → s.pstate ≠ Pst.keep →
    Answers (.resetCtrlDevice src 0x5A3C straps) s (fun t =>
      t.bit Pg.DEV DEV.RESET_CAUSE_SOFTWARE = true ∧ t.fns = [] ∧
      t.clock = { s.clock with incPend := none, step := none } ∧ t.fuses = s.fuses ∧ t.flash = s.flash)) ∧
  (∀ (src : Source) (key : BitVec 16) (straps : Straps) (s : State), Granted src (Pg.DEV + DEV.RESET_CTRL.off) true s →
    key ≠ 0x5A3C →
    Answers (.resetCtrlDevice src key straps) s (fun t =>
      RejectedTo src Pg.DEV 7 true (Pg.DEV + DEV.RESET_CTRL.off) s t)) ∧
  (∀ (straps : Straps) (s : State), s.bit Pg.HOLD HOLD.SUPPLY_MAIN_EN = true → s.power.off = false → s.pstate ≠ Pst.keep →
    Answers (.mainSupplyFault straps) s (fun t =>
      t.bit Pg.DEV DEV.RESET_CAUSE_SUPPLY = true ∧ t.fns = [] ∧ t.pin (Pin.ben .portA) = false ∧
      t.pin (Pin.ben .portB) = false ∧ t.fuses = s.fuses ∧ t.flash = s.flash)) ∧
  (∀ (tref : Fin 16) (s : State), s.power.ready = false → s.power.off = false →
    Answers (.holderReady tref) s (fun t =>
      t.power.ready = true ∧ t.bit Pg.HOLD HOLD.SUPPLY_MAIN_EN = true ∧ t.pin Pin.mainEn = true ∧
      t.get Pg.TIME TIME0.STAT_TREF_CODE = tref.val ∧
      t = { s with regs := t.regs, pins := t.pins, power := t.power } ∧
      OnlyRegs [Pg.HOLD + HOLD.SUPPLY_MAIN_EN.off, Pg.TIME + TIME0.STAT.off] s t)) ∧
  (∀ (straps : Straps) (s : State), s.power.waking = true → s.pstate = Pst.keep →
    Answers (.mainRailsValid straps) s (fun t =>
      t.pstate = Pst.full ∧ t.fns = [] ∧ t.clock = { s.clock with incPend := none, step := none } ∧
      t.fuses = s.fuses ∧ t.flash = s.flash)) ∧
  (∀ s : State,
    Answers .pcieReset s (fun t =>
      t.bit Pg.DEV DEV.RESET_CAUSE_PCIE = true ∧ t.pcie.link = .reset ∧ (t.fn .pf1).st = .off ∧
      t.rd (Pg.DEV + 0x170) = resetOf (Pg.DEV + 0x170) ∧
      t = { s with
          regs := t.regs, fns := t.fns, marker := t.marker, mbxHeld := t.mbxHeld, clock := t.clock, servo := t.servo,
          pins := t.pins, cls := t.cls, skein := t.skein, lineA := t.lineA, lineB := t.lineB, pcie := t.pcie,
          twin := t.twin, timers := t.timers, free := t.free, out := t.out, ciph := t.ciph, sched := t.sched,
          siteWake := t.siteWake, ndl := t.ndl, reload := t.reload, gauge := t.gauge, power := t.power })) ∧
  (∀ (core : Fin 4) (straps : Straps) (s : State),
    (∀ c, SMap.get (fun _ => none) s.watchdog core.val = some c → c + cyclesOf (60 * sec) < s.clock.cycles) →
    Answers (.hookWatchdogExpiry core straps) s (fun t =>
      SMap.get (fun _ => false) t.restarting core.val = true ∧
      SMap.get (fun _ => none) t.watchdog core.val = some s.clock.cycles ∧
      t = { s with watchdog := t.watchdog, restarting := t.restarting })) ∧
  (∀ (core : Fin 4) (straps : Straps) (c : Nat) (s : State),
    SMap.get (fun _ => none) s.watchdog core.val = some c → s.clock.cycles ≤ c + cyclesOf (60 * sec) →
    s.power.off = false → s.pstate ≠ Pst.keep →
    Answers (.hookWatchdogExpiry core straps) s (fun t =>
      t.bit Pg.DEV DEV.RESET_CAUSE_WATCHDOG = true ∧ t.fns = [] ∧ t.fuses = s.fuses ∧ t.flash = s.flash))

/-- R54, R63, R66, R68, R71, R72, R76, R82 to R86: the boot sequence, from the fuses' load to firmware ready; the
moves of a live update. The model's choices in it: log entries 28, 35 and 24. -/
def Obligations.BootAndLiveUpdate : Prop :=
  ((∀ s : State, s.power.ready = true → s.stage = Stg.fuseLoad → s.domIsOff .core = false →
    Answers .bootStart s (fun t =>
      let samples := Config.noiseBlock s.free
      let src := s.get Pg.DEV DEV.BOOT_STAT_BOOT_SRC
      let denied := decide (src = 3) || decide (s.fuses.bootSrcAllow.toNat / 2 ^ src % 2 = 0)
      t.boot.count = s.boot.count + 1 ∧ t.bit Pg.DEV DEV.BOOT_STAT_STRAP_DENIED = denied ∧
      t.security.measLog = s.security.measLog ++ [(0, Crypto.shake256 64 (Config.meas0Bytes s.protectWord src
        (s.get Pg.DEV DEV.BOOT_STAT_TWIN_ID)))] ∧
      (if denied = true ∨ src = 0 then
        (t.stage = Stg.rom ∧ t.boot.loading.isSome = true) ∨ (t.stage = Stg.recovery ∧ t.boot.loading = none)
      else t.stage = Stg.recovery ∧ t.flash = s.flash) ∧
      t.bit Pg.SEC SEC0.RNG_STAT_SOURCE_FAILED =
        (s.bit Pg.SEC SEC0.RNG_STAT_SOURCE_FAILED || !(decide (1024 ≤ samples.length) && healthy samples)) ∧
      t = { s with
          regs := t.regs, boot := t.boot, flash := t.flash, security := t.security, out := t.out, free := s.free + 1 })) ∧
  (∀ s : State, s.stage = Stg.rom → s.boot.memTrained = false →
    Answers (.memoryTrainingComplete true) s (fun t =>
      t.stage = Stg.imageLoad ∧ t.boot = { s.boot with memTrained := true } ∧
      t = { s with regs := t.regs, boot := t.boot } ∧ OnlyRegs [Pg.DEV + DEV.BOOT_STAT.off] s t)) ∧
  (∀ s : State, (s.stage = Stg.rom ∨ s.stage = Stg.recovery) → s.boot.memTrained = false →
    Answers (.memoryTrainingComplete false) s (fun t =>
      t.stage = Stg.halted ∧ t.get Pg.DEV DEV.BOOT_STAT_FAIL_CODE = 8 ∧ t = { s with regs := t.regs, boot := t.boot } ∧
      OnlyRegs [Pg.DEV + DEV.BOOT_STAT.off] s t)) ∧
  (∀ (b : Bank) (s : State), s.stage = Stg.imageLoad → s.boot.loading = some b →
    bodyCheck (s.bankHeader b) (s.bankBody b) = none →
    Answers (.imageLoadComplete true) s (fun t =>
      t.stage = Stg.fwStart ∧ t.boot.fw = some (imgInfo (s.bankHeader b)) ∧ t.boot.loading = none ∧
      t.security.measLog = s.security.measLog ++ [(1, signedDigest (s.bankHeader b))] ∧
      t = { s with regs := t.regs, boot := t.boot, security := t.security })) ∧
  (∀ (b : Bank) (ok : Bool) (s : State), s.stage = Stg.imageLoad → s.boot.loading = some b →
    (ok = false ∨ bodyCheck (s.bankHeader b) (s.bankBody b) = some 6) → s.boot.left = [] →
    Answers (.imageLoadComplete ok) s (fun t =>
      t.stage = Stg.recovery ∧ t.boot.loading = none ∧ t.boot.fw = s.boot.fw ∧
      t.get Pg.DEV DEV.BOOT_STAT_FAIL_CODE = (if ok then 6 else 7) ∧
      t = { s with regs := t.regs, boot := t.boot, out := t.out })) ∧
  (∀ s : State, s.stage = Stg.fwStart →
    Answers .fwReady s (fun t =>
      t.stage = Stg.fwReady ∧ t.bit Pg.DEV ⟨HDR.PAGE_EVENT.off, 8, 1⟩ = true ∧
      t.mem = { s.mem with darned := t.mem.darned, used := s.mem.record.length } ∧
      (∀ p, t.bit (Pg.LFR p) LFR2.REG_STAT_MUTE_REMOTE = (s.rg p).muteRemote.isSome) ∧
      (s.boot.fw.map ImgInfo.digest ≠ some (signedDigest (s.bankHeader s.bootedBank)) →
        t = { s with regs := t.regs, mem := t.mem }) ∧
      t = { s with regs := t.regs, boot := t.boot, security := t.security, mem := t.mem, ndl := t.ndl, fns := t.fns,
                   reload := t.reload }))) ∧
  ((∀ (ch : Chan) (tag : Byte) (s : State), MbxOpen ch s → s.feat 20 = true → s.updating = false →
    s.bankCheck s.bootedBank.other = none →
    hdrField (s.bankHeader s.bootedBank.other) 0x18 4 ≤ (s.boot.fw.map ImgInfo.version).getD 0 →
    Answers (.updateStart ch tag) s (fun t =>
      MbxReply ch tag Sts.ok [] t ∧
      t.upd = ⟨.verifying, some s.bootedBank.other, some (imgInfo (s.bankHeader s.bootedBank.other)), [], false, false⟩ ∧
      t.boot = { s.boot with log := s.boot.log ++ [(updateStep, s.bootedBank.other.num)] } ∧
      t = { s with regs := t.regs, upd := t.upd, boot := t.boot, out := t.out } ∧ OnlyPages [Pg.HOOK ch] s t)) ∧
  (∀ (ch : Chan) (tag : Byte) (s : State), MbxOpen ch s →
    Answers (.updateStatus ch tag) s (fun t =>
      MbxReply ch tag Sts.ok [Config.updateWord s.upd.phase.num.1 s.upd.phase.num.2] t ∧
      t = { s with regs := t.regs } ∧ OnlyPages [Pg.HOOK ch] s t)) ∧
  (∀ (ch : Chan) (tag : Byte) (s : State), MbxOpen ch s → s.updating = true →
    Answers (.updateAbort ch tag) s (fun t =>
      MbxReply ch tag Sts.ok [] t ∧
      t.upd = (match s.upd.phase, s.upd.active with
        | .moving _, true => { s.upd with aborting := true }
        | _, _ => ⟨.rolledBack, none, none, [], false, false⟩) ∧
      t = { s with regs := t.regs, upd := t.upd, boot := { s.boot with log := t.boot.log }, out := t.out } ∧
      OnlyPages [Pg.HOOK ch] s t)) ∧
  (∀ (core : Fin 4) (s : State), s.updating = true → s.upd.active = false → core.val = s.nextCore →
    Answers (.coreMoveStart core) s (fun t =>
      (if s.coreWaits core.val = true then t.upd = { s.upd with phase := .waitCaston } ∧ t.regs = s.regs
       else t.upd = { s.upd with phase := .moving core.val, active := true } ∧
         (core.val = 0 → t.bit (Pg.HOOK .ch0) HOOK.MBX_STAT_PAUSED = true ∧
           t.bit (Pg.HOOK .ch1) HOOK.MBX_STAT_PAUSED = true)) ∧
      t = { s with regs := t.regs, upd := t.upd } ∧ OnlyPages [Pg.HOOK .ch0, Pg.HOOK .ch1] s t)) ∧
  (∀ (core : Fin 4) (s : State), s.upd.active = true → s.upd.phase = .moving core.val → core.val ≠ 0 →
    (∀ p, corePort core.val = some p → (s.rg p).due = []) →
    Answers (.coreMoveComplete core true) s (fun t =>
      t.upd = (if s.upd.aborting then ⟨.rolledBack, none, none, [], false, false⟩
        else { s.upd with phase := .moving (core.val - 1), active := false, moved := s.upd.moved ++ [core.val] }) ∧
      (s.upd.aborting = false → t = { s with upd := t.upd }) ∧
      t = { s with upd := t.upd, boot := { s.boot with log := t.boot.log }, out := t.out })) ∧
  (∀ (core : Fin 4) (s : State), s.upd.active = true → s.upd.phase = .moving core.val → s.mbxHeld = [] →
    (∀ p, corePort core.val = some p → (s.rg p).due = []) →
    Answers (.coreMoveComplete core false) s (fun t =>
      t.upd = ⟨.rolledBack, none, none, [], false, false⟩ ∧
      t.boot = { s.boot with log := s.boot.log ++ [(updateBackStep, s.upd.moved.length)] } ∧ t.flash = s.flash ∧
      t = { s with regs := t.regs, upd := t.upd, boot := t.boot, out := t.out } ∧
      OnlyPages [Pg.HOOK .ch0, Pg.HOOK .ch1] s t)) ∧
  (∀ (core : Fin 4) (p : Port) (s : State), s.upd.active = true → s.upd.phase = .moving core.val →
    corePort core.val = some p → (s.rg p).due = [.defectLoss] → s.regSt p = RegSt.work →
    Answers (.coreMoveComplete core true) s (fun t =>
      t.regSt p = RegSt.hold ∧ (t.rg p).due = [] ∧ t.upd.active = false ∧
      t = { s with
          regs := t.regs, fns := t.fns, boot := t.boot, upd := t.upd, fuses := t.fuses, flash := t.flash,
          security := t.security, mbxHeld := t.mbxHeld, clock := t.clock, servo := t.servo, pins := t.pins,
          skein := t.skein, lineA := t.lineA, lineB := t.lineB, dual := t.dual, pcie := t.pcie, twin := t.twin,
          timers := t.timers, free := t.free, out := t.out, ciph := t.ciph, sched := t.sched, ndl := t.ndl,
          reload := t.reload, ndlChunks := t.ndlChunks, gauge := t.gauge, power := t.power })) ∧
  (∀ (b : Bank) (img : ImgInfo) (s : State), s.upd.active = true → s.upd.phase = .moving 0 → s.upd.bank = some b →
    s.upd.img = some img → s.mbxHeld = [] →
    Answers (.coreMoveComplete 0 true) s (fun t =>
      t.upd = ⟨.done, none, none, [], false, false⟩ ∧ t.boot.fw = some img ∧
      (s.newKernels b = false →
        t.security.measLog = s.security.measLog ++ [(1, img.digest)] ∧ t.boot.kernels = s.boot.kernels ∧ t.ndl = s.ndl ∧
        t.fns = s.fns) ∧
      (s.newKernels b = true → s.imageCheck 2 (s.flashImage (s.bankSecond b)) = none →
        t.security.measLog = s.security.measLog ++
          [(1, img.digest), (2, signedDigest ((s.flashImage (s.bankSecond b)).take 0x140))] ∧
        t.boot.kernels = some (imgInfo ((s.flashImage (s.bankSecond b)).take 0x140))) ∧
      t = { s with regs := t.regs, upd := t.upd, boot := t.boot, flash := t.flash, security := t.security, out := t.out,
                   ndl := t.ndl, fns := t.fns, reload := t.reload })))

/-- R78, R80, R81: GO submits the request that stands in `MBX_REQ`; a request that is turned away: a second GO, an
unknown command, one that channel 1 may not issue, and any but the early ones before firmware is ready. The
model's choices in it: log entry 34. -/
def Obligations.MailboxRefusals : Prop :=
  (∀ (ch : Chan) (s : State), Granted (chanSource ch) (Pg.HOOK ch + HOOK.MBX_CTRL.off) true s →
    s.bit (Pg.HOOK ch) HOOK.MBX_STAT_BUSY = true →
    Answers (.mbxOverrun ch) s (fun t =>
      t.bit (Pg.HOOK ch) HOOK.MBX_STAT_OVERRUN = true ∧ t.bit (Pg.HOOK ch) HOOK.MBX_STAT_BUSY = true ∧
      t = { s with regs := t.regs, free := s.free + 1 } ∧ OnlyRegs [Pg.HOOK ch + HOOK.MBX_STAT_BUSY.off] s t)) ∧
  (∀ (ch : Chan) (s : State), MbxOpen ch s → s.get (Pg.HOOK ch) ⟨0x080, 0, 16⟩ = 0x21 →
    Answers (.mbxOverrun ch) s (fun t =>
      MbxReply ch (BitVec.ofNat 8 (s.get (Pg.HOOK ch) ⟨0x080, 24, 8⟩)) Sts.ok
        [Config.updateWord s.upd.phase.num.1 s.upd.phase.num.2] t ∧
      t = { s with regs := t.regs, free := s.free + 1 } ∧ OnlyPages [Pg.HOOK ch] s t)) ∧
  (∀ (ch : Chan) (tag : Byte) (code : BitVec 16) (s : State), cmdKnown code.toNat = false → MbxOpen ch s →
    Answers (.unknownCmd ch tag code) s (fun t =>
      MbxReply ch tag Sts.unknownCmd [] t ∧ t = { s with regs := t.regs } ∧ OnlyPages [Pg.HOOK ch] s t)) ∧
  (∀ (tag : Byte) (s : State), Granted .mgmt (Pg.HOOK .ch1 + HOOK.MBX_CTRL.off) true s →
    s.bit (Pg.HOOK .ch1) HOOK.MBX_STAT_BUSY = false → s.upd.active = false → s.fwIsReady = true → s.fuses.oobFull = false →
    ∀ c ∈ [Instr.updateStart .ch1 tag, .updateStatus .ch1 tag, .updateAbort .ch1 tag, .debugChallenge .ch1 tag,
        .ndlStatus .ch1 tag],
      Answers c s (fun t =>
        MbxReply .ch1 tag Sts.notPermitted [] t ∧ t = { s with regs := t.regs } ∧ OnlyPages [Pg.HOOK .ch1] s t)) ∧
  (∀ (ch : Chan) (tag : Byte) (s : State), Granted (chanSource ch) (Pg.HOOK ch + HOOK.MBX_CTRL.off) true s →
    s.bit (Pg.HOOK ch) HOOK.MBX_STAT_BUSY = false → s.upd.active = false → s.fwIsReady = false →
    ∀ c ∈ [Instr.updateStart ch tag, .updateStatus ch tag, .updateAbort ch tag, .debugChallenge ch tag, .ndlStatus ch tag],
      Answers c s (fun t =>
        MbxReply ch tag Sts.notReady [] t ∧ t = { s with regs := t.regs } ∧ OnlyPages [Pg.HOOK ch] s t))

/-- R54, R66, R69 to R72, R75 to R77, R79, R55 to R60, R73, R87, R88: the mailbox commands over flash, images, boot
records and measurements; fuses, the device's protection, debug and the random source. The model's choices in
it: log entries 29, 30, 31, 32, 33 and 5. -/
def Obligations.FlashFusesAndMeasurements : Prop :=
  ((∀ (ch : Chan) (tag : Byte) (s : State), MbxOpen ch s →
    Answers (.getInfo ch tag) s (fun t =>
      MbxReply ch tag Sts.ok (Config.infoWords ((s.boot.fw.map ImgInfo.version).getD 0) s.bootedBank.num s.stage) t ∧
      t = { s with regs := t.regs } ∧ OnlyPages [Pg.HOOK ch] s t)) ∧
  (∀ (ch : Chan) (tag : Byte) (dest : Word64) (s : State), MbxOpen ch s →
    Answers (.getBootLog ch ⟨tag, dest⟩) s (fun t =>
      MbxData ch tag dest.toNat (Config.bootLogBytes s.boot.log) s t ∧
      t = { s with regs := t.regs, out := t.out } ∧ OnlyPages [Pg.HOOK ch] s t)) ∧
  (∀ (tag : Byte) (offset : Word) (image : List Byte) (s : State),
    Granted (chanSource .ch0) (Pg.HOOK .ch0 + HOOK.MBX_CTRL.off) true s → s.bit (Pg.HOOK .ch0) HOOK.MBX_STAT_BUSY = false →
    s.upd.active = false → s.stage = Stg.recovery → s.boot.memTrained = true → s.recoveryChan = some .ch0 →
    s.imageCheck 1 image = none →
    Answers (.recoveryLoad .ch0 tag ⟨offset, image⟩) s (fun t =>
      MbxReply .ch0 tag Sts.ok [] t ∧ t.stage = Stg.fwStart ∧ t.boot.fw = some (imgInfo (image.take 0x140)) ∧
      t.security.measLog = s.security.measLog ++ [(1, signedDigest (image.take 0x140))] ∧
      t = { s with regs := t.regs, boot := t.boot, security := t.security })) ∧
  (∀ (tag : Byte) (offset : Word) (chunk : List Byte) (s : State),
    Granted (chanSource .ch1) (Pg.HOOK .ch1 + HOOK.MBX_CTRL.off) true s → s.bit (Pg.HOOK .ch1) HOOK.MBX_STAT_BUSY = false →
    s.upd.active = false → s.stage = Stg.recovery → s.boot.memTrained = true → s.recoveryChan = some .ch1 →
    chunk.length ≤ 124 →
    Answers (.recoveryLoad .ch1 tag ⟨offset, chunk⟩) s (fun t =>
      let have_ := putChunk s.boot.chunks offset.toNat chunk
      let total := 0x140 + hdrBodyLength (have_.take 0x140)
      let ends := 0x140 ≤ have_.length ∧ offset.toNat < total ∧ total ≤ offset.toNat + chunk.length
      (¬ ends → MbxReply .ch1 tag Sts.ok [] t ∧ t.boot = { s.boot with chunks := have_ } ∧ t.security = s.security) ∧
      (ends → s.imageCheck 1 (have_.take total) = none →
        MbxReply .ch1 tag Sts.ok [] t ∧ t.stage = Stg.fwStart ∧
        t.boot.fw = some (imgInfo ((have_.take total).take 0x140)) ∧ t.boot.chunks = [] ∧
        t.security.measLog = s.security.measLog ++ [(1, signedDigest ((have_.take total).take 0x140))]) ∧
      t = { s with regs := t.regs, boot := t.boot, security := t.security })) ∧
  (∀ (ch : Chan) (tag : Byte) (offset : BitVec 25) (length : BitVec 26) (dest : Word64) (s : State), MbxOpen ch s →
    offset.toNat + length.toNat ≤ 0x2000000 →
    Answers (.flashRead ch tag offset length dest) s (fun t =>
      MbxData ch tag dest.toNat (s.flashBytes offset.toNat length.toNat) s t ∧
      t = { s with regs := t.regs, out := t.out } ∧ OnlyPages [Pg.HOOK ch] s t)) ∧
  (∀ (ch : Chan) (tag : Byte) (r : FlashRegion) (sector : Fin 240) (count : Fin 241) (s : State), MbxOpen ch s →
    s.updating = false → (sector.val + count.val) * 0x10000 ≤ (regionBase r).2 →
    Answers (.flashErase ch tag r sector count) s (fun t =>
      MbxReply ch tag Sts.ok [] t ∧
      (∀ k, SMap.get flashErased t.flash k =
        (if (regionBase r).1 + sector.val * 0x10000 ≤ k ∧ k < (regionBase r).1 + (sector.val + count.val) * 0x10000 then 0xFF
         else SMap.get flashErased s.flash k)) ∧
      t = { s with regs := t.regs, flash := t.flash } ∧ OnlyPages [Pg.HOOK ch] s t)) ∧
  (∀ (ch : Chan) (tag : Byte) (r : FlashRegion) (offset : BitVec 24) (data : List Byte) (s : State), MbxOpen ch s →
    s.updating = false → offset.toNat + data.length ≤ (regionBase r).2 → (ch = .ch1 → data.length ≤ 124) →
    Answers (.flashWrite ch tag r offset data) s (fun t =>
      MbxReply ch tag Sts.ok [] t ∧
      (∀ k, SMap.get flashErased t.flash k =
        (if (regionBase r).1 + offset.toNat ≤ k ∧ k < (regionBase r).1 + offset.toNat + data.length then
           data.getD (k - ((regionBase r).1 + offset.toNat)) 0
         else SMap.get flashErased s.flash k)) ∧
      t = { s with regs := t.regs, flash := t.flash } ∧ OnlyPages [Pg.HOOK ch] s t)) ∧
  (∀ (ch : Chan) (tag : Byte) (b : Bank) (s : State), MbxOpen ch s →
    Answers (.imageVerify ch tag b) s (fun t =>
      MbxReply ch tag (match s.bankCheck b with
        | none => Sts.ok
        | some c => if c = 5 then Sts.rollback else Sts.authFail) [] t ∧
      t = { s with regs := t.regs } ∧ OnlyPages [Pg.HOOK ch] s t)) ∧
  (∀ (ch : Chan) (tag : Byte) (b : Bank) (m : BankMode) (s : State), MbxOpen ch s → s.updating = false →
    Answers (.bankSelect ch tag b m) s (fun t =>
      let seq := match s.recordInForce.1 with
        | some r => recSeq r + 1
        | none => 1
      let mode : List Byte := match m with
        | .confirm => [0, 0]
        | .trial n => [1, BitVec.ofNat 8 n.val]
      MbxReply ch tag Sts.ok [] t ∧
      t.flashBytes (0x1000 * s.recordInForce.2) 11 =
        [0x4C, 0x42, 0x42, 0x52] ++ leBytes 4 seq ++ [BitVec.ofNat 8 b.num] ++ mode ∧
      t = { s with regs := t.regs, flash := t.flash } ∧ OnlyPages [Pg.HOOK ch] s t)) ∧
  (∀ (ch : Chan) (tag : Byte) (dest : Word64) (c : List Byte) (s : State), MbxOpen ch s → s.chain = some c →
    Answers (.certRead ch tag dest) s (fun t =>
      MbxData ch tag dest.toNat c s t ∧ t = { s with regs := t.regs, out := t.out } ∧ OnlyPages [Pg.HOOK ch] s t)) ∧
  (∀ (ch : Chan) (tag : Byte) (nonce : BitVec 256) (dest : Word64) (s : State), MbxOpen ch s →
    Answers (.quote ch tag nonce dest) s (fun t =>
      let body := s.quoteBody (leBytes 32 nonce.toNat) (secOf s.clock.cnt) (nsOf s.clock.cnt)
      MbxData ch tag dest.toNat (body ++ Crypto.ed448Sign s.identitySeed (Crypto.shake256 64 body)) s t ∧
      t = { s with regs := t.regs, out := t.out } ∧ OnlyPages [Pg.HOOK ch] s t)) ∧
  (∀ (ch : Chan) (tag : Byte) (reg : Fin 4) (input : BitVec 512) (s : State), MbxOpen ch s →
    Answers (.measExtend ch tag reg input) s (fun t =>
      MbxReply ch tag Sts.ok [] t ∧
      t.rdWords (Pg.SEC + 0x1040 + 0x40 * (4 + reg.val)) 16 =
        leWords 16 (Crypto.shake256 64 (s.meas (4 + reg.val) ++ leBytes 64 input.toNat)) ∧
      t.security = { s.security with measLog := s.security.measLog ++ [(4 + reg.val, leBytes 64 input.toNat)] } ∧
      t = { s with regs := t.regs, security := t.security } ∧ OnlyPages [Pg.HOOK ch, Pg.SEC + 0x1000] s t)) ∧
  (∀ (ch : Chan) (tag : Byte) (dest : Word64) (s : State), MbxOpen ch s →
    Answers (.measRead ch tag dest) s (fun t =>
      MbxData ch tag dest.toNat (Config.measLogBytes s.security.measLog) s t ∧
      t = { s with regs := t.regs, out := t.out } ∧ OnlyPages [Pg.HOOK ch] s t))) ∧
  ((∀ (ch : Chan) (tag : Byte) (bit : BitVec 14) (count : BitVec 10) (s : State), MbxOpen ch s → count.toNat ≤ 992 →
    fuseReadable.any (fun r => decide (r.1 ≤ bit.toNat ∧ bit.toNat + count.toNat ≤ r.2)) = true → count.toNat % 8 = 0 →
    Answers (.fuseRead ch tag bit count) s (fun t =>
      MbxReply ch tag Sts.ok (wordsOf (s.fuseBytes bit.toNat (count.toNat / 8))) t ∧
      t = { s with regs := t.regs } ∧ OnlyPages [Pg.HOOK ch] s t)) ∧
  (∀ (ch : Chan) (tag : Byte) (bit : BitVec 14) (count : BitVec 10) (s : State), MbxOpen ch s → count.toNat ≤ 992 →
    fuseReadable.any (fun r => decide (r.1 ≤ bit.toNat ∧ bit.toNat + count.toNat ≤ r.2)) = false →
    Answers (.fuseRead ch tag bit count) s (fun t =>
      MbxReply ch tag Sts.notPermitted [] t ∧ t = { s with regs := t.regs } ∧ OnlyPages [Pg.HOOK ch] s t)) ∧
  (∀ (ch : Chan) (tag : Byte) (bit : BitVec 14) (data : List Bool) (temp : Int) (s : State), MbxOpen ch s →
    s.fuseMayProgram bit.toNat data.length = true → 0 ≤ temp → temp ≤ 85 →
    Answers (.fuseProgram ch tag bit data temp true) s (fun t =>
      MbxReply ch tag Sts.ok [] t ∧
      (∀ k, t.fuse k = (s.fuse k || (decide (bit.toNat ≤ k) && data.getD (k - bit.toNat) false))) ∧
      t = { s with regs := t.regs, fuses := { s.fuses with bits := t.fuses.bits } } ∧ OnlyPages [Pg.HOOK ch] s t)) ∧
  (∀ (ch : Chan) (tag : Byte) (req : ProtectReq) (s : State), MbxOpen ch s →
    Answers (.protectAdvance ch tag req) s (fun t =>
      (if ProtectReq.narrows req s.fuses = true then
        MbxReply ch tag Sts.ok [] t ∧
        t.fuses = { s.fuses with
          debug := req.debug, bootSrcAllow := req.bootSrcAllow, ownerKeysLocked := req.ownerKeysLocked,
          oobFull := req.oobFull, userKernels := req.userKernels }
      else MbxReply ch tag Sts.notPermitted [] t ∧ t.fuses = s.fuses) ∧
      t = { s with regs := t.regs, fuses := t.fuses } ∧ OnlyPages [Pg.HOOK ch] s t)) ∧
  (∀ (ch : Chan) (tag : Byte) (type : Fin 4) (img : ImgInfo) (s : State), MbxOpen ch s →
    s.runningImage type.val = some img →
    Answers (.rollbackCommit ch tag type) s (fun t =>
      MbxReply ch tag Sts.ok [] t ∧
      (∀ k, t.fuse k = (s.fuse k || (decide (4416 + 128 * type.val ≤ k) &&
        decide (k < 4416 + 128 * type.val + min 128 img.rollback)))) ∧
      t = { s with regs := t.regs, fuses := { s.fuses with bits := t.fuses.bits } } ∧ OnlyPages [Pg.HOOK ch] s t)) ∧
  (∀ (ch : Chan) (tag : Byte) (s : State), MbxOpen ch s → s.fuses.debug = 1 →
    Answers (.debugChallenge ch tag) s (fun t =>
      MbxReply ch tag Sts.ok (wordsOf (Config.challengeNonce s.free)) t ∧
      t.security.challenge = some (Config.challengeNonce s.free) ∧
      t = { s with regs := t.regs, security := t.security, free := s.free + 1 } ∧ OnlyPages [Pg.HOOK ch] s t)) ∧
  (∀ (ch : Chan) (tag slot : Byte) (pk : BitVec 456) (sig : BitVec 912) (n : List Byte) (s : State), MbxOpen ch s →
    s.fuses.debug = 1 → s.security.challenge = some n →
    Answers (.debugResponse ch tag slot pk sig) s (fun t =>
      let ok := s.keySlotUsable slot.toNat && s.keyMatches slot.toNat (leBytes 57 pk.toNat) &&
        Crypto.ed448Verify (leBytes 57 pk.toNat) (Crypto.shake256 64 (n ++ s.serial)) (leBytes 114 sig.toNat)
      MbxReply ch tag (if ok then Sts.ok else Sts.authFail) [] t ∧ t.security.challenge = none ∧
      t.bit Pg.SEC SEC0.PROTECT_DEBUG_ACTIVE = (ok || s.bit Pg.SEC SEC0.PROTECT_DEBUG_ACTIVE) ∧
      t = { s with regs := t.regs, security := t.security } ∧ OnlyPages [Pg.HOOK ch, Pg.SEC, Pg.SEC + 0x1000] s t)) ∧
  (∀ (ch : Chan) (tag : Byte) (count : Fin 65) (s : State), MbxOpen ch s →
    Answers (.random ch tag count) s (fun t =>
      (if s.bit Pg.SEC SEC0.RNG_STAT_DRBG_ERROR = true then
        MbxReply ch tag Sts.entropyFail [] t ∧ t.security = s.security
       else MbxReply ch tag Sts.ok (wordsOf (s.security.drbg.generate count.val).1) t ∧
        t.security = { s.security with drbg := (s.security.drbg.generate count.val).2 }) ∧
      t = { s with regs := t.regs, security := t.security } ∧ OnlyPages [Pg.HOOK ch] s t)) ∧
  (∀ s : State,
    Answers .entropyHealthFail s (fun t =>
      (if healthy (Config.noiseBlock s.free) = true then t = { s with free := s.free + 1 }
      else
        t.get Pg.SEC SEC0.RNG_STAT_FAIL_COUNT = min 0xFFFF (s.get Pg.SEC SEC0.RNG_STAT_FAIL_COUNT + 1) ∧
        t.security = { s.security with failedRun := s.security.failedRun + 1 } ∧
        t.bit Pg.SEC SEC0.RNG_STAT_SOURCE_FAILED =
          (decide (3 ≤ s.security.failedRun + 1) || s.bit Pg.SEC SEC0.RNG_STAT_SOURCE_FAILED)) ∧
      t = { s with regs := t.regs, security := t.security, free := s.free + 1 } ∧
      OnlyRegs [Pg.SEC + SEC0.RNG_STAT_FAIL_COUNT.off, Pg.SEC + HDR.PAGE_EVENT.off] s t)) ∧
  (∀ s : State,
    Answers .drbgReseed s (fun t =>
      let samples := Config.noiseBlock s.free
      (s.bit Pg.SEC SEC0.RNG_STAT_SOURCE_FAILED = true →
        t.bit Pg.SEC SEC0.RNG_STAT_DRBG_ERROR = true ∧ t.bit Pg.SEC SEC0.RNG_STAT_MASK_STALE = true ∧
        t.security = s.security) ∧
      (s.bit Pg.SEC SEC0.RNG_STAT_SOURCE_FAILED = false → healthy samples = true →
        t.bit Pg.SEC SEC0.RNG_STAT_READY = true ∧ t.bit Pg.SEC SEC0.RNG_STAT_DRBG_ERROR = false ∧
        t.security = { s.security with failedRun := 0, drbg := s.security.drbg.reseed (conditioned samples) }) ∧
      (s.bit Pg.SEC SEC0.RNG_STAT_SOURCE_FAILED = false → healthy samples = false →
        t.bit Pg.SEC SEC0.RNG_STAT_SOURCE_FAILED = decide (3 ≤ s.security.failedRun + 1) ∧
        t.bit Pg.SEC SEC0.RNG_STAT_DRBG_ERROR =
          (decide (3 ≤ s.security.failedRun + 1) || s.bit Pg.SEC SEC0.RNG_STAT_DRBG_ERROR) ∧
        t.security = { s.security with failedRun := s.security.failedRun + 1 }) ∧
      t = { s with regs := t.regs, security := t.security, free := s.free + 1 } ∧
      OnlyRegs [Pg.SEC + SEC0.RNG_STAT_READY.off, Pg.SEC + SEC0.RNG_STAT_FAIL_COUNT.off, Pg.SEC + HDR.PAGE_EVENT.off] s t)) ∧
  (∀ (samples : List Bool) (s : State), s.bit Pg.SEC SEC0.RNG_STAT_SOURCE_FAILED = true →
    Answers (.entropyStartupRetest samples) s (fun t =>
      (if 1024 ≤ samples.length ∧ healthy samples = true then
        t.bit Pg.SEC SEC0.RNG_STAT_SOURCE_FAILED = false ∧ t.bit Pg.SEC SEC0.RNG_STAT_DRBG_ERROR = false ∧
        t.security = { s.security with failedRun := 0, drbg := s.security.drbg.reseed (conditioned samples) }
      else t = s) ∧
      t = { s with regs := t.regs, security := t.security } ∧ OnlyRegs [Pg.SEC + SEC0.RNG_STAT_READY.off] s t)))

/-! ### Line ports: clock recovery, framing, optics (chapters 4 to 6) -/

/-- R13, R93, R115 to R117, R125, R128, R129: clock recovery and alignment. The model's choices in it: log entries
37 and 24. -/
def Obligations.ClockRecoveryAndAlignment : Prop :=
  (∀ (p : Port) (s : State), s.cdr p = cdrFree → (s.fnIs (.line p) .castingOn || s.fnIs (.line p) .running) = true →
    (s.down p).raw.getD 0 false = false →
    Answers (.cdrAcquireStart p) s (fun t =>
      t.cdr p = cdrAcquire ∧ SMap.get noTimer t.timers (Tm.acquire p) = some (20 * ms) ∧ (t.modem p).last = none ∧
      t.line p.other = s.line p.other ∧
      t = { s with
          regs := t.regs, lineA := t.lineA, lineB := t.lineB,
          timers := t.timers } ∧ OnlyRegs [Pg.LINE p + LINE0.RX_STAT_CDR.off] s t)) ∧
  (∀ (p : Port) (s : State), s.cdr p = cdrAcquire → s.running (Tm.acquire p) = true →
    Answers (.cdrAcquireTimeout p) s (fun t =>
      t.cdr p = cdrFree ∧ t.running (Tm.acquire p) = false ∧
      t.get (Pg.LINE p) LINE3.CDR_LOSSES = satAdd32 (s.get (Pg.LINE p) LINE3.CDR_LOSSES) 1 ∧
      t = { s with regs := t.regs, lineA := t.lineA, lineB := t.lineB, timers := t.timers } ∧
      OnlyRegs [Pg.LINE p + LINE0.RX_STAT_CDR.off, Pg.LINE p + LINE3.CDR_LOSSES.off] s t)) ∧
  (∀ (p : Port) (s : State), s.cdr p = cdrLocked →
    Answers (.cdrLoss p) s (fun t =>
      t.cdr p = cdrFree ∧ t.bit (Pg.LINE p) LINE0.RX_STAT_CLK_SRC = false ∧ t.running (Tm.lss p) = false ∧
      t.get (Pg.LINE p) LINE3.CDR_LOSSES = satAdd32 (s.get (Pg.LINE p) LINE3.CDR_LOSSES) 1 ∧
      t.bit (Pg.LINE p) ⟨HDR.PAGE_EVENT.off, 8, 1⟩ = true ∧
      (s.lineOn p = true → (s.down p).raw.length = 6 → (t.down p).raw.getD 1 false = true) ∧
      t = { s with
          regs := t.regs, clock := t.clock, servo := t.servo, pins := t.pins, skein := t.skein, lineA := t.lineA,
          lineB := t.lineB, pcie := t.pcie, timers := t.timers, free := t.free, out := t.out, ciph := t.ciph,
          sched := t.sched, gauge := t.gauge })) ∧
  (∀ (p : Port) (s : State), s.cdr p = cdrLocked → s.running (Tm.lss p) = true → s.lineOn p = true →
    Answers (.lssClear p) s (fun t =>
      (t.down p).raw.getD 1 false = false ∧ t.running (Tm.lss p) = false ∧ t.cdr p = cdrLocked ∧
      t = { s with
          regs := t.regs, clock := t.clock, servo := t.servo, pins := t.pins, skein := t.skein, lineA := t.lineA,
          lineB := t.lineB, pcie := t.pcie, timers := t.timers, free := t.free, out := t.out, ciph := t.ciph,
          sched := t.sched, gauge := t.gauge })) ∧
  (∀ (p : Port) (o : SyncObs) (s : State), s.lineOn p = true → s.cdr p ≠ cdrFree → s.scan = false →
    (s.gen1 p = true → syncWordErrors o.syncWord ≤ (if s.align p = alSeek then 0 else 3)) →
    Answers (.syncSymbolFound p o) s (fun t =>
      let m := s.modem p
      (s.cdr p = cdrAcquire →
        (∀ l, l ∈ m.finds → near o.place (l + s.period p) (s.spacingTol p) = true →
          t.cdr p = cdrTrack ∧ t.running (Tm.acquire p) = false ∧ (t.modem p).last = some o.place ∧ (t.modem p).good = 0 ∧
          (t.modem p).finds = []) ∧
        ((∀ l, l ∈ m.finds → near o.place (l + s.period p) (s.spacingTol p) = false) →
          t.cdr p = cdrAcquire ∧ (t.modem p).finds = o.place :: m.finds)) ∧
      (s.cdr p = cdrTrack → 10000 < o.freq.natAbs → t.cdr p = cdrFree) ∧
      (s.cdr p = cdrTrack → o.freq.natAbs ≤ 10000 → o.freqError.natAbs ≤ 50 → m.good = 15 →
        t.cdr p = cdrLocked ∧ t.bit (Pg.LINE p) LINE0.RX_STAT_CLK_SRC = true ∧
        SMap.get noTimer t.timers (Tm.lss p) = some ms) ∧
      (∀ l, s.cdr p = cdrLocked → m.last = some l → near o.place (l + s.period p) (s.placeTol p) = false →
        t.cdr p = cdrFree ∧ t.get (Pg.LINE p) LINE3.CDR_LOSSES = satAdd32 (s.get (Pg.LINE p) LINE3.CDR_LOSSES) 1) ∧
      (∀ l r, s.cdr p = cdrLocked → m.last = some l → near o.place (l + s.period p) (s.placeTol p) = true →
        s.readPreamble p o.preamble = some r →
        t.cdr p = cdrLocked ∧
        (s.align p = alSeek → t.align p = alConfirm ∧ (t.down p).count = r.frame ∧ (t.down p).boundary = o.place ∧
          t.get (Pg.LFR p) LFR0.FRAME_COUNT_LO = r.frame % 2 ^ 32 ∧ t.get (Pg.LFR p) LFR0.TREE = r.tree % 2 ^ 16) ∧
        (near o.place ((s.down p).boundary + s.period p) (s.placeTol p) = true →
          (s.align p = alConfirm → r.frame = (s.down p).count + 1 →
            t.align p = alLocked ∧ (t.down p).raw.getD 2 false = false ∧ (t.down p).count = r.frame) ∧
          (s.align p = alConfirm → r.frame ≠ (s.down p).count + 1 → t.align p = alSeek) ∧
          (s.align p = alLocked →
            t.align p = alLocked ∧ (t.down p).miss = 0 ∧ (t.down p).count = r.frame ∧
            t.get64 (Pg.LFR p) LFR1.LINE_FRAMES_LO = wrapAdd64 (s.get64 (Pg.LFR p) LFR1.LINE_FRAMES_LO) 1 ∧
            t.get (Pg.LFR p) LFR1.COUNT_JUMP = (if r.frame = (s.down p).count + 1 then s.get (Pg.LFR p) LFR1.COUNT_JUMP
              else satAdd32 (s.get (Pg.LFR p) LFR1.COUNT_JUMP) 1)))) ∧
      t = { s with
          regs := t.regs, clock := t.clock, servo := t.servo, pins := t.pins, skein := t.skein, lineA := t.lineA,
          lineB := t.lineB, pcie := t.pcie, timers := t.timers, free := t.free, out := t.out, ciph := t.ciph,
          sched := t.sched, gauge := t.gauge })) ∧
  (∀ (p : Port) (s : State), s.lineOn p = true →
    Answers (.syncSymbolMiss p) s (fun t =>
      let m := s.modem p
      let d := s.down p
      ((s.cdr p = cdrTrack ∨ s.cdr p = cdrLocked) → m.missed = 7 → t.cdr p = cdrFree) ∧
      ((s.cdr p = cdrTrack ∨ s.cdr p = cdrLocked) → m.missed ≠ 7 →
        t.cdr p = s.cdr p ∧ (t.modem p).missed = m.missed + 1 ∧ (t.modem p).last = m.last.map (· + s.period p)) ∧
      (s.align p = alConfirm → t.align p = alSeek) ∧
      (s.align p = alLocked →
        (t.down p).count = d.count + 1 ∧ (t.down p).boundary = d.boundary + s.period p ∧
        t.get64 (Pg.LFR p) LFR1.LINE_FRAMES_LO = wrapAdd64 (s.get64 (Pg.LFR p) LFR1.LINE_FRAMES_LO) 1 ∧
        t.get (Pg.LFR p) LFR1.HDR_LOST = satAdd32 (s.get (Pg.LFR p) LFR1.HDR_LOST) 1 ∧
        (if d.miss = 3 then t.align p = alSeek ∧ (d.raw.length = 6 → (t.down p).raw.getD 2 false = true)
         else t.align p = alLocked ∧ (t.down p).miss = d.miss + 1)) ∧
         t = { s with
             regs := t.regs, clock := t.clock, servo := t.servo, pins := t.pins, skein := t.skein, lineA := t.lineA,
             lineB := t.lineB, pcie := t.pcie, timers := t.timers, free := t.free, out := t.out, ciph := t.ciph,
             sched := t.sched, gauge := t.gauge }))

/-- R95 to R97, R116 to R118, R126, R127, R137 to R139, R227, R275, R105 to R112: headers, codewords, sections and
the defects; the delineators, and what becomes of a delineated frame. The model's choices in it: log entries 74,
38, 39 and 73. -/
def Obligations.CodewordsDefectsAndFrames : Prop :=
  ((∀ (p : Port) (body : Option (List Byte)) (s : State), (s.down p).bodyDue = false →
    Answers (.headerBody p body) s (fun t => t = s)) ∧
  (∀ (p : Port) (body : Option (List Byte)) (s : State), (s.down p).bodyDue = true →
    (∀ bs, body = some bs → (if s.gen1 p then bodyGood1 bs else s.bodyGood p bs) = false) →
    Answers (.headerBody p body) s (fun t =>
      t.get (Pg.LFR p) LFR1.HDR_INCONSISTENT = satAdd32 (s.get (Pg.LFR p) LFR1.HDR_INCONSISTENT) 1 ∧
      t.get (Pg.LFR p) LFR1.HDR_LOST = satAdd32 (s.get (Pg.LFR p) LFR1.HDR_LOST) 1 ∧
      t.bit (Pg.LFR p) ⟨HDR.PAGE_EVENT.off, 21, 1⟩ = true ∧ (t.down p).bodyDue = false ∧
      t = { s with
          regs := t.regs, lineA := t.lineA, lineB := t.lineB })) ∧
  (∀ (p : Port) (bs : List Byte) (s : State), (s.down p).bodyDue = true →
    (if s.gen1 p then bodyGood1 bs else s.bodyGood p bs) = true →
    Answers (.headerBody p (some bs)) s (fun t =>
      let o := if s.gen1 p then 0xC else 2
      t.bit (Pg.LFR p) LFR0.SR_RX_VALID = true ∧ t.get (Pg.LFR p) LFR0.SR_RX_SR0 = msgField bs o 1 ∧
      t.get (Pg.LFR p) LFR0.SR_RX_SR1 = msgField bs (o + 1) 1 ∧ (t.down p).bodyDue = false ∧
      t.get (Pg.LFR p) LFR1.HDR_LOST = s.get (Pg.LFR p) LFR1.HDR_LOST ∧
      t = { s with
          regs := t.regs, lineA := t.lineA, lineB := t.lineB })) ∧
  (∀ (p : Port) (k : Fin 8) (rx : RxWord) (s : State), (s.stream p k.val).on = false →
    Answers (.codewordArrival p .payload ⟨k, rx⟩) s (fun t => t = s)) ∧
  (∀ (p : Port) (kind : CwKind) (k : Fin 8) (rx : RxWord) (s : State),
    (kind = .payload → (s.stream p k.val).on = true) →
    ((s.modem p).waiting < 64 ∨ (kind ≠ .payload ∧ (s.modem p).decodesPayload = false)) →
    Answers (.codewordArrival p kind ⟨k, rx⟩) s (fun t =>
      let r := s.demap p kind k.val rx
      let m := r.2.modem p
      t.modem p = { m with
        queue := m.queue ++ [⟨kind, k.val, r.1⟩]
        cut := if 64 ≤ m.queue.length ∧ m.decodesPayload = true then 2
          else if kind = .payload ∧ 48 ≤ m.waiting ∧ m.decodesPayload = true then max 1 m.cut else m.cut } ∧
      m.queue = (s.modem p).queue ∧ m.cut = (s.modem p).cut ∧
      t.line p.other = s.line p.other ∧ t = { s with lineA := t.lineA, lineB := t.lineB })) ∧
  (∀ (p : Port) (k : Fin 8) (rx : RxWord) (s : State), (s.stream p k.val).on = true → 64 ≤ (s.modem p).waiting →
    (s.modem p).decodesPayload = false →
    Answers (.codewordArrival p .payload ⟨k, rx⟩) s (fun t =>
      (t.modem p).queue = (s.modem p).queue ∧
      t.get (Pg.LINE p) LINE3.CW_UNCORR = satAdd32 (s.get (Pg.LINE p) LINE3.CW_UNCORR) 1 ∧
      t.get (Pg.LINE p) LINE3.CW_CUT = satAdd32 (s.get (Pg.LINE p) LINE3.CW_CUT) 1 ∧
      t = { s with
          regs := t.regs, evtAt := t.evtAt, lineA := t.lineA, lineB := t.lineB })) ∧
  (∀ (p : Port) (kind : CwKind) (k : Fin 8) (rx : RxWord) (s : State),
    (kind = .payload → (s.stream p k.val).on = true) → 64 ≤ (s.modem p).waiting → (s.modem p).decodesPayload = true →
    Answers (.codewordArrival p kind ⟨k, rx⟩) s (fun t =>
      (t.modem p).queue = (s.modem p).queue.tail ++ [⟨kind, k.val, (s.demap p kind k.val rx).1⟩] ∧
      t.get (Pg.LINE p) LINE3.CW_UNCORR = satAdd32 (s.get (Pg.LINE p) LINE3.CW_UNCORR) 1 ∧
      t.get (Pg.LINE p) LINE3.CW_CUT = satAdd32 (s.get (Pg.LINE p) LINE3.CW_CUT) 1 ∧
      t.get64 (Pg.LINE p) LINE3.ITER_TOTAL_LO = wrapAdd64 (s.get64 (Pg.LINE p) LINE3.ITER_TOTAL_LO) 1 ∧
      t = { s with regs := t.regs, evtAt := t.evtAt, lineA := t.lineA, lineB := t.lineB })) ∧
  (∀ (p : Port) (zero : Bool) (info : List Byte) (parity : List Bool) (iters at_ : Nat) (q : QCw) (qs : List QCw) (s : State),
    (s.modem p).queue = q :: qs →
    Answers (.codewordDecoded p zero info parity iters at_) s (fun t =>
      let limit := if q.kind = .payload then s.maxIter p else 12
      let early := decide (iters < limit) && (decide ((s.modem p).cut = 2) || (decide ((s.modem p).cut = 1) && decide (12 ≤ iters)))
      let n := q.soft.length
      (t.modem p).queue = qs ∧ (t.modem p).cut = 0 ∧
      t.get64 (Pg.LINE p) LINE3.ITER_TOTAL_LO = wrapAdd64 (s.get64 (Pg.LINE p) LINE3.ITER_TOTAL_LO) (min limit iters) ∧
      (zero = true → iters ≤ limit →
        t.get64 (Pg.LINE p) LINE3.CW_DECODED_LO = wrapAdd64 (s.get64 (Pg.LINE p) LINE3.CW_DECODED_LO) 1 ∧
        t.get64 (Pg.LINE p) LINE3.BITS_CORRECTED_LO =
          wrapAdd64 (s.get64 (Pg.LINE p) LINE3.BITS_CORRECTED_LO) (changedBits q.soft (bitsOfBytes info ++ parity)) ∧
        t.get64 (Pg.LINE p) LINE3.CODED_BITS_LO = wrapAdd64 (s.get64 (Pg.LINE p) LINE3.CODED_BITS_LO) n ∧
        t.get (Pg.LINE p) LINE3.CW_UNCORR = s.get (Pg.LINE p) LINE3.CW_UNCORR) ∧
      ((zero = false ∨ limit < iters) →
        t.get64 (Pg.LINE p) LINE3.CW_DECODED_LO = s.get64 (Pg.LINE p) LINE3.CW_DECODED_LO ∧
        t.get (Pg.LINE p) LINE3.CW_UNCORR = satAdd32 (s.get (Pg.LINE p) LINE3.CW_UNCORR) 1 ∧
        t.get (Pg.LINE p) LINE3.CW_CUT = (if early then satAdd32 (s.get (Pg.LINE p) LINE3.CW_CUT) 1
          else s.get (Pg.LINE p) LINE3.CW_CUT)) ∧
      t = { s with regs := t.regs, evtAt := t.evtAt, lineA := t.lineA, lineB := t.lineB })) ∧
  (∀ (p : Port) (power clipped : Nat) (s : State),
    s.domIsOff (match p with | .portA => .lineA | .portB => .lineB) = false →
    Answers (.losWindow p power clipped) s (fun t =>
      let rx := power + 2 * s.get (Pg.LINE p) LINE0.RX_STAT_GAIN_NOW
      let thresh := s.get (Pg.LFR p) LFR0.LOS_CFG_THRESH
      let d := s.down p
      t.get (Pg.LINE p) LINE0.RX_POWER = min 255 rx ∧
      (clipped = 0 ∨ t.get (Pg.LINE p) LINE3.ADC_CLIP = satAdd32 (s.get (Pg.LINE p) LINE3.ADC_CLIP) clipped) ∧
      (s.lineOn p = true → d.raw.length = 6 → d.raw.getD 0 false = false → thresh < rx → 7 ≤ d.losBad →
        (t.down p).raw.getD 0 false = true ∧ t.cdr p = cdrFree) ∧
      (s.lineOn p = true → d.raw.getD 0 false = true → rx < thresh - s.get (Pg.LFR p) LFR0.LOS_CFG_HYST →
        999 ≤ d.losGood → (t.down p).raw.getD 0 false = false) ∧
        t = { s with
            regs := t.regs, evtAt := t.evtAt, clock := t.clock, servo := t.servo, pins := t.pins, skein := t.skein,
            lineA := t.lineA, lineB := t.lineB, pcie := t.pcie, timers := t.timers, free := t.free, out := t.out,
            ciph := t.ciph, sched := t.sched, gauge := t.gauge })) ∧
  (∀ (p : Port) (long : Bool) (s : State), s.lineOn p = true → (s.down p).raw.length = 6 →
    Answers (.defectWindowEnd p long) s (fun t =>
      let d := s.down p
      let ber := s.get (Pg.LFR p) LFR0.SF_CFG_BER
      let unc := s.get (Pg.LFR p) LFR0.SF_CFG_UNCORR
      let higher := lossOf d.raw || d.raw.getD 3 false
      (if long then (t.down p).w1024 = ⟨0, 0, 0, 0⟩ else (t.down p).w64 = ⟨0, 0, 0, 0⟩) ∧
      (long = false → d.raw.getD 4 false = false → (d.w64.berAbove ber || d.w64.uncAbove unc) = true → higher = false →
        (t.down p).raw.getD 4 false = true) ∧
      (long = true → d.raw.getD 4 false = true → (d.w1024.berBelow ber && d.w1024.uncBelow unc) = true →
        (t.down p).raw.getD 4 false = false) ∧
      (long = true → d.raw.getD 4 false = false → d.raw.getD 5 false = false → higher = false →
        d.w1024.berAbove (s.get (Pg.LFR p) LFR0.SD_CFG) = true → (t.down p).raw.getD 5 false = true) ∧
      t = { s with
          regs := t.regs, clock := t.clock, servo := t.servo, pins := t.pins, skein := t.skein, lineA := t.lineA,
          lineB := t.lineB, pcie := t.pcie, timers := t.timers, free := t.free, out := t.out, ciph := t.ciph,
          sched := t.sched, gauge := t.gauge })) ∧
  (∀ (p : Port) (s : State), s.lineOn p = true → lossOf (s.down p).raw = false → (s.down p).raw.length = 6 →
    (s.down p).lostRecent.headD true = false →
    Answers (.lodEvaluation p) s (fun t =>
      (∀ k x, (k, x) ∈ (s.down p).streams → x.on = true → x.hadRuns = true → x.st ≠ .anchored → 7 ≤ x.lodBad →
        (s.down p).raw.getD 3 false = false → (t.down p).raw.getD 3 false = true) ∧
      ((s.down p).streams = [] → (s.down p).raw.getD 3 false = true → (t.down p).raw.getD 3 false = false) ∧
      t = { s with
          regs := t.regs, clock := t.clock, servo := t.servo, pins := t.pins, skein := t.skein, lineA := t.lineA,
          lineB := t.lineB, pcie := t.pcie, timers := t.timers, free := t.free, out := t.out, ciph := t.ciph,
          sched := t.sched, gauge := t.gauge })) ∧
  (∀ (p : Port) (a : CtrlArea) (sec : Nat × Nat) (bs : List Byte) (u s : State),
    s.takeSection p CtrlArea.mgmt (fun a => { a with mgmt := none }) = (some (a, sec, some bs), u) →
    Answers (.mgmtSection p) s (fun t =>
      (bs.length % 64 ≠ 0 → t.get (Pg.LFR p) LFR1.MGMT_ERR = satAdd32 (s.get (Pg.LFR p) LFR1.MGMT_ERR) 1 ∧
        (t.down p).mgmtIn = (s.down p).mgmtIn) ∧
      (bs.length = 64 → (shortCrcOk bs && shortTypeKnown (msgField bs 0 1)) = false →
        t.get (Pg.LFR p) LFR1.MGMT_ERR = satAdd32 (s.get (Pg.LFR p) LFR1.MGMT_ERR) 1 ∧
        (t.down p).mgmtIn = (s.down p).mgmtIn) ∧
      (bs.length = 64 → shortCrcOk bs = true → shortTypeKnown (msgField bs 0 1) = true →
        (t.down p).mgmtIn = (s.down p).mgmtIn ++ [bs] ∧ t.regs = s.regs) ∧
        t = { s with
            regs := t.regs, lineA := t.lineA, lineB := t.lineB })) ∧
  (∀ (p : Port) (a : CtrlArea) (sec : Nat × Nat) (bs : List Byte) (u s : State),
    s.takeSection p CtrlArea.time (fun a => { a with time := none }) = (some (a, sec, some bs), u) →
    Answers (.timeSection p) s (fun t =>
      (if bs.length % 48 ≠ 0 then
        t.get Pg.TIME TIME1.TMSG_ERR = satAdd32 (s.get Pg.TIME TIME1.TMSG_ERR) 1 ∧
        (t.down p).timeIn = (s.down p).timeIn
      else (t.down p).timeIn = (s.down p).timeIn ++ cutBytes 48 (bs.length / 48) bs) ∧
      t = { s with
          regs := t.regs, lineA := t.lineA, lineB := t.lineB })) ∧
  (∀ (src : Source) (val : Word) (p : Port) (s : State), Granted src (Pg.LFR p + LFR0.DS_CTRL.off) true s →
    Answers (.dsCtrlWrite src val p) s (fun t =>
      if decide (val.toNat % 2 = 1) ≠ s.gen1 p ∧ s.fnIs (.line p) .off = false then
        RejectedTo src (Pg.LFR p) 1 true (Pg.LFR p + LFR0.DS_CTRL.off) s t
      else
        t.gen1 p = decide (val.toNat % 2 = 1) ∧ t.bit (Pg.LFR p) LFR0.DS_CTRL_ANCHOR_JUMP = val.getLsbD 3 ∧
        t.get (Pg.LFR p) LFR0.DS_CTRL_PROF_EN = (if src.isHook then val.toNat / 2 ^ 16 % 256 / 2 * 2 + 1
          else s.get (Pg.LFR p) LFR0.DS_CTRL_PROF_EN) ∧
        t = { s with regs := t.regs } ∧ OnlyRegs [Pg.LFR p + LFR0.DS_CTRL.off] s t))) ∧
  ((∀ (p : Port) (k : Fin 8) (s : State), ((s.stream p k.val).on = false ∨ s.align p ≠ alLocked) →
    Answers (.delineatorFeh p k) s (fun t => t = s)) ∧
  (∀ (p : Port) (k : Fin 8) (s : State), (s.stream p k.val).on = true → s.align p = alLocked →
    (s.stream p k.val).anchorDue = none → (s.stream p k.val).waitAnchor = false →
    ((s.stream p k.val).st = .hunt → s.bit (Pg.LFR p) LFR0.DS_CTRL_ANCHOR_JUMP = false) →
    Answers (.delineatorFeh p k) s (fun t =>
      let x := s.stream p k.val
      let y := t.stream p k.val
      let z : Stream := { x with st := .sync, confirms := 0, miss := 0 }
      (x.bytes x.q 8 = none → y.st = x.st ∧ y.q = x.q ∧ y.held = x.held ∧ y.ready = x.ready) ∧
      (∀ bs, x.bytes x.q 8 = some (some bs) → fehValid (beNat bs) = true →
        (x.st = .hunt → y.st = .presync ∧ y.cand = x.q ∧ y.q = x.q + 8 + fehLength (beNat bs)) ∧
        (x.st = .presync → x.confirms = 0 → y.st = .presync ∧ y.confirms = 1 ∧ y.q = x.q + 8 + fehLength (beNat bs)) ∧
        (x.st = .presync → x.confirms ≠ 0 →
          y.st = (match z.anchorDue with | some a => if x.q = a then .anchored else .hunt | none => .sync) ∧
          y.q = (match z.anchorDue with
            | some a => if x.q = a then x.q + 8 + fehLength (beNat bs) else a
            | none => x.q + 8 + fehLength (beNat bs))) ∧
        (x.st = .anchored → y.st = .anchored ∧
          y.ready = x.ready ++ (if fehIdle (beNat bs) then [] else [⟨x.q, beNat bs, 0, false⟩]) ∧
          y.q = x.q + 8 + fehLength (beNat bs))) ∧
      ((x.bytes x.q 8).any (fun b => b.all (fun bs => !fehValid (beNat bs))) = true →
        x.st = .presync → y.st = .hunt ∧
          y.q = (match x.segAt x.q with | some g => if g.lost then g.start + g.len else x.cand + 1 | none => x.cand + 1) ∧
          t.get (Pg.LFR p) (LFR1.PSTAT_HUNTS k.val) = satAdd32 (s.get (Pg.LFR p) (LFR1.PSTAT_HUNTS k.val)) 1) ∧
      (∀ j, j ≠ k.val → t.stream p j = s.stream p j) ∧ t.line p.other = s.line p.other ∧
      t = { s with
          regs := t.regs, lineA := t.lineA, lineB := t.lineB })) ∧
  (∀ (p : Port) (k : Fin 8) (a : Nat) (s : State), (s.stream p k.val).on = true →
    (s.stream p k.val).anchorDue = some a → (s.stream p k.val).st = .sync →
    Answers (.delineatorAnchor p k) s (fun t =>
      let x := s.stream p k.val
      let y := t.stream p k.val
      let kept := x.held.filter (fun f => !f.gone)
      let lost := (kept.filter x.reachesLost).length
      y.held = [] ∧
      (if x.q = a then y.st = .anchored ∧ y.ready = x.ready ++ x.held ∧ t.get (Pg.LFR p) (LFR1.PSTAT_HUNTS k.val) =
          s.get (Pg.LFR p) (LFR1.PSTAT_HUNTS k.val)
       else y.st = .hunt ∧ y.q = a ∧ y.ready = x.ready ∧
        t.get (Pg.LFR p) (LFR1.PSTAT_FALSE_LOCK k.val) =
          satAdd32 (s.get (Pg.LFR p) (LFR1.PSTAT_FALSE_LOCK k.val)) (kept.length - lost) ∧
        t.get (Pg.LFR p) (LFR1.PSTAT_ERASED k.val) = satAdd32 (s.get (Pg.LFR p) (LFR1.PSTAT_ERASED k.val)) lost ∧
        t.get (Pg.LFR p) (LFR1.PSTAT_HUNTS k.val) = satAdd32 (s.get (Pg.LFR p) (LFR1.PSTAT_HUNTS k.val)) 1 ∧
        t.bit (Pg.LFR p) ⟨HDR.PAGE_EVENT.off, 18, 1⟩ = true) ∧
        t = { s with
            regs := t.regs, lineA := t.lineA, lineB := t.lineB })) ∧
  (∀ (p : Port) (k : Fin 8) (f : DFrame) (fs : List DFrame) (got : Option (List Byte)) (s : State),
    (s.stream p k.val).ready = f :: fs → (s.stream p k.val).bytes (f.at_ + 8) (fehLength f.feh) = some got →
    f.gone = false →
    Answers (.downstreamFrame p k) s (fun t =>
      let payload := if s.lineLost p then none else got
      (t.stream p k.val).ready = fs ∧
      (fehIdle f.feh = true → t.get (Pg.LFR p) (LFR1.PSTAT_ERASED k.val) = s.get (Pg.LFR p) (LFR1.PSTAT_ERASED k.val) ∧
        t.inq p.num = s.inq p.num) ∧
      (payload = none → fehIdle f.feh = false →
        t.get (Pg.LFR p) (LFR1.PSTAT_ERASED k.val) = satAdd32 (s.get (Pg.LFR p) (LFR1.PSTAT_ERASED k.val)) 1) ∧
      (∀ pl, payload = some pl → fehIdle f.feh = false → fehFrag f.feh = 0 → (pl.length < 18 ∨ s.maxLen p < pl.length) →
        t.get (Pg.LFR p) (LFR1.PSTAT_LEN_ERR k.val) = satAdd32 (s.get (Pg.LFR p) (LFR1.PSTAT_LEN_ERR k.val)) 1) ∧
      (∀ pl, payload = some pl → fehIdle f.feh = false → fehFrag f.feh = 0 → 18 ≤ pl.length → pl.length ≤ s.maxLen p →
        (s.macSlot p (fehDest f.feh) = none →
          t.get (Pg.LFR p) (LFR1.PSTAT_FOREIGN k.val) = satAdd32 (s.get (Pg.LFR p) (LFR1.PSTAT_FOREIGN k.val)) 1) ∧
        (s.macSlot p (fehDest f.feh) ≠ none → fehKey f.feh = 1 →
          t.get (Pg.LFR p) (LFR1.PSTAT_KEY_INVALID k.val) = satAdd32 (s.get (Pg.LFR p) (LFR1.PSTAT_KEY_INVALID k.val)) 1) ∧
        (s.macSlot p (fehDest f.feh) ≠ none → fehKey f.feh = 0 → fehTunnel f.feh = false → f.units ≠ 0 →
          s.get Pg.PWR PWR.STATE_CURRENT ≠ 2 → s.get Pg.CIPH CIPH0.LINE_POLICY / 2 ^ p.num % 2 = 0 →
          leNat (pl.drop (pl.length - 4)) = Crypto.crc32 (pl.take (pl.length - 4)) →
          t.inq p.num = s.inq p.num ++ [⟨p.num, pl.take (pl.length - 4), fehPort f.feh, fehCe f.feh, 0, [],
            rxUnits pl.length, none, false, []⟩] ∧
          t.get64 (Pg.LFR p) (LFR1.PSTAT_FRAMES_LO k.val) =
            wrapAdd64 (s.get64 (Pg.LFR p) (LFR1.PSTAT_FRAMES_LO k.val)) 1)) ∧
            t = { s with
                regs := t.regs, evtAt := t.evtAt, cls := t.cls, lineA := t.lineA, lineB := t.lineB, ciph := t.ciph })) ∧
  (∀ (p : Port) (k : Fin 8) (f : DFrame) (fs : List DFrame) (got : Option (List Byte)) (s : State),
    (s.stream p k.val).ready = f :: fs → (s.stream p k.val).bytes (f.at_ + 8) (fehLength f.feh) = some got →
    f.gone = true →
    Answers (.downstreamFrame p k) s (fun t =>
      (t.stream p k.val).ready = fs ∧
      (if !s.lineLost p && got.isSome && (s.macSlot p (fehDest f.feh)).isSome && decide (fehKey f.feh ≠ 1) then
        (t.stream p k.val).ctx = none ∧
        ((s.stream p k.val).ctx.isSome = true → t.get (Pg.LFR p) (LFR1.PSTAT_FRAG_ERR k.val) =
          satAdd32 (s.get (Pg.LFR p) (LFR1.PSTAT_FRAG_ERR k.val)) 1)
       else (t.stream p k.val).ctx = (s.stream p k.val).ctx) ∧
       t = { s with
           regs := t.regs, evtAt := t.evtAt, cls := t.cls, lineA := t.lineA, lineB := t.lineB, ciph := t.ciph })) ∧
  (∀ (p : Port) (k : Fin 8) (s : State), (s.stream p k.val).ready = [] →
    Answers (.downstreamFrame p k) s (fun t => t = s)))

/-- R141, R150, R151, R154, R155, R160 to R162, R184: the laser, the BOSA's pins, the loading tables and the
captures. The model's choices in it: log entries 74, 41, 27, 40 and 8. -/
def Obligations.OpticsLoadingAndCaptures : Prop :=
  (∀ (src : Source) (p : Port) (val : Word) (s : State), Granted src (Pg.LINE p + LINE1.TX_CTRL.off) true s →
    Answers (.laserEnWrite src p val) s (fun t =>
      let on := decide (val.toNat % 2 = 1)
      let m := s.modem p
      t.bit (Pg.LINE p) LINE1.TX_CTRL_LASER_EN = on ∧
      let held := !s.bit (Pg.LINE p) LINE0.RX_STAT_CLK_SRC || !on || m.absent || m.fault || (!on && m.faultHeld)
      (held = true → (t.up p).burst = none ∧
        ((s.up p).burst.isSome = true → t.pin (Pin.ben p) = false ∧
          t.get (Pg.LFR p) LFR1.BURST_CUT = satAdd32 (s.get (Pg.LFR p) LFR1.BURST_CUT) 1 ∧
          t.bit (Pg.LFR p) ⟨HDR.PAGE_EVENT.off, 24, 1⟩ = true)) ∧
      t.bit (Pg.LINE p) LINE1.TX_CTRL_INHIBIT_BEN = (!on && s.bit (Pg.LINE p) LINE1.TX_CTRL_INHIBIT_BEN) ∧
      t.bit (Pg.LINE p) LINE1.TX_CTRL_INHIBIT = held ∧
      ((held = false ∨ (s.up p).burst = none) →
        t.modem p = (if on then { m with faultHeld := m.fault } else m) ∧
        t = { s with regs := t.regs, lineA := t.lineA, lineB := t.lineB } ∧
        OnlyRegs [Pg.LINE p + LINE1.TX_CTRL.off] s t) ∧
        t = { s with
            regs := t.regs, pins := t.pins, skein := t.skein, lineA := t.lineA, lineB := t.lineB, pcie := t.pcie,
            timers := t.timers, free := t.free, out := t.out })) ∧
  (∀ (p : Port) (s : State), s.pin (Pin.ben p) = true →
    Answers (.benStuck p) s (fun t =>
      t.bit (Pg.LINE p) LINE1.TX_CTRL_LASER_EN = false ∧ t.bit (Pg.LINE p) LINE1.TX_CTRL_INHIBIT_BEN = true ∧
      t.bit (Pg.LINE p) LINE1.TX_CTRL_INHIBIT = true ∧
      t.get (Pg.LINE p) LINE3.BEN_STUCK = satAdd32 (s.get (Pg.LINE p) LINE3.BEN_STUCK) 1 ∧
      t.bit (Pg.LINE p) ⟨HDR.PAGE_EVENT.off, 12, 1⟩ = true ∧ (t.up p).burst = none ∧
      t = { s with
          regs := t.regs, pins := t.pins, skein := t.skein, lineA := t.lineA, lineB := t.lineB, pcie := t.pcie,
          timers := t.timers, free := t.free, out := t.out })) ∧
  (∀ (p : Port) (faultPin : Bool) (s : State),
    (if faultPin then (s.modem p).fault else (s.modem p).absent) = false →
    Answers (.optFault p faultPin) s (fun t =>
      (if faultPin then (t.modem p).fault = true ∧ (t.modem p).faultHeld = true ∧ t.bit (Pg.LINE p) LINE2.OPT_STAT_FAULT = true
       else (t.modem p).absent = true ∧ t.bit (Pg.LINE p) LINE2.OPT_STAT_PRESENT = false) ∧
      t.bit (Pg.LINE p) LINE1.TX_CTRL_LASER_EN = false ∧ t.bit (Pg.LINE p) LINE1.TX_CTRL_INHIBIT = true ∧
      t.get (Pg.LINE p) LINE2.OPT_CTRL_BIAS = 0 ∧
      (t.up p).burst = none ∧ t.bit (Pg.LINE p) ⟨HDR.PAGE_EVENT.off, if faultPin then 10 else 11, 1⟩ = true ∧
      t.get (Pg.LINE p) LINE3.OPT_FAULTS = (if (s.modem p).fault || (s.modem p).absent then
        s.get (Pg.LINE p) LINE3.OPT_FAULTS else satAdd32 (s.get (Pg.LINE p) LINE3.OPT_FAULTS) 1) ∧
        t = { s with
            regs := t.regs, pins := t.pins, skein := t.skein, lineA := t.lineA, lineB := t.lineB, pcie := t.pcie,
            timers := t.timers, free := t.free, out := t.out })) ∧
  (∀ (p : Port) (presentPin : Bool) (s : State),
    (if presentPin then (s.modem p).absent else (s.modem p).fault) = true →
    Answers (.optPresent p presentPin) s (fun t =>
      (t.modem p).absent = (!presentPin && (s.modem p).absent) ∧ (t.modem p).fault = (presentPin && (s.modem p).fault) ∧
      (t.modem p).faultHeld = (s.modem p).faultHeld ∧
      t.bit (Pg.LINE p) LINE2.OPT_STAT_PRESENT = !(t.modem p).absent ∧
      t.bit (Pg.LINE p) LINE2.OPT_STAT_FAULT = (t.modem p).fault ∧
      t.bit (Pg.LINE p) LINE1.TX_CTRL_LASER_EN = s.bit (Pg.LINE p) LINE1.TX_CTRL_LASER_EN ∧
      t = { s with
          regs := t.regs, pins := t.pins, skein := t.skein, lineA := t.lineA, lineB := t.lineB, pcie := t.pcie,
          timers := t.timers, free := t.free, out := t.out })) ∧
  (∀ (p : Port) (s : State),
    Answers (.biasRampStep p) s (fun t =>
      let m := s.modem p
      let target := if m.absent || m.fault then 0 else s.get (Pg.LINE p) LINE2.OPT_CTRL_BIAS
      let now := s.get (Pg.LINE p) LINE2.OPT_STAT_BIAS_NOW
      let step := max 1 (s.get (Pg.LINE p) LINE2.OPT_CTRL_BIAS_STEP)
      t.get (Pg.LINE p) LINE2.OPT_STAT_BIAS_NOW =
        (if now ≤ target then min target (now + step) else max target (now - step)) ∧
      ((m.absent || m.fault) = true → t.get (Pg.LINE p) LINE2.OPT_CTRL_BIAS = 0) ∧
      t = { s with regs := t.regs } ∧
      OnlyRegs ([Pg.LINE p + LINE2.OPT_STAT.off] ++ (if m.absent || m.fault then [Pg.LINE p + LINE2.OPT_CTRL.off] else [])) s t)) ∧
  (∀ (p : Port) (x : Fin 4096) (s : State),
    Answers (.rssiSample p x) s (fun t =>
      t.modem p = { s.modem p with rssi := (x.val :: (s.modem p).rssi).take 100 } ∧
      t = { s with regs := t.regs, lineA := t.lineA, lineB := t.lineB } ∧
      OnlyRegs [Pg.LINE p + LINE2.OPT_STAT.off] s t)) ∧
  (∀ (src : Source) (p : Port) (val : Word) (s : State), Granted src (Pg.LINE p + LINE2.TXMON_CAP.off) true s →
    (val.toNat % 2 = 1 →
      Answers (.txmonArm src p val) s (fun t =>
        t.bit (Pg.LINE p) LINE2.TXMON_CAP_BUSY = true ∧
        t.get (Pg.LINE p) LINE2.TXMON_CAP_PROFILE = val.toNat / 8 % 4 ∧
        t.modem p = (if val.toNat / 4 % 2 = 1 then { s.modem p with txmonBurst := none } else s.modem p) ∧
        t = { s with regs := t.regs, lineA := t.lineA, lineB := t.lineB } ∧
        OnlyRegs [Pg.LINE p + LINE2.TXMON_CAP.off] s t)) ∧
    (val.toNat / 4 % 2 = 1 → val.toNat % 2 = 0 →
      Answers (.txmonCancel src p val) s (fun t =>
        t.bit (Pg.LINE p) LINE2.TXMON_CAP_BUSY = false ∧ t.modem p = { s.modem p with txmonBurst := none } ∧
        t = { s with regs := t.regs, lineA := t.lineA, lineB := t.lineB } ∧
        OnlyRegs [Pg.LINE p + LINE2.TXMON_CAP.off] s t))) ∧
  (∀ (src : Source) (p : Port) (s : State), Granted src (Pg.LINE p + LINE0.LOAD_DATA.off) false s →
    1 ≤ s.get (Pg.LINE p) LINE0.LOAD_SEL_TABLE → s.get (Pg.LINE p) LINE0.LOAD_SEL_TABLE ≤ 12 →
    Answers (.loadDataAccess src p none) s (fun t =>
      let table := s.get (Pg.LINE p) LINE0.LOAD_SEL_TABLE
      let bank := s.get (Pg.LINE p) LINE0.LOAD_SEL_BANK
      let k := s.get (Pg.LINE p) LINE0.LOAD_SEL_INDEX / 4 * 4
      t.rdata = BitVec.ofNat 32 (s.loadAt p table bank k + s.loadAt p table bank (k + 1) * 256
        + s.loadAt p table bank (k + 2) * 256 ^ 2 + s.loadAt p table bank (k + 3) * 256 ^ 3) ∧
      t.get (Pg.LINE p) LINE0.LOAD_SEL_INDEX = (k + 4) % 2048 ∧ t = { s with regs := t.regs, rdata := t.rdata } ∧
      OnlyRegs [Pg.LINE p + LINE0.LOAD_SEL.off] s t)) ∧
  (∀ (src : Source) (p : Port) (w : Word) (s : State), Granted src (Pg.LINE p + LINE0.LOAD_DATA.off) true s →
    1 ≤ s.get (Pg.LINE p) LINE0.LOAD_SEL_TABLE → s.get (Pg.LINE p) LINE0.LOAD_SEL_TABLE ≤ 7 →
    Answers (.loadDataAccess src p (some w)) s (fun t =>
      let table := s.get (Pg.LINE p) LINE0.LOAD_SEL_TABLE
      let k := s.get (Pg.LINE p) LINE0.LOAD_SEL_INDEX / 4 * 4
      if s.get (Pg.LINE p) LINE0.LOAD_SEL_BANK = 1 then
        RejectedTo src (Pg.LINE p) 5 true (Pg.LINE p + LINE0.LOAD_DATA.off) s t
      else
        (∀ j, 16 ≤ j → j ≤ 1919 → t.loadAt p table 0 j =
          (if k ≤ j ∧ j < k + 4 then min 10 (w.toNat / 2 ^ (8 * (j - k)) % 256) else s.loadAt p table 0 j)) ∧
        t.get (Pg.LINE p) LINE0.LOAD_SEL_INDEX = (k + 4) % 2048 ∧
        t = { s with regs := t.regs, lineA := t.lineA, lineB := t.lineB } ∧
        OnlyRegs [Pg.LINE p + LINE0.LOAD_SEL.off] s t)) ∧
  (∀ (p : Port) (r : Bool) (s : State), s.bit (Pg.LINE p) LINE0.EQ_CAP_EN = true →
    max 1 (s.get (Pg.LINE p) LINE0.EQ_CAP_EVERY) ≤ (s.modem p).eqCount →
    s.recordFor (s.get (Pg.LINE p) LINE0.EQ_CAP_SLOT) = some r →
    Answers (.eqCaptureRecord p) s (fun t =>
      let slot := s.get (Pg.LINE p) LINE0.EQ_CAP_SLOT
      SMap.get (fun _ => none) t.capture.newest slot = some r ∧
      (SMap.get (fun _ => []) t.capture.words (2 * slot + (if r then 1 else 0))).take (s.eqRecord p).length = s.eqRecord p ∧
      (t.modem p).eqCount = 0 ∧ t.bit (Pg.LINE p) ⟨HDR.PAGE_EVENT.off, 14, 1⟩ = true ∧
      (let n : Fin 8 := match p with
        | .portA => 0
        | .portB => 2
       if s.takesFrom n 1 && decide (s.get (Pg.NDL n) NDL.TRIG_SLOT = slot) then
        (t.modem p).powers = ((List.range 1904).map (fun i =>
          let e := (s.modem p).raw.getD i (0, 0)
          (e.1 * e.1 + e.2 * e.2).toNat) :: (s.modem p).powers).take 64 ∧
        (t.modem p).powersAt = s.clock.cycles
       else t.modem p = { s.modem p with eqCount := 0 } ∧ OnlyRegs [Pg.LINE p + HDR.PAGE_EVENT.off] s t) ∧
      t = { s with regs := t.regs, lineA := t.lineA, lineB := t.lineB, timers := t.timers, capture := t.capture })) ∧
  (∀ (p : Port) (first : Int) (input : List Int) (s : State), (s.modem p).txmonBurst = none →
    Answers (.txmonCaptureDone p first input) s (fun t => t = s)) ∧
  (∀ (p : Port) (first : Int) (input : List Int) (b : Nat × Int × Nat × Nat × TxChain) (s : State), (s.modem p).txmonBurst = some b →
    Answers (.txmonCaptureDone p first input) s (fun t =>
      t.bit (Pg.LINE p) LINE2.TXMON_CAP_BUSY = false ∧ t.modem p = { s.modem p with txmonBurst := none } ∧
      (∀ r, s.recordFor (s.get (Pg.LINE p) LINE2.TXMON_CAP_SLOT) = some r →
        SMap.get (fun _ => none) t.capture.newest (s.get (Pg.LINE p) LINE2.TXMON_CAP_SLOT) = some r ∧
        t.bit (Pg.LINE p) ⟨HDR.PAGE_EVENT.off, 14, 1⟩ = true) ∧
      (s.recordFor (s.get (Pg.LINE p) LINE2.TXMON_CAP_SLOT) = none → t.capture = s.capture) ∧
      t = { s with
          regs := t.regs, lineA := t.lineA, lineB := t.lineB, capture := t.capture }))

/-- R151, R154, R201 to R222: grants taken, drawn, given up, sent and completed. The model's choices in it: log
entries 74, 42 and 43. -/
def Obligations.GrantsAndBursts : Prop :=
  (∀ (p : Port) (s : State), (∀ a ∈ (s.down p).ctrls, a.grant = none) → Answers (.grantMap p) s (fun t => t = s)) ∧
  (∀ (p : Port) (a : CtrlArea) (sec : Nat × Nat) (bs : List Byte) (u s : State),
    s.takeSection p CtrlArea.grant (fun a => { a with grant := none }) = (some (a, sec, some bs), u) →
    Answers (.grantMap p) s (fun t =>
      let n := beNat (bs.take 2)
      let good := decide (n ≤ 511) && decide (bs.length = 8 + 8 * n) &&
        decide (leNat (bs.drop (4 + 8 * n)) = Crypto.crc32 (bs.take (4 + 8 * n)))
      let g := s.mkGrant p a.frame (s.up p).order (beNat ((bs.drop 4).take 8))
      (good = false →
        t.get (Pg.LFR p) LFR1.GMAP_ERR = satAdd32 (s.get (Pg.LFR p) LFR1.GMAP_ERR) 1 ∧
        t.bit (Pg.LFR p) ⟨HDR.PAGE_EVENT.off, 22, 1⟩ = true ∧ t.up p = s.up p) ∧
      (good = true → n = 1 → g.taken = true → (s.up p).store = [] → (s.up p).lastEnd = none →
        match s.grantFate p g (max (a.instant (sec.1 + 4)).1 (a.instant (sec.1 + 11)).1)
          (max (a.instant (sec.1 + 4)).2 (a.instant (sec.1 + 11)).2) with
        | some F => t.get (Pg.LFR p) F = satAdd32 (s.get (Pg.LFR p) F) 1 ∧ (t.up p).store = []
        | none => (s.up p).drawn.length < 256 → (t.up p).store = [g]) ∧
      (t.up p).store.length + (t.up p).drawn.length ≤ max 256 ((s.up p).store.length + (s.up p).drawn.length) ∧
      (t.up p).drawn = (s.up p).drawn ∧
      t = { s with
          regs := t.regs, evtAt := t.evtAt, lineA := t.lineA, lineB := t.lineB })) ∧
  (∀ (src : Source) (p : Port) (slot : Fin 64) (val : Word) (s : State),
    Granted src (Pg.LFR p + (LFR0.ALLOC slot.val).off) true s →
    Answers (.allocInvalidate src p slot val) s (fun t =>
      t.bit (Pg.LFR p) (LFR0.ALLOC_VALID slot.val) = val.getLsbD 31 ∧
      (val.getLsbD 31 = true → t = { s with regs := t.regs } ∧ OnlyRegs [Pg.LFR p + (LFR0.ALLOC slot.val).off] s t) ∧
      (val.getLsbD 31 = false → s.bit (Pg.LFR p) (LFR0.ALLOC_VALID slot.val) = true →
        (t.up p).store = (s.up p).store.filter (fun g => !decide (g.slot = some slot.val)) ∧
        (∀ b ∈ (t.up p).drawn, b.grant.slot ≠ some slot.val) ∧
        SMap.get (fun _ => none) (t.up p).open_ slot.val = none) ∧
        t = { s with
            regs := t.regs, skein := t.skein, lineA := t.lineA, lineB := t.lineB, pcie := t.pcie, timers := t.timers,
            out := t.out, sched := t.sched })) ∧
  (∀ (p : Port) (s : State), (s.up p).store = [] → Answers (.drawClose p) s (fun t => t = s)) ∧
  (∀ (p : Port) (g : Grant) (gs : List Grant) (s : State), (s.up p).store = g :: gs →
    Answers (.drawClose p) s (fun t =>
      (t.up p).store = gs ∧ (t.up p).burst = (s.up p).burst ∧
      (∃ b, (t.up p).drawn = (s.up p).drawn ++ [b] ∧ b.grant = g ∧ b.mgmtMsg = s.mgmtOf p g) ∧
      t = { s with
          regs := t.regs, skein := t.skein, lineA := t.lineA, lineB := t.lineB, pcie := t.pcie, timers := t.timers,
          free := t.free, out := t.out, ciph := t.ciph, sched := t.sched })) ∧
  (∀ (p : Port) (phase : Fin 128) (b : Burst) (bs : List Burst) (s : State), (s.up p).burst = none → (s.up p).drawn = b :: bs →
    Answers (.burstStart p phase) s (fun t =>
      (t.up p).drawn.map Burst.grant = bs.map Burst.grant ∧
      (if s.txInhibited p || s.lineLost p then
        (t.up p).burst = none ∧
        t.get (Pg.LFR p) LFR1.BURST_INHIBITED = satAdd32 (s.get (Pg.LFR p) LFR1.BURST_INHIBITED) 1
      else
        (∃ b', (t.up p).burst = some b' ∧ b'.grant = b.grant ∧ b'.chain = some (s.txChain p b.grant b.payload)) ∧
        t.pin (Pin.ben p) = true ∧
        t.out = s.out ++ [.burst p.num b.grant.s0.toNat (s.txChain p b.grant b.payload)] ∧
        t.get (Pg.LFR p) LFR1.RDI_BURSTS = (if s.rdiNow p then satAdd32 (s.get (Pg.LFR p) LFR1.RDI_BURSTS) 1
          else s.get (Pg.LFR p) LFR1.RDI_BURSTS)) ∧
          t = { s with
              regs := t.regs, pins := t.pins, skein := t.skein, lineA := t.lineA, lineB := t.lineB, pcie := t.pcie,
              timers := t.timers, out := t.out })) ∧
  (∀ (p : Port) (b : Burst) (s : State), (s.up p).burst = some b →
    Answers (.burstComplete p b.grant.order) s (fun t =>
      (t.up p).burst = none ∧ t.pin (Pin.ben p) = false ∧
      t.get (Pg.LINE p) LINE3.DAC_CLIP =
        satAdd32 (s.get (Pg.LINE p) LINE3.DAC_CLIP) ((b.chain.map (fun c => c.clips c.samples)).getD 0) ∧
      t.get64 (Pg.LFR p) LFR1.BURSTS_LO = wrapAdd64 (s.get64 (Pg.LFR p) LFR1.BURSTS_LO) 1 ∧
      t.get64 (Pg.LFR p) LFR1.PAYLOAD_BYTES_LO = wrapAdd64 (s.get64 (Pg.LFR p) LFR1.PAYLOAD_BYTES_LO) b.frameBytes ∧
      t.get64 (Pg.LFR p) LFR1.FRAMES_LO = wrapAdd64 (s.get64 (Pg.LFR p) LFR1.FRAMES_LO) b.frames ∧
      t.get (Pg.LFR p) LFR1.FRAGMENTS = satAdd32 (s.get (Pg.LFR p) LFR1.FRAGMENTS) b.fragments ∧
      t = { s with
          regs := t.regs, clock := t.clock, servo := t.servo, pins := t.pins, skein := t.skein, lineA := t.lineA,
          lineB := t.lineB, pcie := t.pcie, timers := t.timers, free := t.free, out := t.out, ciph := t.ciph,
          sched := t.sched, gauge := t.gauge })) ∧
  (∀ (p : Port) (order : Nat) (s : State), (∀ b, (s.up p).burst = some b → b.grant.order ≠ order) →
    Answers (.burstComplete p order) s (fun t => t = s))

/-! ### Line cast-on and dual homing (chapter 8) -/

/-- R83, R235, R236, R240 to R244: the messages that move a registration, and what each move leaves; a short message
that comes while the port's Hook core moves waits, and one that was served before its command has no second
effect. The model's choices in it: log entries 44, 41, 5 and 35. -/
def Obligations.RegistrationMessages : Prop :=
  (∀ (p : Port) (m : List Byte) (s : State), ShortHeard 1 p m s → s.regSt p = RegSt.listen → s.align p = alLocked →
    (s.rg p).enable = true → s.dualPermits p = true → minLead m ≤ 15 →
    Answers (.treeParams p m) s (fun t =>
      t.regSt p = RegSt.announce ∧ (t.rg p).params = some m ∧
      t.get (Pg.LINE p) LINE1.TX_ENV_LEAD_SYMS = leadOf p m ∧ t.bit (Pg.LFR p) LFR0.US_CTRL_SERVE_DISCOVERY = true ∧
      t.bit (Pg.LFR p) LFR0.US_CTRL_SERVE_DATA = false ∧ (t.up p).announce.isSome = true ∧
      SMap.get noTimer t.timers (Tm.announce p) = some (10 * sec) ∧
      t = { s with
          regs := t.regs, clock := t.clock, servo := t.servo, pins := t.pins, skein := t.skein, lineA := t.lineA,
          lineB := t.lineB, pcie := t.pcie, timers := t.timers, free := t.free, out := t.out, ciph := t.ciph,
          sched := t.sched, gauge := t.gauge })) ∧
  (∀ (p : Port) (m : List Byte) (s : State), ShortHeard 2 p m s → s.regSt p = RegSt.announce →
    (m.drop 4).take 16 = s.serial → msgField m 0x14 2 % 4096 ≠ 0 → msgField m 0x14 2 % 4096 ≠ 0xFFF →
    Answers (.assignAddr p m) s (fun t =>
      t.regSt p = RegSt.range ∧ t.rd (Pg.LFR p + (LFR0.ADDR 0).off) = BitVec.ofNat 32 (2 ^ 31 + msgField m 0x14 2 % 4096) ∧
      t.rd (Pg.LFR p + (LFR0.ALLOC 0).off) = BitVec.ofNat 32 (2 ^ 31 + msgField m 0x16 2 % 2 ^ 14) ∧
      t.get (Pg.LFR p) LFR2.REG_STAT_ADDR = msgField m 0x14 2 % 4096 ∧ t.get (Pg.LFR p) LFR0.US_EQD = 0 ∧
      t.bit (Pg.LFR p) LFR0.US_CTRL_SERVE_RANGING = true ∧ (t.up p).announce = none ∧ (t.up p).rangingResp.isSome = true ∧
      SMap.get noTimer t.timers (Tm.range p) = some (2 * sec) ∧
      t = { s with
          regs := t.regs, clock := t.clock, servo := t.servo, pins := t.pins, skein := t.skein, lineA := t.lineA,
          lineB := t.lineB, pcie := t.pcie, timers := t.timers, free := t.free, out := t.out, ciph := t.ciph,
          sched := t.sched, gauge := t.gauge })) ∧
  (∀ (p : Port) (m : List Byte) (s : State), ShortHeard 3 p m s → NewRequest p m s →
    (s.regSt p = RegSt.range ∨ s.regSt p = RegSt.prove ∨ s.regSt p = RegSt.work) → msgField m 4 4 ≤ 134217727 →
    Answers (.rangingResult p m) s (fun t =>
      t.get (Pg.LFR p) LFR0.US_EQD = msgField m 4 4 ∧ (t.rg p).rtd = some (msgField m 8 8 % 2 ^ 48) ∧
      (t.tport p).rtd = some ((msgField m 8 8 % 2 ^ 48 : Nat) : Int) ∧
      (t.tport p).rtdFrame = (s.down p).count + 1 ∧ Acked p m ackOk s t ∧
      t.regSt p = (if s.regSt p = RegSt.range then
        (if (s.rg p).proveRequired || (s.rg p).keysRequired then RegSt.prove else RegSt.work) else s.regSt p) ∧
      t = { s with
          regs := t.regs, clock := t.clock, servo := t.servo, pins := t.pins, skein := t.skein, lineA := t.lineA,
          lineB := t.lineB, pcie := t.pcie, timers := t.timers, free := t.free, out := t.out, ciph := t.ciph,
          sched := t.sched, gauge := t.gauge })) ∧
  (∀ (p : Port) (m : List Byte) (s : State), ShortHeard 4 p m s → NewRequest p m s → s.assigns p = true →
    s.identitySigns = true →
    Answers (.proveChallenge p m) s (fun t =>
      let sig := s.identitySign ((m.drop 4).take 32 ++ (s.rg p).heId ++ s.serial ++ beBytes 2 (s.get (Pg.LFR p) LFR0.TREE)
        ++ beBytes 2 (s.lineAddr p))
      (∃ seq, (t.up p).tunnelQ = (s.up p).tunnelQ ++
        [tunnelMsg 0xC0 seq (sig ++ beBytes 2 (s.chain.getD []).length ++ s.chain.getD [])]) ∧
      t.regSt p = s.regSt p ∧ t = { s with regs := t.regs, lineA := t.lineA, lineB := t.lineB })) ∧
  (∀ (p : Port) (m : List Byte) (s : State), ShortHeard 5 p m s → NewRequest p m s → s.regSt p = RegSt.prove →
    Answers (.proveResult p m) s (fun t =>
      Acked p m ackOk s t ∧
      (if msgField m 4 1 = 0 then
        (t.rg p).proveOk = true ∧
        t.regSt p = (if (s.rg p).keyed || !(s.rg p).keysRequired then RegSt.work else RegSt.prove)
      else
        t.regSt p = RegSt.listen ∧ (t.rg p).enable = false ∧
        t.get (Pg.LFR p) LFR1.PROVE_FAIL = satAdd32 (s.get (Pg.LFR p) LFR1.PROVE_FAIL) 1) ∧
        t = { s with
            regs := t.regs, clock := t.clock, servo := t.servo, pins := t.pins, skein := t.skein, lineA := t.lineA,
            lineB := t.lineB, pcie := t.pcie, timers := t.timers, free := t.free, out := t.out, ciph := t.ciph,
            sched := t.sched, gauge := t.gauge })) ∧
  (∀ (p : Port) (m : List Byte) (s : State), ShortHeard 11 p m s → s.pastListen p = true →
    Answers (.deregister p m) s (fun t =>
      t.regSt p = RegSt.listen ∧ t.rd (Pg.LFR p + (LFR0.ADDR 0).off) = 0 ∧ t.get (Pg.LFR p) LFR0.US_EQD = 0 ∧
      t.bit (Pg.LFR p) LFR0.US_CTRL_SERVE_DISCOVERY = false ∧ t.bit (Pg.LFR p) LFR0.US_CTRL_SERVE_RANGING = false ∧
      t.bit (Pg.LFR p) LFR0.US_CTRL_SERVE_DATA = false ∧ (t.rg p).keyed = false ∧
      (t.lineKey p 0) = ⟨none, none⟩ ∧ (t.lineKey p 1) = ⟨none, none⟩ ∧
      t = { s with
          regs := t.regs, clock := t.clock, servo := t.servo, pins := t.pins, skein := t.skein, lineA := t.lineA,
          lineB := t.lineB, pcie := t.pcie, timers := t.timers, free := t.free, out := t.out, ciph := t.ciph,
          sched := t.sched, gauge := t.gauge })) ∧
  (∀ (p : Port) (m : List Byte) (s : State), s.coreMoves p = true → m.length = 64 →
    ∀ x ∈ [(Instr.treeParams p (m.set 0 1), m.set 0 1), (.assignAddr p (m.set 0 2), m.set 0 2),
        (.rangingResult p (m.set 0 3), m.set 0 3), (.proveChallenge p (m.set 0 4), m.set 0 4),
        (.proveResult p (m.set 0 5), m.set 0 5), (.profileAssign p (m.set 0 6), m.set 0 6),
        (.allocAssign p (m.set 0 7), m.set 0 7), (.keyUse p (m.set 0 8), m.set 0 8),
        (.msgMute p (m.set 0 9), m.set 0 9), (.msgUnmute p (m.set 0 10), m.set 0 10),
        (.deregister p (m.set 0 11), m.set 0 11), (.msgDoze p (m.set 0 12), m.set 0 12),
        (.msgAck p (m.set 0 13), m.set 0 13)],
      (s.rg p).early.contains x.2 = false →
      Answers x.1 s (fun t =>
        (t.rg p).due = (s.rg p).due ++ [.short x.2] ∧ t = { s with lineA := t.lineA, lineB := t.lineB } ∧
        t.line p = { s.line p with reg := { s.rg p with due := (t.rg p).due } } ∧ t.line p.other = s.line p.other)) ∧
  (∀ (p : Port) (m : List Byte) (s : State), m.length = 64 →
    ∀ x ∈ [(Instr.treeParams p (m.set 0 1), m.set 0 1), (.assignAddr p (m.set 0 2), m.set 0 2),
        (.rangingResult p (m.set 0 3), m.set 0 3), (.proveChallenge p (m.set 0 4), m.set 0 4),
        (.proveResult p (m.set 0 5), m.set 0 5), (.profileAssign p (m.set 0 6), m.set 0 6),
        (.allocAssign p (m.set 0 7), m.set 0 7), (.keyUse p (m.set 0 8), m.set 0 8),
        (.msgMute p (m.set 0 9), m.set 0 9), (.msgUnmute p (m.set 0 10), m.set 0 10),
        (.deregister p (m.set 0 11), m.set 0 11), (.msgDoze p (m.set 0 12), m.set 0 12),
        (.msgAck p (m.set 0 13), m.set 0 13)],
      (s.rg p).early.contains x.2 = true →
      Answers x.1 s (fun t => t = s.setRg p { s.rg p with early := (s.rg p).early.erase x.2 }))

/-- R235, R237 to R239: the registration's timers, which run out after the messages that the Hook core has are
handled, and the return from HOLD when the defects have cleared. The model's choices in it: log entries 44 and
24. -/
def Obligations.RegistrationTimers : Prop :=
  (∀ (p : Port) (s : State), (s.serveWaiting p).running (Tm.announce p) = true →
    Answers (.tAnnounce p) s (fun t =>
      t.regSt p = RegSt.listen ∧ t.running (Tm.announce p) = false ∧
      t.get (Pg.LFR p) LFR1.REG_ABORT = satAdd32 ((s.serveWaiting p).get (Pg.LFR p) LFR1.REG_ABORT) 1 ∧
      t = { s with
          regs := t.regs, security := t.security, clock := t.clock, servo := t.servo, pins := t.pins, skein := t.skein,
          lineA := t.lineA, lineB := t.lineB, pcie := t.pcie, timers := t.timers, free := t.free, out := t.out,
          ciph := t.ciph, sched := t.sched, gauge := t.gauge })) ∧
  (∀ (p : Port) (s : State), (s.serveWaiting p).running (Tm.range p) = true →
    Answers (.tRange p) s (fun t =>
      t.regSt p = RegSt.listen ∧ t.running (Tm.range p) = false ∧
      t.get (Pg.LFR p) LFR1.REG_ABORT = satAdd32 ((s.serveWaiting p).get (Pg.LFR p) LFR1.REG_ABORT) 1 ∧
      t = { s with
          regs := t.regs, security := t.security, clock := t.clock, servo := t.servo, pins := t.pins, skein := t.skein,
          lineA := t.lineA, lineB := t.lineB, pcie := t.pcie, timers := t.timers, free := t.free, out := t.out,
          ciph := t.ciph, sched := t.sched, gauge := t.gauge })) ∧
  (∀ (p : Port) (s : State), (s.serveWaiting p).running (Tm.prove p) = true →
    Answers (.tProve p) s (fun t =>
      t.regSt p = RegSt.listen ∧ t.running (Tm.prove p) = false ∧
      t.get (Pg.LFR p) LFR1.REG_ABORT = satAdd32 ((s.serveWaiting p).get (Pg.LFR p) LFR1.REG_ABORT) 1 ∧
      t = { s with
          regs := t.regs, security := t.security, clock := t.clock, servo := t.servo, pins := t.pins, skein := t.skein,
          lineA := t.lineA, lineB := t.lineB, pcie := t.pcie, timers := t.timers, free := t.free, out := t.out,
          ciph := t.ciph, sched := t.sched, gauge := t.gauge })) ∧
  (∀ (p : Port) (s : State), (s.serveWaiting p).running (Tm.hold p) = true →
    (s.serveWaiting p).regSt p = RegSt.hold → (s.serveWaiting p).coreMoves p = false →
    Answers (.tHold p) s (fun t =>
      let u := s.serveWaiting p
      t.regSt p = RegSt.listen ∧ t.running (Tm.hold p) = false ∧
      t.get (Pg.LFR p) LFR1.HOLD_EXPIRED = satAdd32 (u.get (Pg.LFR p) LFR1.HOLD_EXPIRED) 1 ∧
      t.get (Pg.LFR p) LFR1.REG_ABORT = u.get (Pg.LFR p) LFR1.REG_ABORT ∧
      t = { s with
          regs := t.regs, security := t.security, clock := t.clock, servo := t.servo, pins := t.pins, skein := t.skein,
          lineA := t.lineA, lineB := t.lineB, pcie := t.pcie, timers := t.timers, free := t.free, out := t.out,
          ciph := t.ciph, sched := t.sched, gauge := t.gauge })) ∧
  (∀ (p : Port) (s : State),
    ∀ x ∈ [(Instr.tAnnounce p, Tm.announce p), (.tRange p, Tm.range p), (.tProve p, Tm.prove p), (.tHold p, Tm.hold p)],
      (s.serveWaiting p).running x.2 = false → Answers x.1 s (fun t => t = s.serveWaiting p)) ∧
  (∀ (p : Port) (s : State), s.regSt p = RegSt.hold → s.lineLost p = false →
    s.get (Pg.LFR p) LFR0.TREE = (s.rg p).tree → s.coreMoves p = false →
    Answers (.regDefectClear p) s (fun t =>
      t.regSt p = RegSt.work ∧ t.running (Tm.hold p) = false ∧ t.bit (Pg.LFR p) LFR0.US_CTRL_SERVE_DATA = true ∧
      t.bit (Pg.LFR p) LFR0.US_CTRL_SERVE_RANGING = true ∧
      t = { s with
          regs := t.regs, clock := t.clock, servo := t.servo, pins := t.pins, skein := t.skein, lineA := t.lineA,
          lineB := t.lineB, pcie := t.pcie, timers := t.timers, free := t.free, out := t.out, ciph := t.ciph,
          sched := t.sched, gauge := t.gauge })) ∧
  (∀ (p : Port) (s : State), s.running (Tm.leave p) = true → (s.rg p).leaving = true → s.coreMoves p = false →
    ((s.rg p).bindOff = true ∨ s.regSt p = RegSt.work ∨ s.regSt p = RegSt.hold) →
    Answers (.leaveSlotTimeout p) s (fun t =>
      t.regSt p = (if (s.rg p).bindOff then RegSt.down else RegSt.listen) ∧ (t.rg p).leaving = false ∧
      t.running (Tm.leave p) = false ∧ ((s.rg p).bindOff = true → t.cdr p = cdrFree) ∧
      t = { s with
          regs := t.regs, clock := t.clock, servo := t.servo, pins := t.pins, skein := t.skein, lineA := t.lineA,
          lineB := t.lineB, pcie := t.pcie, timers := t.timers, free := t.free, out := t.out, ciph := t.ciph,
          sched := t.sched, gauge := t.gauge }))

/-- R245 to R248, R231, R249 to R251, R260: profiles and allocations assigned, described, applied and retired; line
keys, mute, line doze, and the messages that firmware repeats. The model's choices in it: log entries 74, 45, 46
and 47. -/
def Obligations.LineMessages : Prop :=
  ((∀ (p : Port) (m : List Byte) (s : State), ShortHeard 6 p m s → NewRequest p m s → s.assigns p = true →
    1 ≤ msgField m 4 1 → msgField m 4 1 ≤ 7 → s.bit (Pg.LFR p) (LFR0.PROF_GEN_CUR_VALID (msgField m 4 1 - 1)) = true →
    s.get (Pg.LFR p) (LFR0.PROF_GEN_CURRENT (msgField m 4 1 - 1)) = msgField m 5 1 →
    Answers (.profileAssign p m) s (fun t =>
      Acked p m ackOk s t ∧ (t.rg p).assigned = msgField m 4 1 ∧
      t.get (Pg.LFR p) LFR0.DS_CTRL_PROF_EN = (s.get (Pg.LFR p) LFR0.DS_CTRL_PROF_EN ||| 2 ^ msgField m 4 1) ∧
      t = { s with regs := t.regs, lineA := t.lineA, lineB := t.lineB })) ∧
  (∀ (p : Port) (s : State),
    Answers (.profileRetire p) s (fun t =>
      (t.rg p).retire = (s.rg p).retire.filter (fun x => decide (x.2 ≠ 0)) ∧
      (∀ k, k < 8 → (t.get (Pg.LFR p) LFR0.DS_CTRL_PROF_EN).testBit k =
        ((s.get (Pg.LFR p) LFR0.DS_CTRL_PROF_EN).testBit k &&
          !((s.rg p).retire.any (fun x => decide (x.2 = 0) && decide (x.1 = k))))) ∧
      OnlyRegs [Pg.LFR p + LFR0.DS_CTRL_PROF_EN.off] s t ∧
      t = { s with
          regs := t.regs, lineA := t.lineA, lineB := t.lineB })) ∧
  (∀ (p : Port) (m : List Byte) (s : State), ShortHeard 7 p m s → NewRequest p m s → s.assigns p = true →
    msgField m 4 1 ≤ 63 → (msgField m 4 1 = 0 → msgField m 6 2 % 2 ^ 14 = (s.rg p).mgmtAlloc) →
    Answers (.allocAssign p m) s (fun t =>
      Acked p m ackOk s t ∧
      (if msgField m 5 1 % 2 = 1 then t.bit (Pg.LFR p) (LFR0.ALLOC_VALID (msgField m 4 1)) = false
       else t.rd (Pg.LFR p + (LFR0.ALLOC (msgField m 4 1)).off) = BitVec.ofNat 32 (2 ^ 31 + msgField m 6 2 % 2 ^ 14) ∧
         SMap.get (fun _ => (0, 0)) (t.rg p).assured (msgField m 4 1) =
           (if msgField m 8 4 = 0 then (0, 0) else (msgField m 8 4, msgField m 0xC 2))) ∧
           t = { s with
               regs := t.regs, skein := t.skein, lineA := t.lineA, lineB := t.lineB, pcie := t.pcie, timers := t.timers,
               out := t.out, sched := t.sched })) ∧
  (∀ (p : Port) (m : List Byte) (s : State), TunnelHeard 0x40 p m s → NewRequest p m s → 958 ≤ m.length →
    1 ≤ msgField m 4 1 → msgField m 4 1 ≤ 7 → (∀ x ∈ nibbles ((m.drop 6).take 952), x ≤ 10) →
    (nibbles ((m.drop 6).take 952)).sum ≤ 9520 →
    Answers (.dsProfileDesc p m) s (fun t =>
      Acked p m ackOk s t ∧
      t.heldDesc p (msgField m 4 1) (msgField m 5 1) =
        some ⟨msgField m 4 1, msgField m 5 1, nibbles ((m.drop 6).take 952), none⟩ ∧
        t = { s with
            regs := t.regs, lineA := t.lineA, lineB := t.lineB })) ∧
  (∀ (p : Port) (m : List Byte) (s : State), TunnelHeard 0x41 p m s → NewRequest p m s → msgField m 4 1 ≤ 3 →
    msgField m 5 1 = 0 → 456 ≤ m.length → (∀ x ∈ nibbles ((m.drop 6).take 450), x ≤ 8) →
    (nibbles ((m.drop 6).take 450)).sum ≤ 3380 →
    Answers (.usProfileDesc p m) s (fun t =>
      (t.rg p).usPend = (s.rg p).usPend ++
        [(⟨msgField m 4 1, 0, nibbles ((m.drop 6).take 450), none⟩, msgField m 1 1)] ∧
      t.bit (Pg.LFR p) (LFR0.US_BPROF_VALID (msgField m 4 1)) = false ∧ (t.up p).mgmtQ = (s.up p).mgmtQ ∧
      t = { s with regs := t.regs, lineA := t.lineA, lineB := t.lineB })) ∧
  (∀ (p : Port) (d : Desc) (seq : Nat) (s : State),
    (s.rg p).usPend.find? (fun x => !s.profNamed p x.1.profile) = some (d, seq) → d.profile ≤ 3 →
    Answers (.usProfileApply p) s (fun t =>
      (t.rg p).usPend = (s.rg p).usPend.erase (d, seq) ∧ t.bit (Pg.LFR p) (LFR0.US_BPROF_VALID d.profile) = true ∧
      Acked p [0x41, BitVec.ofNat 8 seq] ackOk s t ∧ t = { s with regs := t.regs, lineA := t.lineA, lineB := t.lineB })) ∧
  (∀ (p : Port) (m : List Byte) (s : State), TunnelHeard 0x42 p m s → msgField m 4 1 ≤ 3 → 906 ≤ m.length →
    Answers (.distortionReport p m) s (fun t =>
      let errors := (m.drop 6).take 900
      let load := proposal 8 3380 (s.rg p).margin ((List.range 900).map (Config.upstreamSnr errors))
      SMap.get (fun _ => []) (t.rg p).distortion (msgField m 4 1) = errors ∧
      (if (s.modem p).proposed.2 = load then t.regs = s.regs ∧ t.modem p = s.modem p ∧ t.up p = s.up p
       else t.modem p = { s.modem p with proposed := ((s.modem p).proposed.1, load) } ∧
         (∃ seq, (t.up p).tunnelQ = (s.up p).tunnelQ ++ [tunnelMsg 0xC2 seq ([1, 0] ++ packNibbles load)])) ∧
      t = { s with regs := t.regs, lineA := t.lineA, lineB := t.lineB, timers := t.timers }))) ∧
  ((∀ (p : Port) (m : List Byte) (s : State), TunnelHeard 0x43 p m s → NewRequest p m s → msgField m 4 1 ≤ 1 →
    0x5D ≤ m.length → s.bit Pg.SEC SEC0.RNG_STAT_DRBG_ERROR = false → s.identitySigns = true →
    Answers (.keyOffer p m) s (fun t =>
      (t.rg p).keyed = true ∧ t.bit (Pg.LFR p) LFR2.REG_STAT_KEYED = true ∧
      (t.lineKey p (msgField m 4 1)).down.isSome = true ∧ (t.lineKey p (msgField m 4 1)).up.isSome = true ∧
      t.get (Pg.LFR p) LFR1.KEY_EXCHANGES = satAdd32 (s.get (Pg.LFR p) LFR1.KEY_EXCHANGES) 1 ∧
      (∃ seq body, (t.up p).tunnelQ = (s.up p).tunnelQ ++ [tunnelMsg 0xC1 seq body]) ∧
      t = { s with
          regs := t.regs, security := t.security, clock := t.clock, servo := t.servo, pins := t.pins, skein := t.skein,
          lineA := t.lineA, lineB := t.lineB, pcie := t.pcie, timers := t.timers, free := t.free, out := t.out,
          ciph := t.ciph, sched := t.sched, gauge := t.gauge })) ∧
  (∀ (p : Port) (m : List Byte) (s : State), ShortHeard 8 p m s → NewRequest p m s → msgField m 4 1 ≤ 1 →
    s.assigns p = true → (s.lineKey p (msgField m 4 1)).up.isSome = true →
    Answers (.keyUse p m) s (fun t =>
      (t.rg p).keyUse = some (msgField m 4 1, msgField m 8 4) ∧ Acked p m ackOk s t ∧ t.ciph = s.ciph ∧
      t = { s with
          regs := t.regs, lineA := t.lineA, lineB := t.lineB })) ∧
  (∀ (p : Port) (m : List Byte) (s : State), ShortHeard 9 p m s → NewRequest p m s → s.regSt p ≠ RegSt.mute →
    Answers (.msgMute p m) s (fun t =>
      t.regSt p = RegSt.mute ∧ (t.rg p).muteRemote = some (s.get (Pg.LFR p) LFR0.TREE) ∧
      t.bit (Pg.LFR p) LFR2.REG_STAT_MUTE_REMOTE = true ∧ t.bit (Pg.LINE p) LINE1.TX_CTRL_LASER_EN = false ∧
      t.bit (Pg.LFR p) ⟨HDR.PAGE_EVENT.off, 28, 1⟩ = true ∧
      t = { s with
          regs := t.regs, clock := t.clock, servo := t.servo, pins := t.pins, skein := t.skein, lineA := t.lineA,
          lineB := t.lineB, pcie := t.pcie, timers := t.timers, free := t.free, out := t.out, ciph := t.ciph,
          sched := t.sched, gauge := t.gauge })) ∧
  (∀ (p : Port) (m : List Byte) (s : State), ShortHeard 10 p m s → NewRequest p m s → s.regSt p = RegSt.mute →
    (s.rg p).muteRemote = some (s.get (Pg.LFR p) LFR0.TREE) → (s.rg p).muteLocal = false →
    Answers (.msgUnmute p m) s (fun t =>
      t.regSt p = RegSt.listen ∧ (t.rg p).muteRemote = none ∧ t.bit (Pg.LFR p) LFR2.REG_STAT_MUTE_REMOTE = false ∧
      t = { s with
          regs := t.regs, clock := t.clock, servo := t.servo, pins := t.pins, skein := t.skein, lineA := t.lineA,
          lineB := t.lineB, pcie := t.pcie, timers := t.timers, free := t.free, out := t.out, ciph := t.ciph,
          sched := t.sched, gauge := t.gauge })) ∧
  (∀ (p : Port) (m : List Byte) (tree : Nat) (s : State), ShortHeard 10 p m s → NewRequest p m s →
    (s.rg p).muteRemote = some tree → tree ≠ s.get (Pg.LFR p) LFR0.TREE →
    Answers (.msgUnmute p m) s (fun t =>
      Acked p m ackRefused s t ∧ t.regSt p = s.regSt p ∧ (t.rg p).muteRemote = some tree)) ∧
  (∀ (p : Port) (m : List Byte) (s : State), ShortHeard 12 p m s → NewRequest p m s → msgField m 4 1 = 0 →
    (s.rg p).unsol.any (fun u => decide (u.type = 0x84) && decide (u.seq = msgField m 5 1)) = true →
    (s.rg p).dozeEnd = false → s.regSt p = RegSt.work →
    Answers (.msgDoze p m) s (fun t =>
      (t.rg p).doze = true ∧ (t.rg p).dozeAsked = false ∧ (t.rg p).dozePeriod = msgField m 6 2 ∧
      t.bit (Pg.LFR p) LFR2.REG_STAT_DOZE = true ∧ Acked p m ackOk s t ∧
      t = { s with
          regs := t.regs, lineA := t.lineA, lineB := t.lineB, timers := t.timers })) ∧
  (∀ (p : Port) (m : List Byte) (s : State), ShortHeard 12 p m s → NewRequest p m s → msgField m 4 1 = 2 →
    Answers (.msgDoze p m) s (fun t =>
      (t.rg p).doze = false ∧ (t.rg p).dozeAsked = false ∧ t.bit (Pg.LFR p) LFR2.REG_STAT_DOZE = false ∧
      Acked p m ackOk s t)) ∧
  (∀ (p : Port) (m : List Byte) (s : State), ShortHeard 13 p m s →
    Answers (.msgAck p m) s (fun t =>
      (if msgField m 4 1 = 0x84 then
        (t.rg p).unsol = (s.rg p).unsol ∧ (t.rg p).doze = (s.rg p).doze ∧
        (t.rg p).dozeAsked = ((s.rg p).dozeAsked && !((s.rg p).dozeEnd && decide (msgField m 5 1 = (s.rg p).dozeSeq)))
       else (t.rg p).unsol = (s.rg p).unsol.filter (fun u =>
        !(decide (u.type = msgField m 4 1) && decide (u.seq = msgField m 5 1)))) ∧ t.regs = s.regs ∧
        t = { s with
            lineA := t.lineA, lineB := t.lineB, timers := t.timers })) ∧
  (∀ (p : Port) (s : State), s.running (Tm.resend p) = true →
    Answers (.unsolicitedResend p) s (fun t =>
      (t.rg p).unsol = ((s.rg p).unsol.filter (fun u => decide (u.sends < 8))).map (fun u => { u with sends := u.sends + 1 }) ∧
      t.get (Pg.LFR p) LFR1.MGMT_NOACK =
        satAdd32 (s.get (Pg.LFR p) LFR1.MGMT_NOACK) ((s.rg p).unsol.filter (fun u => decide (8 ≤ u.sends))).length ∧
      t = { s with regs := t.regs, lineA := t.lineA, lineB := t.lineB, timers := t.timers })) ∧
  (∀ (p : Port) (s : State), (s.rg p).doze = true → s.portBacklog p = true →
    Answers (.lineDozeBacklog p) s (fun t =>
      (t.rg p).doze = false ∧ (t.rg p).dozeAsked = true ∧ (t.rg p).dozeEnd = true ∧
      t.bit (Pg.LFR p) LFR2.REG_STAT_DOZE = false ∧ (∃ seq, (t.up p).mgmtQ = shortMsg 0x84 seq (s.lineAddr p) [1] :: (s.up p).mgmtQ) ∧
      SMap.get noTimer t.timers (Tm.resend p) = some (50 * ms) ∧
      t = { s with
          regs := t.regs, lineA := t.lineA, lineB := t.lineB, timers := t.timers })) ∧
  (∀ (p : Port) (pl : List Byte) (rest : List (Nat × List Byte)) (s : State), (s.down p).tunnelIn = (0, pl) :: rest →
    s.assigns p = true → 8 ≤ pl.length → msgField pl 2 2 ≤ pl.length - 8 → 0x40 ≤ msgField pl 0 1 → msgField pl 0 1 ≤ 0x43 →
    Answers (.tunnelMessage p) s (fun t =>
      (t.down p).tunnelIn = rest ∧ (t.down p).mgmtIn = (s.down p).mgmtIn ++ [pl.take (4 + msgField pl 2 2)] ∧
      t.regs = s.regs ∧ t = { s with lineA := t.lineA, lineB := t.lineB })) ∧
  (∀ (p : Port) (pl : List Byte) (rest : List (Nat × List Byte)) (s : State), (s.down p).tunnelIn = (0, pl) :: rest →
    (pl.length < 8 ∨ pl.length - 8 < msgField pl 2 2 ∨ msgField pl 0 1 < 0x40 ∨ 0x43 < msgField pl 0 1) →
    Answers (.tunnelMessage p) s (fun t =>
      (t.down p).tunnelIn = rest ∧ (t.down p).mgmtIn = (s.down p).mgmtIn ∧
      t.get (Pg.LFR p) LFR1.MGMT_ERR = satAdd32 (s.get (Pg.LFR p) LFR1.MGMT_ERR) 1 ∧
      OnlyRegs [Pg.LFR p + LFR1.MGMT_ERR.off] s t ∧ t = { s with regs := t.regs, lineA := t.lineA, lineB := t.lineB })) ∧
  (∀ (p : Port) (port : Nat) (pl : List Byte) (rest : List (Nat × List Byte)) (s : State),
    (s.down p).tunnelIn = (port, pl) :: rest → port ≠ 0 →
    Answers (.tunnelMessage p) s (fun t => t = s.setDown p { s.down p with tunnelIn := rest })))

/-- R251, R252, R255, R261, R262: the mailbox commands of the line ports. The model's choices in it: log entries 48
and 41. -/
def Obligations.LineMailboxCommands : Prop :=
  (∀ (ch : Chan) (tag : Byte) (args : List Word) (s : State), MbxOpen ch s →
    (argWord args 1 / 2 % 2 = 1 → s.feat 14 = true) →
    (s.gen1 (argPort args) = decide (argWord args 1 / 2 % 2 = 1) ∨ s.fnIs (.line (argPort args)) .off = true) →
    Answers (.lineConfig ch tag args) s (fun t =>
      MbxReply ch tag Sts.ok [] t ∧ t.gen1 (argPort args) = decide (argWord args 1 / 2 % 2 = 1) ∧
      (t.rg (argPort args)).margin = argWord args 1 / 2 ^ 8 % 256 ∧ (t.rg (argPort args)).holdMs = argWord args 2 % 2 ^ 16 ∧
      t = { s with regs := t.regs, lineA := t.lineA, lineB := t.lineB } ∧
      OnlyPages [Pg.HOOK ch, Pg.LFR (argPort args)] s t)) ∧
  (∀ (ch : Chan) (tag : Byte) (args : List Word) (s : State), MbxOpen ch s → s.dualPermits (argPort args) = true →
    s.coreMoves (argPort args) = false →
    Answers (.lineCastOn ch tag args) s (fun t =>
      MbxReply ch tag Sts.ok [] t ∧ (t.rg (argPort args)).enable = decide (argWord args 1 / 2 ^ 8 % 2 = 1) ∧
      ((t.rg (argPort args)).enable = false →
        (t.rg (argPort args)).leaving = true ∨ t.pastListen (argPort args) = false))) ∧
  (∀ (ch : Chan) (tag : Byte) (args : List Word) (s : State), MbxOpen ch s → argWord args 1 / 2 ^ 8 % 2 = 0 →
    Answers (.lineStatus ch tag args) s (fun t =>
      let p := argPort args
      (∃ w5 w6 he0 he1 : Word, ∃ w1 : Nat, w1 % 8 = s.regSt p ∧
        w1 / 2 ^ 5 % 2 = (if (s.rg p).muteRemote.isSome then 1 else 0) ∧ w1 / 2 ^ 6 % 2 = (if (s.rg p).muteLocal then 1 else 0) ∧
        MbxReply ch tag Sts.ok [BitVec.ofNat 32 w1, BitVec.ofNat 32 (s.get (Pg.LFR p) LFR0.US_EQD),
          BitVec.ofNat 32 ((s.rg p).rtd.getD 0), BitVec.ofNat 32 ((s.rg p).rtd.getD 0 / 2 ^ 32 % 2 ^ 16), w5, w6, he0, he1] t) ∧
      t = { s with regs := t.regs } ∧ OnlyPages [Pg.HOOK ch] s t)) ∧
  (∀ (ch : Chan) (tag : Byte) (args : List Word) (s : State), MbxOpen ch s →
    (argWord args 1 / 2 ^ 9 % 2 = 1 → ch = .ch0) → s.coreMoves (argPort args) = false →
    Answers (.lineMute ch tag args) s (fun t =>
      MbxReply ch tag Sts.ok [] t ∧ (t.rg (argPort args)).muteLocal = decide (argWord args 1 / 2 ^ 8 % 2 = 1) ∧
      (argWord args 1 / 2 ^ 9 % 2 = 1 → (t.rg (argPort args)).muteRemote = none) ∧
      ((t.rg (argPort args)).muteLocal = true → (s.serveWaiting (argPort args)).regSt (argPort args) ≠ RegSt.down →
        t.regSt (argPort args) = RegSt.mute))) ∧
  (∀ (ch : Chan) (tag : Byte) (args : List Word) (s : State), MbxOpen ch s → argWord args 1 % 4 ≠ 3 →
    argWord args 2 / 2 ^ 24 % 16 ≠ 0 → (argWord args 1 % 4 ≠ 0 → s.feat 4 = true) → s.pastListen .portA = false →
    s.pastListen .portB = false →
    Answers (.dualhomeConfig ch tag args) s (fun t =>
      MbxReply ch tag Sts.ok [] t ∧ t.dual.mode = argWord args 1 % 4 ∧
      t.dual.primary = Port.ofNum (argWord args 1 / 16 % 2) ∧ t.dual.working = t.dual.primary ∧
      t.dual.revertive = decide (argWord args 1 / 32 % 2 = 1) ∧ t.dual.wtrS = argWord args 2 % 2 ^ 16 ∧
      t.dual.holdoff = argWord args 2 / 2 ^ 16 % 256 ∧ t.dual.persist = argWord args 2 / 2 ^ 24 % 16 ∧
      t = { s with regs := t.regs, dual := t.dual, timers := t.timers, sched := t.sched } ∧
      OnlyPages [Pg.HOOK ch, Pg.LFR .portA + 0x2000, Pg.LFR .portB + 0x2000] s t)) ∧
  (∀ (ch : Chan) (tag : Byte) (args : List Word) (s : State), MbxOpen ch s → s.dual.mode = 2 → argWord args 1 % 16 ≤ 3 →
    Answers (.apsCommand ch tag args) s (fun t =>
      MbxReply ch tag Sts.ok [] t ∧
      t.dual = { s.dual with cmd := (argWord args 1 % 16, Port.ofNum (argWord args 1 / 16 % 2)) } ∧
      t = { s with regs := t.regs, dual := t.dual } ∧ OnlyPages [Pg.HOOK ch] s t))

/-- R255 to R257: A local signal fail on the working port, with nothing that outranks it, selects the other port, at
once or after HOLDOFF; the switch moves the working role. The model's choices in it: log entry 49. -/
def Obligations.ProtectionSwitching : Prop :=
  (∀ s : State, s.dual.mode = 2 → s.dual.cmd.1 = 0 → s.dual.wtrDone = false → s.headReq .portA = [] → s.headReq .portB = [] →
    s.localSf s.dual.working = true → s.localSf s.dual.working.other = false →
    Answers .apsEvaluation s (fun t =>
      t.get (Pg.LFR .portA) LFR2.REG_STAT_REQUEST = 3 ∧ t.get (Pg.LFR .portB) LFR2.REG_STAT_REQUEST = 3 ∧
      t.dual.working = s.dual.working ∧
      (if s.dual.holdoff = 0 then t.dual.switchTo = some s.dual.working.other ∧ t.running Tm.holdoff = false
       else t.running Tm.holdoff = true) ∧
       t = { s with
           regs := t.regs, lineA := t.lineA, lineB := t.lineB, dual := t.dual, timers := t.timers })) ∧
  (∀ s : State, s.running Tm.holdoff = true → s.localSf s.dual.working = true →
    (s.apsReqs.filter (fun r => decide (r.1 = topRank s.apsReqs))) ≠ [] →
    (∀ r ∈ s.apsReqs, r.1 = topRank s.apsReqs → r.2.1 = s.dual.working.other) →
    Answers .holdoffExpiry s (fun t =>
      t.dual = { s.dual with switchTo := some s.dual.working.other } ∧ t.running Tm.holdoff = false ∧
      t = { s with dual := t.dual, timers := t.timers })) ∧
  (∀ (p : Port) (s : State), s.dual.switchTo = some p →
    Answers .apsSwitch s (fun t =>
      t.dual.working = p ∧ t.dual.switchTo = none ∧
      t.get (Pg.LFR .portA) LFR1.APS_SWITCHES = satAdd32 (s.get (Pg.LFR .portA) LFR1.APS_SWITCHES) 1 ∧
      t.get (Pg.LFR .portB) LFR1.APS_SWITCHES = satAdd32 (s.get (Pg.LFR .portB) LFR1.APS_SWITCHES) 1 ∧
      t.bit (Pg.LFR .portA) ⟨HDR.PAGE_EVENT.off, 26, 1⟩ = true ∧ t.bit (Pg.LFR .portB) ⟨HDR.PAGE_EVENT.off, 26, 1⟩ = true ∧
      (∀ i, i < 64 → SMap.get (fun _ => none) (t.up p.other).open_ i = none) ∧
      t = { s with
          regs := t.regs, lineA := t.lineA, lineB := t.lineB, dual := t.dual, timers := t.timers, sched := t.sched })) ∧
  (∀ s : State, s.running Tm.wtr = true →
    Answers .wtrExpiry s (fun t =>
      t.dual = { s.dual with wtrDone := true } ∧ t.running Tm.wtr = false ∧
      t = { s with dual := t.dual, timers := t.timers }))

/-! ### Needle engines (chapter 6) and their kernels -/

/-- R169 to R174, R178 to R181, R185: an instruction that moves, loads, stores or computes in 16 bits completes with
its result, its flags and its cycles; a shift by 0 leaves C open, one by more than 15 the result too. The
model's choices in it: log entries 50 and 51. -/
def Obligations.NeedleMovesAndArithmetic : Prop :=
  (∀ (n : Fin 8) (r q : NReg) (v : BitVec 16) (w : BitVec 24) (pd ps mk : Fin 8) (d g : Fin 16) (a : Fin 4) (s : State),
    s.ndlRuns n = true →
    let h := accRound (s.acc n a)
    let m := sat16 ((s.nd n g).toInt.natAbs : Int)
    let b : BitVec 16 := BitVec.ofNat 16 (signBits (s.eng n).ac[a])
    ∀ x ∈ [(Instr.ndlLdi n r v, 1, ([] : List (Fin 4)), s.setNreg n r (ldiValue r v)),
        (.ndlLdil n r w, 2, [], s.setNreg n r w.toNat), (.ndlMov n r q, 1, [], s.setNreg n r (movValue r q (s.nreg n q))),
        (.ndlLea n pd ps mk, 1, [], s.setPtr n pd (s.ptr n ps + (s.eng n).m[mk])),
        (.ndlStah n d a, 1, [a], (s.setNd n d h.1).setSat n h.2),
        (.ndlAbs n d g, 1, [], ((s.setNd n d m.1).setZN n m.1).setSat n m.2),
        (.ndlNorm n d a, 1, [a], (s.setNd n d b).setZ n (decide (b = 0)))],
      Answers x.1 s (NDid n (x.2.1 + nstall n x.2.2.1 s) [] x.2.2.2 s)) ∧
  (∀ (n : Fin 8) (d q : Fin 16) (x : NX) (v : BitVec 16) (u s : State), s.ndlRuns n = true → s.nx n x = .ok (v, u) →
    let a := s.nd n q
    (∀ y ∈ [(Instr.ndlAdd n d q x, a + v, carryOf a v), (.ndlSub n d q x, a - v, borrowC a v),
        (.ndlAnd n d q x, a &&& v, (s.eng n).c), (.ndlOr n d q x, a ||| v, (s.eng n).c),
        (.ndlXor n d q x, a ^^^ v, (s.eng n).c)],
      Answers y.1 s (NDid n 1 [] (u.setEng n { (u.setNd n d y.2.1).eng n with
        z := decide (y.2.1 = 0), n := y.2.1.msb, c := y.2.2 }) s)) ∧
    (∀ y ∈ [(Instr.ndlAdds n d q x, sat16 (a.toInt + v.toInt)), (.ndlSubs n d q x, sat16 (a.toInt - v.toInt))],
      Answers y.1 s (NDid n 1 [] ((u.setEng n { (u.setNd n d y.2.1).eng n with
        z := decide (y.2.1 = 0), n := y.2.1.msb }).setSat n y.2.2) s)) ∧
    Answers (.ndlCmp n q x) s (NDid n 1 [] (u.setEng n { u.eng n with
      z := decide (a = v), n := (a - v).msb, c := borrowC a v }) s)) ∧
  (∀ (n : Fin 8) (d q : Fin 16) (k : NShift) (s : State), s.ndlRuns n = true →
    let a := s.nd n q
    let i := s.nshift n k
    ∀ y ∈ [(Instr.ndlShl n d q k, a <<< i, a.getLsbD (16 - i)), (.ndlShr n d q k, a.sshiftRight i, a.getLsbD (i - 1)),
        (.ndlShrl n d q k, a >>> i, a.getLsbD (i - 1))],
      Answers y.1 s (fun t =>
        ∃ (r : BitVec 16) (c : Bool),
          NDid n 1 [] { s.setEng n { (s.setNd n d r).eng n with z := decide (r = 0), n := r.msb, c := c } with
            free := if i = 0 ∨ 15 < i then s.free + 1 else s.free } s t ∧
          (i ≤ 15 → r = y.2.1) ∧ (1 ≤ i → i ≤ 15 → c = y.2.2))) ∧
  (∀ (n : Fin 8) (d v : Fin 16) (e : NEa) (w : BitVec 16) (u s : State), s.ndlRuns n = true → s.nmem n e = .ok (w, u) →
    ∀ x ∈ [(Instr.ndlLd n d e, u.setNd n d w), (.ndlImin n v d e, u.search n v d w true),
        (.ndlImax n v d e, u.search n v d w false)],
      Answers x.1 s (NDid n 1 [] x.2 s)) ∧
  (∀ (n : Fin 8) (d v : Fin 16) (e : NEa) (a : Fin 4) (lo hi : BitVec 16) (u s : State), s.ndlRuns n = true →
    s.npair n e = .ok (lo, hi, u) →
    (d.val % 2 = 0 → Answers (.ndlLdp n d e) s (NDid n 1 [] ((u.setNd n d lo).setNd n (odd d) hi) s)) ∧
    Answers (.ndlLda n a e) s (NDid n 1 [a] (u.setAcc n a (hi ++ lo).toInt) s) ∧
    Answers (.ndlImin2 n v d e) s (NDid n 1 [] ((u.search n v d lo true).search n v d hi true) s) ∧
    Answers (.ndlImax2 n v d e) s (NDid n 1 [] ((u.search n v d lo false).search n v d hi false) s)) ∧
  (∀ (n : Fin 8) (d : Fin 16) (e : NEa) (a : Fin 4) (s : State), s.ndlRuns n = true →
    (∀ u, s.nstore n e (s.nd n d) = .ok u → Answers (.ndlSt n e d) s (NDid n 1 [] u s)) ∧
    (∀ u, s.nstore n e (accRound (s.acc n a)).1 = .ok u →
      Answers (.ndlSth n e a) s (NDid n (1 + nstall n [a] s) [] (u.setSat n (accRound (s.acc n a)).2) s)) ∧
    (∀ u, d.val % 2 = 0 → s.nstorePair n e (s.nd n d) (s.nd n (odd d)) = .ok u →
      Answers (.ndlStp n e d) s (NDid n 1 [] u s)) ∧
    (∀ u, s.nstorePair n e (sat32 (s.acc n a)).1 (sat32 (s.acc n a)).2.1 = .ok u →
      Answers (.ndlStl n e a) s (NDid n (1 + nstall n [a] s) [] (u.setSat n (sat32 (s.acc n a)).2.2) s))) ∧
  (∀ (n : Fin 8) (d q v : Fin 16) (e : NEa) (code : Nat) (s : State), s.ndlRuns n = true → s.nmem n e = .error code →
    ∀ c ∈ [Instr.ndlLd n d e, .ndlImin n v d e, .ndlImax n v d e, .ndlAdd n d q (.mem e), .ndlSub n d q (.mem e),
        .ndlAdds n d q (.mem e), .ndlSubs n d q (.mem e), .ndlAnd n d q (.mem e), .ndlOr n d q (.mem e),
        .ndlXor n d q (.mem e), .ndlCmp n q (.mem e)],
      Answers c s (NFaulted n code s)) ∧
  (∀ (n : Fin 8) (d : Fin 16) (e : NEa) (s : State), s.ndlRuns n = true → d.val % 2 = 1 →
    ∀ c ∈ [Instr.ndlLdp n d e, .ndlStp n e d], Answers c s (NFaulted n 0x81 s))

/-- R171 to R173, R177, R180, R181: multiplies, accumulator arithmetic, division steps and the search index. The
model's choices in it: log entries 50 and 51. -/
def Obligations.NeedleAccumulatorsAndSearch : Prop :=
  (∀ (n : Fin 8) (a : Fin 4) (x : NX) (y : Fin 16) (v : BitVec 16) (u s : State), s.ndlRuns n = true →
    s.nx n x = .ok (v, u) →
    ∀ z ∈ [(Instr.ndlMpy n a x y, ([] : List (Fin 4)), prodF v (s.nd n y)), (.ndlMpyi n a x y, [], prodI v (s.nd n y)),
        (.ndlMac n a x y, [a], s.acc n a + prodF v (s.nd n y)), (.ndlMsu n a x y, [a], s.acc n a - prodF v (s.nd n y))],
      Answers z.1 s (NDid n (1 + nstall n z.2.1 s) [a] (u.putAcc n a z.2.2) s)) ∧
  (∀ (n : Fin 8) (a : Fin 4) (e f : NEa) (v w : BitVec 16) (u u' s : State), s.ndlRuns n = true →
    s.nmem n e = .ok (v, u) → u.nmem n f = .ok (w, u') →
    Answers (.ndlMacd n a e f) s (NDid n (1 + (if s.sameMem u n (.mem e) (.mem f) then 1 else 0) + nstall n [a] s) [a]
      (u'.putAcc n a (s.acc n a + prodF v w)) s)) ∧
  (∀ (n : Fin 8) (a : Fin 4) (x y : NX) (xr xi yr yi : BitVec 16) (u u' s : State), s.ndlRuns n = true → a.val % 2 = 0 →
    s.nxp n x = .ok (xr, xi, u) → u.nxp n y = .ok (yr, yi, u') →
    ∀ z ∈ [(Instr.ndlCmac n a x y, prodF xr yr - prodF xi yi, prodF xr yi + prodF xi yr),
        (.ndlCmacj n a x y, prodF xr yr + prodF xi yi, prodF xi yr - prodF xr yi)],
      Answers z.1 s (NDid n (1 + (if s.sameMem u n x y then 1 else 0) + nstall n [a, accOdd a] s) [a, accOdd a]
        ((u'.putAcc n a (s.acc n a + z.2.1)).putAcc n (accOdd a) (s.acc n (accOdd a) + z.2.2)) s)) ∧
  (∀ (n : Fin 8) (a : Fin 4) (x : NX) (xr xi : BitVec 16) (u s : State), s.ndlRuns n = true → s.nxp n x = .ok (xr, xi, u) →
    Answers (.ndlPwr n a x) s (NDid n 1 [a] (u.putAcc n a (prodF xr xr + prodF xi xi)) s) ∧
    Answers (.ndlPwra n a x) s (NDid n (1 + nstall n [a] s) [a]
      (u.putAcc n a (s.acc n a + (prodF xr xr + prodF xi xi))) s)) ∧
  (∀ (n : Fin 8) (a b : Fin 4) (v : BitVec 16) (s : State), s.ndlRuns n = true →
    ∀ z ∈ [(Instr.ndlAdda n a b, [a, b], [a], s.putAcc n a (s.acc n a + s.acc n b)),
        (.ndlSuba n a b, [a, b], [a], s.putAcc n a (s.acc n a - s.acc n b)),
        (.ndlNega n a, [a], [a], s.putAcc n a (-(s.acc n a))), (.ndlClra n a, [], [a], s.setAcc n a 0),
        (.ndlSetix n v, [], [], s.setNreg n .ix v.toNat)],
      Answers z.1 s (NDid n (1 + nstall n z.2.1 s) z.2.2.1 z.2.2.2 s)) ∧
  (∀ (n : Fin 8) (a : Fin 4) (k : Int) (s : State), s.ndlRuns n = true →
    (-16 ≤ k → k ≤ 16 → Answers (.ndlSha n a k) s (NDid n (1 + nstall n [a] s) [a]
      (s.putAcc n a (if 0 ≤ k then s.acc n a * 2 ^ k.toNat else s.acc n a / 2 ^ (-k).toNat)) s)) ∧
    ((k < -16 ∨ 16 < k) → Answers (.ndlSha n a k) s (NFaulted n 0x81 s))) ∧
  (∀ (n : Fin 8) (d q : Fin 16) (s : State), s.ndlRuns n = true →
    Answers (.ndlDivs n d q) s (fun t =>
      ∃ c : Bool,
        NDid n (1 + nstall n [0] s) [0] { s.setEng n { ((s.setEng n { s.eng n with
          ac := (s.eng n).ac.set 0 (divStep (s.eng n).ac[0] (s.nd n q))
          steps := (s.eng n).steps + 1 }).setNd n d (BitVec.ofNat 16 ((s.eng n).steps + 1))).eng n with c := c } with
          free := s.free + 1 } s t)) ∧
  (∀ (n : Fin 8) (a : Fin 4) (y : Fin 16) (e f : NEa) (code : Nat) (s : State), s.ndlRuns n = true →
    s.nmem n e = .error code →
    ∀ c ∈ [Instr.ndlMpy n a (.mem e) y, .ndlMpyi n a (.mem e) y, .ndlMac n a (.mem e) y, .ndlMsu n a (.mem e) y,
        .ndlMacd n a e f],
      Answers c s (NFaulted n code s)) ∧
  (∀ (n : Fin 8) (a : Fin 4) (x y : NX) (s : State), s.ndlRuns n = true →
    (a.val % 2 = 1 → ∀ c ∈ [Instr.ndlCmac n a x y, .ndlCmacj n a x y], Answers c s (NFaulted n 0x81 s)) ∧
    (∀ code, s.nxp n x = .error code → ∀ c ∈ [Instr.ndlPwr n a x, .ndlPwra n a x], Answers c s (NFaulted n code s)))

/-- R176, R177, R181, R183, R186 to R189, R166, R187 to R193: control flow, claims, block moves, and the end of a
run; triggers, the run limit, instructions without a run, and the mailbox commands over kernels. The model's
choices in it: log entries 50, 51 and 52. -/
def Obligations.NeedleFlowRunsAndKernels : Prop :=
  ((∀ (n : Fin 8) (cond : NCond) (to_ : BitVec 14) (s : State), s.ndlRuns n = true → (s.eng n).rep = none →
    Answers (.ndlBr n cond to_) s (fun t =>
      if (s.eng n).cond cond = true then NJumped n 2 ((s.eng n).branch to_) s t ∧ (t.eng n).pc = to_
      else NDid n 1 [] s s t)) ∧
  (∀ (n : Fin 8) (to_ : BitVec 14) (s : State), s.ndlRuns n = true → (s.eng n).rep = none →
    Answers (.ndlCall n to_) s (fun t =>
      if (s.eng n).calls.length < 8 then
        NJumped n 2 { s.eng n with calls := ((s.eng n).pc + 1) :: (s.eng n).calls, pc := to_ } s t ∧ t.free = s.free
      else NFaulted n 0x85 s t)) ∧
  (∀ (n : Fin 8) (s : State), s.ndlRuns n = true → (s.eng n).rep = none →
    Answers (.ndlRet n) s (fun t =>
      match (s.eng n).calls with
      | a :: as => NJumped n 2 { s.eng n with calls := as, pc := a } s t ∧ t.free = s.free
      | [] => ∃ a, NJumped n 2 { s.eng n with pc := a } s t ∧ t.free = s.free + 1)) ∧
  (∀ (n : Fin 8) (k : Fin 2) (c : NCount) (end_ : BitVec 14) (s : State), s.ndlRuns n = true → (s.eng n).rep = none →
    Answers (.ndlLoop n k c end_) s (fun t =>
      if (s.eng n).loops.length < 2 then
        (s.ncount n c ≠ 0 →
          (t.eng n).pc = (s.eng n).pc + 1 ∧ (t.eng n).loops = ⟨k, (s.eng n).pc + 1, end_⟩ :: (s.eng n).loops ∧
          (t.eng n).lc = (s.eng n).lc.set k (BitVec.ofNat 16 (s.ncount n c)) ∧ t.free = s.free) ∧
        (s.ncount n c = 0 → t.free = s.free + 1) ∧ (t.eng n).d = (s.eng n).d ∧ (t.eng n).mem = (s.eng n).mem ∧
        t.get64 (Pg.NDL n) NDL.BUSY_CYCLES_LO = wrapAdd64 (s.get64 (Pg.NDL n) NDL.BUSY_CYCLES_LO) 1 ∧
        t = { s with regs := t.regs, ndl := t.ndl, free := t.free }
      else NFaulted n 0x81 s t)) ∧
  (∀ (n : Fin 8) (c : NCount) (s : State), s.ndlRuns n = true → s.ncount n c ≠ 0 →
    Answers (.ndlRep n c) s (NJumped n 1 { ({ s.eng n with rep := none } : Ndl).advance with
      rep := some (s.ncount n c), cache := some (({ s.eng n with rep := none } : Ndl).advance.pc, 1) } s)) ∧
  (∀ (n : Fin 8) (c : NCount) (s : State), s.ndlRuns n = true → s.ncount n c = 0 →
    Answers (.ndlRep n c) s (fun t => t.free = s.free + 1 ∧ (t.eng n).mem = (s.eng n).mem ∧
      t = { s with regs := t.regs, ndl := t.ndl, free := t.free })) ∧
  (∀ (n : Fin 8) (mask : BitVec 8) (code : Byte) (p : Fin 8) (slot : Fin 16) (s : State), s.ndlRuns n = true →
    ∀ x ∈ [(Instr.ndlClrf n mask, 1, s.wr (Pg.NDL n + NDL.FLAGS.off)
          (s.rd (Pg.NDL n + NDL.FLAGS.off) &&& ~~~ (mask.zeroExtend 32))),
        (.ndlSignal n code, 1, { (s.set (Pg.NDL n) NDL.RUNSTAT_LAST_SIGNAL code.toNat).evt (Pg.NDL n) 8 with
          out := s.out ++ [.signal n.val code] }), (.ndlNop n, 1, s),
        (.ndlRelease n slot, 1, s.setEng n { s.eng n with claims := (s.eng n).claims.filter (fun c => decide (c.1 ≠ slot)) }),
        (.ndlClaim n p slot, 2, (match s.newest slot.val with
          | none => s.setEng n { s.eng n with z := true }
          | some r => s.setEng n { (s.setPtr n p (BitVec.ofNat 24 (recordBase slot.val r))).eng n with
              z := false
              claims := if (s.eng n).claims.contains (slot, r) then (s.eng n).claims else (s.eng n).claims ++ [(slot, r)] }))],
      Answers x.1 s (NDid n x.2.1 [] x.2.2 s)) ∧
  (∀ (n pd ps : Fin 8) (d : Fin 16) (s : State), s.ndlRuns n = true → (s.eng n).rep = none →
    Answers (.ndlXfer n pd ps d) s (fun t =>
      let k := (s.nd n d).toNat
      let src := (s.ptr n ps).toNat / 2 * 2
      let dst := (s.ptr n pd).toNat / 2 * 2
      if 2 ≤ (s.eng n).moves.length then t = s.setEng n { s.eng n with wait := .xfer }
      else match s.srcFault n src (max 1 (2 * k)), s.dstFault n dst (max 1 (2 * k)) with
        | some c, _ => NFaulted n c s t
        | none, some c => NFaulted n c s t
        | none, none =>
          if k = 0 then NDid n 1 [] s s t
          else NDid n 1 [] ((s.setEng n { s.eng n with moves := (s.eng n).moves ++ [⟨dst, src, k, s.xferDue n dst src k⟩] }).takeFree.set
            (Pg.NDL n) NDL.RUNSTAT_XFER 1) s t ∧
            (dst < 0x800000 → src < 0x800000 → (s.eng n).moves = [] →
              s.xferDue n dst src k = (s.eng n).cycles + 1 + 24 + (2 * k + 7) / 8))) ∧
  (∀ (n : Fin 8) (m : NMove) (rest : List NMove) (ws : List (BitVec 16)) (u s : State), (s.eng n).moves = m :: rest →
    s.reload.phase = .idle → s.moveRead n m.src (2 * m.pairs) = (ws, false, u) →
    Answers (.xferComplete n) s (fun t =>
      (t.eng n).moves = rest ∧ t.bit (Pg.NDL n) NDL.RUNSTAT_XFER = !rest.isEmpty ∧
      t.get64 (Pg.NDL n) NDL.XFER_PAIRS_LO = wrapAdd64 (s.get64 (Pg.NDL n) NDL.XFER_PAIRS_LO) m.pairs ∧
      (m.dst < 0x800000 → (t.eng n).mem = SMap.setList ndlWord (s.eng n).mem m.dst ws) ∧
      (0x800000 ≤ m.dst → t.mem = (u.memWrite (s.extBase n + 2 * (m.dst - 0x800000))
        (ws.map (fun w => leBytes 2 w.toNat)).flatten 4).mem) ∧
      ((s.eng n).halting = true → rest = [] →
        t.get64 (Pg.NDL n) NDL.RUNS_LO = wrapAdd64 (s.get64 (Pg.NDL n) NDL.RUNS_LO) 1 ∧
        t.ndlBusy n = (s.ndlPend n && s.fnIs (.ndl n) .running && s.ndlMayRun n)) ∧
      ((s.eng n).halting = false → t.ndlBusy n = s.ndlBusy n) ∧
      t.get64 (Pg.NDL n) NDL.BUSY_CYCLES_LO = wrapAdd64 (s.get64 (Pg.NDL n) NDL.BUSY_CYCLES_LO)
        (if (s.eng n).halting = true ∨ (s.eng n).wait = .xfer then m.due - (s.eng n).cycles
          else if (s.eng n).wait = .waitx then m.due - 1 - (s.eng n).cycles else 0) ∧
          t = { s with
              regs := t.regs, evtAt := t.evtAt, cls := t.cls, skein := t.skein, mem := t.mem, sched := t.sched,
              siteWake := t.siteWake, ndl := t.ndl })) ∧
  (∀ (n : Fin 8) (m : NMove) (rest : List NMove) (ws : List (BitVec 16)) (u s : State), (s.eng n).moves = m :: rest →
    s.reload.phase = .idle → s.moveRead n m.src (2 * m.pairs) = (ws, true, u) →
    Answers (.xferComplete n) s (fun t =>
      t.fn (.ndl n) = ⟨.fault, false, 2⟩ ∧ t.ndlBusy n = false ∧ (t.eng n).moves = [] ∧
      ((s.eng n).next = none → (t.eng n).mem = (s.eng n).mem) ∧
      t = { s with
          regs := t.regs, fns := t.fns, evtAt := t.evtAt, cls := t.cls, skein := t.skein, mem := t.mem,
          sched := t.sched, siteWake := t.siteWake, ndl := t.ndl })) ∧
  (∀ (n : Fin 8) (s : State), s.ndlRuns n = true → (s.eng n).rep = none →
    Answers (.ndlWaitx n) s (fun t =>
      if (s.eng n).moves = [] then NDid n 1 [] s s t else t = s.setEng n { s.eng n with wait := .waitx })) ∧
  (∀ (n : Fin 8) (s : State), s.ndlRuns n = true → s.reload.phase = .idle →
    Answers (.ndlHalt n) s (fun t =>
      (t.eng n).claims = [] ∧ (t.eng n).halting = !(s.eng n).moves.isEmpty ∧ (t.eng n).moves = (s.eng n).moves ∧
      t.get64 (Pg.NDL n) NDL.BUSY_CYCLES_LO = wrapAdd64 (s.get64 (Pg.NDL n) NDL.BUSY_CYCLES_LO) 1 ∧
      (if (s.eng n).moves = [] then
        t.ndlBusy n = (s.ndlPend n && s.fnIs (.ndl n) .running && s.ndlMayRun n) ∧
        t.get64 (Pg.NDL n) NDL.RUNS_LO = wrapAdd64 (s.get64 (Pg.NDL n) NDL.RUNS_LO) 1
      else t.ndlBusy n = true) ∧ t = { s with regs := t.regs, ndl := t.ndl } ∧ OnlyPages [Pg.NDL n] s t)) ∧
  (∀ (n : Fin 8) (cond : NCond) (to_ : BitVec 14) (k : Fin 2) (c : NCount) (pd ps : Fin 8) (d : Fin 16) (s : State),
    s.ndlRuns n = true → (s.eng n).rep ≠ none →
    ∀ i ∈ [Instr.ndlBr n cond to_, .ndlCall n to_, .ndlRet n, .ndlLoop n k c to_, .ndlXfer n pd ps d, .ndlWaitx n],
      Answers i s (NFaulted n 0x81 s))) ∧
  ((∀ (n : Fin 8) (source : BitVec 3) (slot : Fin 16) (s : State),
    Answers (.needleTrigger n source slot) s (fun t =>
      if s.takesFrom n source.toNat = true ∧ source.toNat ≠ 0 ∧ (source.toNat = 1 → s.get (Pg.NDL n) NDL.TRIG_SLOT = slot.val)
      then Triggered (s.trigEngine n) s t else t = s)) ∧
  (∀ (n : Fin 8) (s : State),
    Answers (.needlePeriodTimer n) s (fun t =>
      if s.takesFrom n 2 = true then Triggered (s.trigEngine n) s t else t = s)) ∧
  (∀ (src : Source) (n : Fin 8) (val : Word) (s : State), Granted src (Pg.NDL n + NDL.KICK.off) true s →
    Answers (.kick src n val) s (fun t =>
      if val.toNat % 2 = 1 ∧ s.takesFrom n 3 = true then Triggered (s.trigEngine n) s t else t = s)) ∧
  (∀ (n : Fin 8) (s : State), s.ndlBusy n = true → Answers (.maxCyclesExceeded n) s (NFaulted n 0x83 s)) ∧
  (∀ (n : Fin 8) (s : State), s.ndlRuns n = true → Answers (.illegalInstruction n) s (NFaulted n 0x81 s)) ∧
  (∀ (n : Fin 8) (d q v : Fin 16) (x y : NX) (e f : NEa) (a b : Fin 4) (s : State), s.ndlRuns n = false →
    ∀ c ∈ [Instr.ndlLd n d e, .ndlSt n e d, .ndlAdd n d q x, .ndlMac n a x d, .ndlMacd n a e f, .ndlCmac n a x y,
        .ndlAdda n a b, .ndlImin n v d e, .ndlHalt n, .ndlNop n, .ndlRet n, .ndlWaitx n, .illegalInstruction n],
      Answers c s (fun t => t = s)) ∧
  (∀ (ch : Chan) (tag : Byte) (s : State), MbxOpen ch s →
    Answers (.ndlStatus ch tag) s (fun t =>
      MbxReply ch tag Sts.ok ((List.finRange 8).map (fun n => s.ndlWord n)) t ∧ t = { s with regs := t.regs } ∧
      OnlyPages [Pg.HOOK ch] s t)) ∧
  (∀ (ch : Chan) (tag : Byte) (args : List Word) (s : State), MbxOpen ch s →
    Answers (.ndlAssign ch tag args) s (fun t =>
      match spareEngine args with
      | none => MbxReply ch tag Sts.badArg [] t ∧ t = { s with regs := t.regs } ∧ OnlyPages [Pg.HOOK ch] s t
      | some n =>
        if s.fnIs (.ndl n) .off = false then
          MbxReply ch tag Sts.busy [] t ∧ t = { s with regs := t.regs } ∧ OnlyPages [Pg.HOOK ch] s t
        else if argWord args 1 / 256 % 2 = 1 then
          (if s.userKernels = true then
            MbxReply ch tag Sts.ok [] t ∧ t.get (Pg.NDL n) NDL.CFG_ROLE = 1 ∧ t = { s with regs := t.regs } ∧
            OnlyPages [Pg.HOOK ch, Pg.NDL n] s t
          else MbxReply ch tag Sts.notPermitted [] t ∧ t = { s with regs := t.regs } ∧ OnlyPages [Pg.HOOK ch] s t)
        else
          MbxReply ch tag Sts.ok [] t ∧ t.get (Pg.NDL n) NDL.CFG_ROLE = 0 ∧ t.get (Pg.NDL n) NDL.KERNEL = 0 ∧
          (t.eng n).kernel = none ∧ (∀ k, k < 16 → t.get (Pg.NDL n) (NDL.MBOX k) = 0) ∧
          t = { s with regs := t.regs, ndl := t.ndl } ∧ OnlyPages [Pg.HOOK ch, Pg.NDL n] s t)) ∧
  (∀ (tag : Byte) (args : List Word) (image : List Byte) (n : Fin 8) (k : NKernel) (s : State), MbxOpen .ch0 s →
    spareEngine args = some n → argWord args 4 ≤ image.length → s.userKernels = true → s.ndlCustomer (Pg.NDL n) = true →
    s.imageCheck 3 (image.take (argWord args 4)) = none → kernelOf (image.take (argWord args 4)) = some k →
    Answers (.ndlLoad .ch0 tag args image) s (fun t =>
      MbxReply .ch0 tag Sts.ok [] t ∧ t.boot.customer = some (imgInfo ((image.take (argWord args 4)).take 0x140)) ∧
      ((s.fnIs (.ndl n) .off || s.fnIs (.ndl n) .fault) = true →
        (t.eng n).kernel = some k ∧ t.get (Pg.NDL n) NDL.KERNEL = k.version % 2 ^ 32 ∧
        t.get (Pg.NDL n) NDL.TRIG_SRC = k.trigSrc % 8 ∧ t.fns = s.fns) ∧
      (s.fnIs (.ndl n) .running = true →
        (t.eng n).kernel = (s.eng n).kernel ∧ (t.eng n).next = some k ∧ t.fn (.ndl n) = ⟨.bindingOff, true, (s.fn (.ndl n)).code⟩) ∧
      t = { s with regs := t.regs, fns := t.fns, boot := t.boot, security := t.security, ndl := t.ndl })) ∧
  (∀ (tag : Byte) (args : List Word) (image : List Byte) (n : Fin 8) (s : State), MbxOpen .ch0 s →
    spareEngine args = some n → argWord args 4 ≤ image.length → (s.userKernels && s.ndlCustomer (Pg.NDL n)) = false →
    Answers (.ndlLoad .ch0 tag args image) s (fun t =>
      MbxReply .ch0 tag Sts.notPermitted [] t ∧ t = { s with regs := t.regs } ∧ OnlyPages [Pg.HOOK .ch0] s t)))

/-- R165, R194: A live reload of a vendor engine under the cover of NDL5. -/
def Obligations.LiveReloadKeepsEveryTrigger : Prop :=
  (∀ (i : ImgInfo) (n : Fin 8) (rest : List (Fin 8)) (s : State), s.fnIs (.ndl n) .running = true →
    s.fnIs (.ndl 5) .off = true → n ≠ 5 →
    let t := s.reloadFrom i (n :: rest)
    t.reload = ⟨.coverOn n, false, rest⟩ ∧ (t.fn (.ndl 5)).st = .castingOn ∧ t.fn (.ndl n) = s.fn (.ndl n) ∧
    t.get (Pg.NDL 5) NDL.CFG_ROLE = 2 ∧ t.extBase 5 = s.extBase n ∧ t.eng n = s.eng n) ∧
  (∀ (n : Fin 8) (s : State), s.ndlRuns n = true → (s.eng n).moves = [] → s.reload.phase = .covered n → n ≠ 5 →
    s.fnIs (.ndl n) .running = true → s.fnIs (.ndl 5) .running = true → s.ndlBusy 5 = false → s.ndlMayRun 5 = true →
    Answers (.ndlHalt n) s (fun t =>
      t.reload.phase = .routed n ∧ (t.fn (.ndl n)).st = .bindingOff ∧ t.ndlBusy n = false ∧ t.ndlPend n = false ∧
      t.ndlBusy 5 = s.ndlPend n)) ∧
  (∀ (n : Fin 8) (src : Nat) (s : State), s.reload.phase = .routed n → s.fnIs (.ndl 5) .running = true →
    s.ndlMayRun 5 = true → s.bit (Pg.NDL n) NDL.TRIG_EN = true → s.get (Pg.NDL n) NDL.TRIG_SRC = src →
    s.takesFrom n src = true ∧ s.trigEngine n = 5) ∧
  (∀ (n : Fin 8) (i : ImgInfo) (s : State), s.reload.phase = .routed n → s.reload.loaded = false → n ≠ 5 →
    s.fn (.ndl n) = ⟨.bindingOff, false, (s.fn (.ndl n)).code⟩ → s.ndlBusy n = false → (s.eng n).next = none →
    s.boot.kernels = some i →
    Answers (.bindOffComplete (.ndl n)) s (fun t =>
      t.reload.phase = .routed n ∧ t.reload.loaded = true ∧ (t.fn (.ndl n)).st = .castingOn ∧
      t.ndlKernel n = some (vendorKernelOf i n) ∧ t.fn (.ndl 5) = s.fn (.ndl 5))) ∧
  (∀ (n : Fin 8) (s : State), s.reload.phase = .routed n → s.reload.loaded = true → n.val < 5 →
    s.fnIs (.ndl n) .castingOn = true → (s.ndlKernel n).isSome = true → s.fnIs (.ndl 5) .running = true →
    s.ndlBusy 5 = false → s.ndlPend 5 = false →
    Answers (.castOnComplete (.ndl n)) s (fun t =>
      t.reload.phase = .coverOff ∧ (t.fn (.ndl n)).st = .running ∧ (t.fn (.ndl 5)).st = .bindingOff ∧ t.trigEngine n = n))

/-! ### The Gauge (chapter 10) -/

/-- R165, R304 to R308, R310, R312 to R316: A fit that is due started or skipped, done and judged, and an estimate
given up. The model's choices in it: log entries 55, 56 and 8. -/
def Obligations.GaugeCommands : Prop :=
  (∀ (p : Port) (s : State), (s.gaugeOf p).fit = none →
    Answers (.gaugeFitStart p) s (fun t =>
      let due := match (s.gaugeOf p).sched with
        | some at_ => decide (at_ ≤ s.clock.cycles)
        | none => s.gaugeMayRun p
      if due = false then t = s
      else if s.gaugeMayRun p = true then
        t.gaugeOf p = { s.gaugeOf p with
          fit := some ⟨s.rdWords (Pg.GAUGE p + 0x40) 8, (s.tport p).rtd.getD 0, false⟩
          sched := some (s.clock.cycles + max 1 (s.get (Pg.GAUGE p) GAUGE.CTRL_PERIOD_S) * 500000000) } ∧
        t.get (Pg.GAUGE p) GAUGE.FITS = satAdd32 (s.get (Pg.GAUGE p) GAUGE.FITS) 1 ∧
        (s.takesFrom 4 4 = false → OnlyRegs [Pg.GAUGE p + GAUGE.FITS.off] s t ∧ t.ndl = s.ndl) ∧
        t = { s with
            regs := t.regs, sched := t.sched, ndl := t.ndl, gauge := t.gauge }
      else
        t.get (Pg.GAUGE p) GAUGE.STAT_RESULT = 1 ∧ t.gaugeOf p = { s.gaugeOf p with sched := none } ∧
        t = { s with regs := t.regs, gauge := t.gauge } ∧ OnlyRegs [Pg.GAUGE p + GAUGE.STAT_RESULT.off] s t)) ∧
  (∀ (p : Port) (s : State), (s.gaugeOf p).fit ≠ none → Answers (.gaugeFitStart p) s (fun t => t = s)) ∧
  (∀ (p : Port) (optics : List Rat) (f : GaugeFit) (s : State), (s.gaugeOf p).fit = some f →
    (f.abandoned = true ∨ (s.modem p).powers = [] ∨ 500000000 < s.clock.cycles - (s.modem p).powersAt) →
    Answers (.gaugeFitDone p optics) s (fun t =>
      t.get (Pg.GAUGE p) GAUGE.STAT_RESULT = (if f.abandoned then 9 else 2) ∧
      t.get (Pg.GAUGE p) GAUGE.REJECTED = satAdd32 (s.get (Pg.GAUGE p) GAUGE.REJECTED) 1 ∧
      t.bit (Pg.GAUGE p) ⟨HDR.PAGE_EVENT.off, 9, 1⟩ = true ∧
      t.bit (Pg.GAUGE p) GAUGE.STAT_VALID = s.bit (Pg.GAUGE p) GAUGE.STAT_VALID ∧
      t.get (Pg.GAUGE p) GAUGE.ASYM = s.get (Pg.GAUGE p) GAUGE.ASYM ∧
      t.gaugeOf p = { s.gaugeOf p with fit := none, cand := none } ∧
      t = { s with
          regs := t.regs, clock := t.clock, servo := t.servo, timers := t.timers, free := t.free, gauge := t.gauge })) ∧
  (∀ (p : Port) (optics : List Rat) (f : GaugeFit) (s : State), (s.gaugeOf p).fit = some f →
    f.abandoned = false → s.powerStale p = false →
    Answers (.gaugeFitDone p optics) s (fun t =>
      let c : GCfg := ⟨f.cfg⟩
      let o := s.powerAverage p
      let ns := obsNulls o (c.f GAUGE.ACCEPT_NULL_DEPTH)
      let ch := s.chirp p c (s.gaugeOf p).kept ns
      let len := c.length f.rtd (s.getSigned Pg.TIME (TIME0.PORT_RX_DELAY p.num)) (s.getSigned Pg.TIME (TIME0.PORT_TX_DELAY p.num))
      let dl := c.dl ch.2.1 ch.2.2 ns
      let g := c.nullFit len dl ns
      let residual := c.residual o (optics.take 5) dl ch.2.2 ns
      let conf := min 65535 (unitsOfPs 312 g.conf).toNat
      t.get (Pg.GAUGE p) GAUGE.STAT_CHIRP_SRC = ch.1 ∧ (t.gaugeOf p).fit = none ∧
      t.get (Pg.GAUGE p) GAUGE.FITS = s.get (Pg.GAUGE p) GAUGE.FITS ∧
      (ns = [] → c.f GAUGE.CTRL_BOUNDED_EN = 0 →
        t.get (Pg.GAUGE p) GAUGE.STAT_RESULT = 3 ∧ t.get (Pg.GAUGE p) GAUGE.STAT_MODE = 0 ∧
        t.get (Pg.GAUGE p) GAUGE.REJECTED = satAdd32 (s.get (Pg.GAUGE p) GAUGE.REJECTED) 1 ∧ (t.gaugeOf p).cand = none) ∧
      (ns ≠ [] → ch.1 = 0 →
        t.get (Pg.GAUGE p) GAUGE.STAT_RESULT = 4 ∧
        t.get (Pg.GAUGE p) GAUGE.REJECTED = satAdd32 (s.get (Pg.GAUGE p) GAUGE.REJECTED) 1 ∧ (t.gaugeOf p).cand = none) ∧
      (ns ≠ [] → ch.1 ≠ 0 → c.f GAUGE.ACCEPT_RESID_MAX * 100000 < residual →
        t.get (Pg.GAUGE p) GAUGE.STAT_RESULT = 5 ∧
        t.get (Pg.GAUGE p) GAUGE.REJECTED = satAdd32 (s.get (Pg.GAUGE p) GAUGE.REJECTED) 1 ∧ (t.gaugeOf p).cand = none) ∧
      (ns ≠ [] → ch.1 ≠ 0 → residual ≤ c.f GAUGE.ACCEPT_RESID_MAX * 100000 → c.l0Min4 ≤ g.l04 → g.l04 ≤ c.l0Max4 →
        conf ≤ c.f GAUGE.ACCEPT_CONF_MAX → s.bit (Pg.GAUGE p) GAUGE.STAT_VALID = false → (s.gaugeOf p).cand = none →
        t.get (Pg.GAUGE p) GAUGE.STAT_RESULT = 0 ∧ t.bit (Pg.GAUGE p) GAUGE.STAT_VALID = true ∧
        t.get (Pg.GAUGE p) GAUGE.ASYM = ofSigned 32 (unitsOfPs 310 g.asym) ∧ t.get (Pg.GAUGE p) GAUGE.CONF_USE = conf ∧
        t.get (Pg.GAUGE p) GAUGE.ACCEPTED = satAdd32 (s.get (Pg.GAUGE p) GAUGE.ACCEPTED) 1 ∧
        t.bit (Pg.GAUGE p) ⟨HDR.PAGE_EVENT.off, 8, 1⟩ = true) ∧
        t = { s with
            regs := t.regs, clock := t.clock, servo := t.servo, timers := t.timers, free := t.free,
            gauge := t.gauge })) ∧
  (∀ (p : Port) (optics : List Rat) (s : State), (s.gaugeOf p).fit = none →
    Answers (.gaugeFitDone p optics) s (fun t => t = s)) ∧
  (∀ (p : Port) (s : State), s.bit (Pg.GAUGE p) GAUGE.STAT_VALID = true →
    (s.get (Pg.GAUGE p) GAUGE.STALE < s.gaugeAge p ∨ s.inWork p = false ∨ s.fnIs (.line p) .running = false ∨
      s.bit (Pg.GAUGE p) GAUGE.CTRL_EN = false ∨
      256000 < ((s.tport p).rtd.getD 0 - (s.gaugeOf p).rtd).natAbs) →
    Answers (.gaugeExpired p) s (fun t =>
      t.bit (Pg.GAUGE p) GAUGE.STAT_VALID = false ∧
      t.get (Pg.GAUGE p) GAUGE.EXPIRED = satAdd32 (s.get (Pg.GAUGE p) GAUGE.EXPIRED) 1 ∧
      t.bit (Pg.GAUGE p) ⟨HDR.PAGE_EVENT.off, 10, 1⟩ = true ∧ (t.gaugeOf p).cand = none ∧
      (t.gaugeOf p).sched = some s.clock.cycles ∧
      t = { s with
          regs := t.regs, clock := t.clock, servo := t.servo, timers := t.timers, free := t.free, gauge := t.gauge }))

/-! ### Classification and the flow table (chapter 11) -/

/-- R319 to R325, R333 to R336, R339, R341: A waiting frame classified: what parsing judges, the firmware rules, the
flow table's action, and the verdict of its ingress; nothing is looked up while a hush is asked for. The model's
choices in it: log entry 57. -/
def Obligations.FramesAreClassified : Prop :=
  (∀ (ing : Fin 8) (s : State), s.bit Pg.CLS CLS0.HUSH_REQ = true → Answers (.classifyFrame ing) s (fun t => t = s)) ∧
  (∀ (ing : Fin 8) (k : Pkt) (ks : List Pkt) (s : State), s.bit Pg.CLS CLS0.HUSH_REQ = false → s.domIsOff .core = false →
    2 ≤ ing.val → s.inq ing.val = k :: ks → k.ingress = ing.val →
    Answers (.classifyFrame ing) s (fun t =>
      let r := parse k.bytes
      let l := (keyLayer r (s.bit Pg.CLS (CLS0.ING_KEY_INNER ing.val))).1
      let wk := wildKey k r (s.bit Pg.CLS (CLS0.ING_KEY_INNER ing.val))
      (t.inq ing.val).map Pkt.bytes = ks.map Pkt.bytes ∧ (s.mem.flips = [] → t.inq ing.val = ks) ∧
      t.get64 Pg.CLS (CLS1.FRAMES_LO ing.val) = wrapAdd64 (s.get64 Pg.CLS (CLS1.FRAMES_LO ing.val)) 1 ∧
      t.get Pg.CLS CLS1.PARSE_DEEP = (if r.judged = .deep then satAdd32 (s.get Pg.CLS CLS1.PARSE_DEEP) 1
        else s.get Pg.CLS CLS1.PARSE_DEEP) ∧
      t.get Pg.CLS CLS1.LEN_CONFLICT = (if r.judged = .conflict then satAdd32 (s.get Pg.CLS CLS1.LEN_CONFLICT) 1
        else s.get Pg.CLS CLS1.LEN_CONFLICT) ∧
      (∀ ru, r.judged = .normal → s.ptpRule k r = none → s.ruleFind 0 64 wk = some ru → bitsOf ru.action 0 4 = 0 →
        t.get64 Pg.CLS CLS1.RULE_HITS_LO = wrapAdd64 (s.get64 Pg.CLS CLS1.RULE_HITS_LO) 1 ∧
        t.cls.outq = s.cls.outq ++ [⟨k, bitsOf ru.action 8 17,
          if bitsOf ru.action 80 1 = 1 then some (bitsOf ru.action 64 16) else none, bitsOf ru.action 81 2,
          s.dlOf k ru.action, bitsOf ru.action 96 16, 0, 0⟩]) ∧
      (∀ ru h q, r.judged = .normal → s.ptpRule k r = none → s.ruleFind 0 64 wk = some ru → bitsOf ru.action 0 4 = 1 →
        s.rssQueue l (bitsOf ru.action 32 8) (decide (bitsOf ru.action 40 1 = 1)) (decide (bitsOf ru.action 41 1 = 1)) =
          (h, some q) →
        t.cls.outq = s.cls.outq ++ [⟨k, q,
          if bitsOf ru.action 80 1 = 1 then some (bitsOf ru.action 64 16) else none, bitsOf ru.action 81 2,
          s.dlOf k ru.action, bitsOf ru.action 96 16, h, 0⟩]) ∧
      (r.judged = .normal → s.ptpRule k r = none → s.ruleFind 0 64 wk = none →
        s.ftFind (exactKey k r (s.bit Pg.CLS (CLS0.ING_KEY_INNER ing.val))) = none → s.ruleFind 64 8192 wk = none →
        s.get Pg.CLS (CLS0.ING_VERDICT ing.val) = 0 →
        (∀ l ∈ s.ftCands (exactKey k r (s.bit Pg.CLS (CLS0.ING_KEY_INNER ing.val))),
          ∀ w ∈ wordsTouched (s.ftAddr l) 64, s.flipsAt w < 3) →
        t.get64 Pg.CLS CLS1.DEFAULTS_LO = wrapAdd64 (s.get64 Pg.CLS CLS1.DEFAULTS_LO) 1 ∧
        t.cls.outq = s.cls.outq ++ [⟨k, s.get Pg.CLS (CLS0.ING_QUEUE ing.val), none, 0, s.dlOf k 0, 0, 0, 0⟩]) ∧
      t = { s with
          regs := t.regs, evtAt := t.evtAt, cls := t.cls, skein := t.skein, mem := t.mem, pcie := t.pcie,
          timers := t.timers, out := t.out, sched := t.sched, siteWake := t.siteWake }))

/-- R330 to R332, R334, R337, R341, R342: the commands of the flow table; rules, the tables of RSS, and the hush.
The model's choices in it: log entries 75, 57, 58 and 24. -/
def Obligations.TablesAndHush : Prop :=
  ((∀ (src : Source) (val : Word) (s : State), Granted src (Pg.CLS + CLS0.FT_CMD.off) true s →
    s.bit Pg.CLS CLS0.FT_STAT_BUSY = false → CLS0.FT_CMD_OP.get val = 1 →
    Answers (.ftInsert src val) s (fun t =>
      let e := s.ftStaged
      t.bit Pg.CLS CLS0.FT_STAT_BUSY = true ∧
      (entryGood e = false → t.cls = { s.cls with cmd := some (4, 0, 0) } ∧ t.mem = s.mem) ∧
      (∀ loc, entryGood e = true → s.ftFind (entryKey e) = some loc →
        t.cls = { s.cls with cmd := some (1, loc, 0) } ∧ t.mem = s.mem) ∧
      (∀ loc, entryGood e = true → s.ftFind (entryKey e) = none →
        (s.ftCands (entryKey e)).find? (fun l => !s.ftValid l) = some loc →
        t.cls.cmd = some (0, loc, 0) ∧ t.ftEntry loc = e ∧
        t.get Pg.CLS CLS0.FT_COUNT = (s.get Pg.CLS CLS0.FT_COUNT + 1) % 2 ^ 20) ∧
      t = { s with
          regs := t.regs, rdata := t.rdata, evtAt := t.evtAt, cls := t.cls, skein := t.skein, mem := t.mem,
          sched := t.sched, siteWake := t.siteWake })) ∧
  (∀ (src : Source) (val : Word) (s : State), Granted src (Pg.CLS + CLS0.FT_CMD.off) true s →
    s.bit Pg.CLS CLS0.FT_STAT_BUSY = false → CLS0.FT_CMD_OP.get val = 2 →
    Answers (.ftDelete src val) s (fun t =>
      t.bit Pg.CLS CLS0.FT_STAT_BUSY = true ∧
      (match s.ftFind (entryKey s.ftStaged) with
       | some loc => t.cls.cmd = some (0, loc, 0) ∧ t.ftValid loc = false ∧
         t.get Pg.CLS CLS0.FT_COUNT = s.get Pg.CLS CLS0.FT_COUNT - 1
       | none => t.cls = { s.cls with cmd := some (2, 0, 0) } ∧ t.mem = s.mem) ∧
       t = { s with
           regs := t.regs, rdata := t.rdata, evtAt := t.evtAt, cls := t.cls, skein := t.skein, mem := t.mem,
           sched := t.sched, siteWake := t.siteWake })) ∧
  (∀ (src : Source) (val : Word) (s : State), Granted src (Pg.CLS + CLS0.FT_CMD.off) true s →
    s.bit Pg.CLS CLS0.FT_STAT_BUSY = false → CLS0.FT_CMD_OP.get val = 3 → entryGood s.ftStaged = true →
    Answers (.ftModify src val) s (fun t =>
      t.bit Pg.CLS CLS0.FT_STAT_BUSY = true ∧
      (match s.ftFind (entryKey s.ftStaged) with
       | some loc => t.cls.cmd = some (0, loc, 0) ∧ t.ftEntry loc = (s.ftEntry loc).take 48 ++ s.ftStaged.drop 48
       | none => t.cls = { s.cls with cmd := some (2, 0, 0) } ∧ t.mem = s.mem) ∧
       t = { s with
           regs := t.regs, rdata := t.rdata, evtAt := t.evtAt, cls := t.cls, skein := t.skein, mem := t.mem,
           sched := t.sched, siteWake := t.siteWake })) ∧
  (∀ (src : Source) (val : Word) (s : State), Granted src (Pg.CLS + CLS0.FT_CMD.off) true s →
    s.bit Pg.CLS CLS0.FT_STAT_BUSY = false → CLS0.FT_CMD_OP.get val = 4 →
    Answers (.ftQuery src val) s (fun t =>
      t.bit Pg.CLS CLS0.FT_STAT_BUSY = true ∧
      (match s.ftFind (entryKey s.ftStaged) with
       | some loc => t.cls.cmd = some (0, loc, 0) ∧
         t.rdWords (Pg.CLS + (CLS0.FT_ENTRY 0).off) 16 = leWords 16 (s.ftEntry loc)
       | none => t.cls = { s.cls with cmd := some (2, 0, 0) } ∧ t.mem = s.mem) ∧
       t = { s with
           regs := t.regs, rdata := t.rdata, evtAt := t.evtAt, cls := t.cls, skein := t.skein, mem := t.mem,
           sched := t.sched, siteWake := t.siteWake })) ∧
  (∀ (src : Source) (val : Word) (s : State), Granted src (Pg.CLS + CLS0.FT_CMD.off) true s →
    s.bit Pg.CLS CLS0.FT_STAT_BUSY = false → CLS0.FT_CMD_OP.get val = 5 →
    Answers (.ftRead src val) s (fun t =>
      let loc := CLS0.FT_CMD_LOCATION.get val
      t.bit Pg.CLS CLS0.FT_STAT_BUSY = true ∧ t.cls.cmd = some (0, loc, 0) ∧
      t.rdWords (Pg.CLS + (CLS0.FT_ENTRY 0).off) 16 = leWords 16 (s.ftEntry loc) ∧
      (CLS0.FT_CMD_HIT_CLEAR.get val = 0 → t.mem = s.mem ∧ t.cls = { s.cls with cmd := t.cls.cmd }) ∧
      t = { s with
          regs := t.regs, rdata := t.rdata, evtAt := t.evtAt, cls := t.cls, skein := t.skein, mem := t.mem,
          sched := t.sched, siteWake := t.siteWake })) ∧
  (∀ (res loc moves : Nat) (s : State), s.cls.cmd = some (res, loc, moves) → s.get Pg.CLS CLS0.FT_STAT_BUSY = 1 →
    Answers .ftDone s (fun t =>
      t.rd (Pg.CLS + CLS0.FT_STAT.off) = BitVec.ofNat 32 (loc * 2 ^ 12 + moves * 2 ^ 8 + res * 2 ^ 4) ∧
      t.bit Pg.CLS ⟨HDR.PAGE_EVENT.off, 10, 1⟩ = true ∧
      t.get Pg.CLS CLS1.FT_FULL = (if res = 3 then satAdd32 (s.get Pg.CLS CLS1.FT_FULL) 1 else s.get Pg.CLS CLS1.FT_FULL) ∧
      (res = 3 → t.bit Pg.CLS ⟨HDR.PAGE_EVENT.off, 12, 1⟩ = true) ∧
      t = { s with regs := t.regs, cls := { s.cls with cmd := none } } ∧
      OnlyRegs [Pg.CLS + CLS0.FT_STAT.off, Pg.CLS + HDR.PAGE_EVENT.off, Pg.CLS + CLS1.FT_FULL.off] s t)) ∧
  (∀ (location : Fin 524288) (e : List Byte) (s : State),
    s.cls.cache.find? (fun c => decide (c.1 = location.val)) = some (location.val, e) →
    Answers (.ftHitWriteback location) s (fun t =>
      t.memBytes (s.ftAddr location.val) e.length = e ∧
      (∀ a, (a < s.ftAddr location.val ∨ s.ftAddr location.val + e.length ≤ a) → t.memByte a = s.memByte a) ∧
      (e.length = 64 → (∀ w ∈ wordsTouched (s.ftAddr location.val) 64, t.poisoned w = false ∧ t.flipsAt w = 0) ∧
        t = { s with mem := { s.mem with
          data := t.mem.data, poison := t.mem.poison, flips := t.mem.flips, writeBack := t.mem.writeBack } }) ∧
      t = { s with
          regs := t.regs, evtAt := t.evtAt, cls := t.cls, skein := t.skein, mem := t.mem, sched := t.sched,
          siteWake := t.siteWake })) ∧
  (∀ (src : Source) (val : Word) (s : State), Granted src (Pg.CLS + CLS0.FT_CMD.off) true s →
    s.bit Pg.CLS CLS0.FT_STAT_BUSY = false → (CLS0.FT_CMD_OP.get val = 0 ∨ 5 < CLS0.FT_CMD_OP.get val) →
    ∀ i ∈ [Instr.ftInsert src val, .ftDelete src val, .ftModify src val, .ftQuery src val, .ftRead src val],
      Answers i s (fun t => t = { s with regs := t.regs } ∧ t.bit Pg.CLS CLS0.FT_STAT_BUSY = false ∧
        OnlyRegs [Pg.CLS + CLS0.FT_CMD.off] s t))) ∧
  ((∀ (src : Source) (val : Word) (s : State), Granted src (Pg.CLS + CLS0.RULE_CMD.off) true s →
    CLS0.RULE_CMD_OP.get val = 1 → (CLS0.RULE_CMD_INDEX.get val < 64 → src.isHook = true) →
    Answers (.ruleWrite src val) s (fun t =>
      let n := CLS0.RULE_CMD_INDEX.get val
      let num := fun (off k : Nat) => leNat ((s.rdWords (Pg.CLS + (CLS0.RULE_STAGE 0).off + off) k).map
        (fun w => leBytes 4 w.toNat)).flatten
      t.rule n = some ⟨num 0 20, num 80 20, num 160 4⟩ ∧ (∀ m, m ≠ n → t.rule m = s.rule m) ∧
      t = { s with mem := { s.mem with bad := t.mem.bad }, cls := { s.cls with rules := t.cls.rules } })) ∧
  (∀ (src : Source) (val : Word) (s : State), Granted src (Pg.CLS + CLS0.RULE_CMD.off) true s →
    (CLS0.RULE_CMD_INDEX.get val < 64 ∧ src.isHook = false) → CLS0.RULE_CMD_OP.get val = 1 →
    Answers (.ruleWrite src val) s (RejectedTo src Pg.CLS Reason.privilege.code true (Pg.CLS + CLS0.RULE_CMD.off) s)) ∧
  (∀ (src : Source) (val : Word) (s : State), Granted src (Pg.CLS + CLS0.RULE_CMD.off) true s →
    CLS0.RULE_CMD_OP.get val = 2 → (CLS0.RULE_CMD_INDEX.get val < 64 → src.isHook = true) →
    Answers (.ruleRead src val) s (fun t =>
      let n := CLS0.RULE_CMD_INDEX.get val
      let stage := Pg.CLS + (CLS0.RULE_STAGE 0).off
      (∀ r, s.rule n = some r → t.bit Pg.CLS CLS0.RULE_STAT = true ∧
        t.rdWords stage 44 = leWords 20 (leBytes 80 r.key) ++ leWords 20 (leBytes 80 r.mask) ++ leWords 4 (leBytes 16 r.action)) ∧
      (s.rule n = none → t.bit Pg.CLS CLS0.RULE_STAT = false) ∧ t = { s with regs := t.regs })) ∧
  (∀ (src : Source) (val : Word) (s : State), Granted src (Pg.CLS + CLS0.RULE_CMD.off) true s →
    CLS0.RULE_CMD_OP.get val = 3 → (CLS0.RULE_CMD_INDEX.get val < 64 → src.isHook = true) →
    Answers (.ruleInvalidate src val) s (fun t =>
      let n := CLS0.RULE_CMD_INDEX.get val
      t.rule n = none ∧ (∀ m, m ≠ n → t.rule m = s.rule m) ∧ t = { s with cls := { s.cls with rules := t.cls.rules } })) ∧
  (∀ (src : Source) (val : Word) (s : State), Granted src (Pg.CLS + CLS0.RULE_CMD.off) true s →
    (CLS0.RULE_CMD_OP.get val = 0 ∨ 3 < CLS0.RULE_CMD_OP.get val) →
    ∀ i ∈ [Instr.ruleWrite src val, .ruleRead src val, .ruleInvalidate src val], Answers i s (fun t => t = s)) ∧
  (∀ (src : Source) (s : State), Granted src (Pg.CLS + CLS0.RSS_DATA.off) false s → s.get Pg.CLS CLS0.RSS_SEL_FUNC < 254 →
    Answers (.rssDataAccess src none) s (fun t =>
      let i := s.get Pg.CLS CLS0.RSS_SEL_INDEX
      let isKey := s.bit Pg.CLS CLS0.RSS_SEL_KEY
      t.rdata = s.rssWord (s.get Pg.CLS CLS0.RSS_SEL_FUNC * 1024 + (if isKey then 512 + i % 10 else i)) ∧
      t.get Pg.CLS CLS0.RSS_SEL_INDEX = (if isKey then (i % 10 + 1) % 10 else (i + 1) % 512) ∧
      t = { s with regs := t.regs, rdata := t.rdata } ∧ OnlyRegs [Pg.CLS + CLS0.RSS_SEL.off] s t)) ∧
  (∀ (src : Source) (v : Word) (s : State), Granted src (Pg.CLS + CLS0.RSS_DATA.off) true s →
    s.get Pg.CLS CLS0.RSS_SEL_FUNC < 254 →
    Answers (.rssDataAccess src (some v)) s (fun t =>
      let i := s.get Pg.CLS CLS0.RSS_SEL_INDEX
      let isKey := s.bit Pg.CLS CLS0.RSS_SEL_KEY
      let n := s.get Pg.CLS CLS0.RSS_SEL_FUNC * 1024 + (if isKey then 512 + i % 10 else i)
      t.rssWord n = (if isKey then v else v &&& 0x8001FFFF) ∧ (∀ m, m ≠ n → t.rssWord m = s.rssWord m) ∧
      t.get Pg.CLS CLS0.RSS_SEL_INDEX = (if isKey then (i % 10 + 1) % 10 else (i + 1) % 512) ∧
      t = { s with regs := t.regs, cls := { s.cls with rss := t.cls.rss }, mem := { s.mem with bad := t.mem.bad } } ∧
      OnlyRegs [Pg.CLS + CLS0.RSS_SEL.off] s t)) ∧
  (∀ (src : Source) (val : Word) (s : State), Granted src (Pg.CLS + CLS0.HUSH.off) true s → val.toNat % 2 = 1 →
    Answers (.hushRequest src val) s (fun t =>
      t.bit Pg.CLS CLS0.HUSH_REQ = true ∧ t.get Pg.CLS CLS0.HUSH_MAX_US = CLS0.HUSH_MAX_US.get val ∧
      t.get Pg.CLS CLS1.HUSHES = (if s.bit Pg.CLS CLS0.HUSH_REQ then s.get Pg.CLS CLS1.HUSHES
        else satAdd32 (s.get Pg.CLS CLS1.HUSHES) 1) ∧
      t = { s with regs := t.regs } ∧ OnlyRegs [Pg.CLS + CLS0.HUSH.off, Pg.CLS + CLS1.HUSHES.off] s t)) ∧
  (∀ s : State, s.bit Pg.CLS CLS0.HUSH_REQ = true → s.bit Pg.CLS CLS0.HUSH_STAT_HUSHED = false →
    Answers .hushed s (fun t =>
      t.bit Pg.CLS CLS0.HUSH_STAT_HUSHED = true ∧ t.bit Pg.CLS ⟨HDR.PAGE_EVENT.off, 8, 1⟩ = true ∧
      SMap.get noTimer t.timers Tm.hush = some (max 1 (min 100 (s.get Pg.CLS CLS0.HUSH_MAX_US)) * 1000) ∧
      t.cls = { s.cls with hushAt := some s.clock.cycles } ∧
      t = { s with
          regs := t.regs, cls := t.cls, timers := t.timers } ∧
      OnlyRegs [Pg.CLS + CLS0.HUSH_STAT.off, Pg.CLS + HDR.PAGE_EVENT.off] s t)) ∧
  (∀ (src : Source) (val : Word) (s : State), Granted src (Pg.CLS + CLS0.HUSH.off) true s → val.toNat % 2 = 0 →
    s.bit Pg.CLS CLS0.HUSH_REQ = true →
    Answers (.hushRelease src val) s (fun t =>
      t.bit Pg.CLS CLS0.HUSH_REQ = false ∧ t.bit Pg.CLS CLS0.HUSH_STAT_HUSHED = false ∧ t.running Tm.hush = false ∧
      (∀ c, s.cls.hushAt = some c →
        t.get Pg.CLS CLS0.HUSH_STAT_LAST_US = min 0xFFFF ((s.clock.cycles - c) / cyclesOf 1000)) ∧
      t.cls = { s.cls with hushAt := none } ∧ t = { s with regs := t.regs, cls := t.cls, timers := t.timers } ∧
      OnlyRegs [Pg.CLS + CLS0.HUSH.off, Pg.CLS + CLS0.HUSH_STAT.off] s t)) ∧
  (∀ s : State, s.running Tm.hush = true →
    Answers .hushExpired s (fun t =>
      t.bit Pg.CLS CLS0.HUSH_REQ = false ∧ t.bit Pg.CLS CLS0.HUSH_STAT_HUSHED = false ∧
      t.bit Pg.CLS CLS0.HUSH_STAT_EXPIRED = true ∧ t.bit Pg.CLS ⟨HDR.PAGE_EVENT.off, 9, 1⟩ = true ∧
      t.running Tm.hush = false ∧
      t.get Pg.CLS CLS1.HUSH_EXPIRED = satAdd32 (s.get Pg.CLS CLS1.HUSH_EXPIRED) 1 ∧
      t.cls = { s.cls with hushAt := none } ∧ t = { s with regs := t.regs, cls := t.cls, timers := t.timers } ∧
      OnlyRegs [Pg.CLS + CLS0.HUSH.off, Pg.CLS + CLS0.HUSH_STAT.off, Pg.CLS + HDR.PAGE_EVENT.off,
        Pg.CLS + CLS1.HUSH_EXPIRED.off] s t)))

/-! ### Queues, shapers, deadlines and patterns (chapter 12) -/

/-- R297, R347, R349, R350, R359 to R361: frames enqueued, admitted to a deadline lane, dropped, released, or freed
from a launch time. The model's choices in it: log entry 59. -/
def Obligations.FramesAreQueuedAndReleased : Prop :=
  (∀ s : State,
    Answers .launchTimeReached s (fun t =>
      (∀ q, t.queue q = (s.queue q).map (fun f =>
        { f with held := (match f.launch with
          | some x => decide (s.clock.cnt < x)
          | none => f.held) })) ∧
      (∀ e, t.lane e = (s.lane e).map (fun f =>
        { f with held := (match f.launch with
          | some x => decide (s.clock.cnt < x)
          | none => f.held) })) ∧
      t = { s with sched := { s.sched with queues := t.sched.queues, lanes := t.sched.lanes } })) ∧
  (∀ (c : CPkt) (rest : List CPkt) (s : State), s.cls.outq = c :: rest → c.policer = none → s.launchOf c.pkt = none →
    (s.feat 2 = false ∨ c.dl = none) →
    Answers .enqueue s (fun t =>
      let n := s.node (nodeKey Lvl.queue c.queue)
      let want := s.queueFill c.queue + c.pkt.bytes.length
      t.cls = { s.cls with outq := rest } ∧ (∀ q, q ≠ c.queue → t.queue q = s.queue q) ∧ (∀ e, t.lane e = s.lane e) ∧
      (n.w1 = 0 ∨ want ≤ n.w1 →
        t.queue c.queue = s.queue c.queue ++ [⟨{ c with colour := 0 }, 0, 0, 0, false, none, false⟩] ∧
        t.get64 Pg.SCHED SCHED1.ENQ_FRAMES_LO = wrapAdd64 (s.get64 Pg.SCHED SCHED1.ENQ_FRAMES_LO) 1 ∧
        t.get64 Pg.SCHED SCHED1.ENQ_BYTES_LO = wrapAdd64 (s.get64 Pg.SCHED SCHED1.ENQ_BYTES_LO) c.pkt.bytes.length ∧
        SMap.get noTimer t.timers Tm.autoDoze = some (ms * max 1 (s.get Pg.PWR PWR.POLICY_DOZE_IDLE_MS)) ∧
        t = { s with regs := t.regs, cls := t.cls, sched := t.sched, timers := t.timers }) ∧
      (n.w1 ≠ 0 ∧ n.w1 < want →
        t.queue c.queue = s.queue c.queue ∧
        t.get Pg.SCHED SCHED1.TAIL_DROP = satAdd32 (s.get Pg.SCHED SCHED1.TAIL_DROP) 1) ∧
        t = { s with
            regs := t.regs, evtAt := t.evtAt, cls := t.cls, skein := t.skein, pcie := t.pcie, timers := t.timers,
            out := t.out, sched := t.sched })) ∧
  (∀ (c : CPkt) (rest : List CPkt) (cl : Fin 8) (s : State), s.cls.outq = c :: rest → c.policer = none →
    s.launchOf c.pkt = none → s.feat 2 = true → c.dl = some cl.val → s.queueEgress c.queue ≤ 128 →
    Answers .enqueue s (fun t =>
      let e := s.queueEgress c.queue
      let charge := c.pkt.bytes.length + s.get Pg.DEADLINE DEADLINE.CFG
      let due := s.clock.cnt + s.dlBound cl.val * 1000 * 2 ^ 40
      t.cls = { s.cls with outq := rest } ∧ (∀ q, t.queue q = s.queue q) ∧ (∀ x, x ≠ e → t.lane x = s.lane x) ∧
      (if 0 < (s.dlRate e).1 * s.get Pg.DEADLINE (DEADLINE.CLASS_SHARE cl.val) ∧
          s.bit Pg.DEADLINE (DEADLINE.CLASS_CLOSED cl.val) = false ∧ s.backlog e cl.val + charge ≤ s.dlLimit e cl.val then
        t.lane e = laneInsert ⟨{ c with colour := 0 }, cl.val, due, charge, false, none, false⟩ (s.lane e) ∧
        t.backlog e cl.val = s.backlog e cl.val + charge ∧
        t.get Pg.DEADLINE (DEADLINE.ADMITTED cl.val) = satAdd32 (s.get Pg.DEADLINE (DEADLINE.ADMITTED cl.val)) 1
       else t.lane e = s.lane e ∧ t.backlog e cl.val = s.backlog e cl.val ∧
        t.get Pg.DEADLINE (DEADLINE.NOT_ADMITTED cl.val) =
          satAdd32 (s.get Pg.DEADLINE (DEADLINE.NOT_ADMITTED cl.val)) 1) ∧
      t = { s with
          regs := t.regs, evtAt := t.evtAt, cls := t.cls, skein := t.skein, pcie := t.pcie, timers := t.timers,
          out := t.out, sched := t.sched })) ∧
  (∀ (egress : Fin 134) (sub : Fin 131072) (s : State), egress.val < 128 →
    Answers (.schedulerSelect egress sub) s (fun t => t = s)) ∧
  (∀ (sub : Fin 131072) (p : Pick) (u s : State),
    s.pickNext 133 s.clock.cnt (fun q f => s.egressTakes 133 q f) = some (p, u) → p.frame.c.pkt.poison = false →
    Answers (.schedulerSelect 133 sub) s (fun t =>
      (∃ l m, t.out = s.out ++ l ++ [.plyFrame p.frame.c.pkt.bytes] ++ m) ∧
      t.get64 Pg.PLY PLY.TX_FLITS_LO =
        wrapAdd64 (s.get64 Pg.PLY PLY.TX_FLITS_LO) ((p.frame.c.pkt.bytes.length + 167) / 168) ∧
      (∀ q, p.queue = some q → ∃ n, 1 ≤ n ∧ t.queue q = (s.queue q).drop n) ∧
      (p.queue = none → ∃ n, 1 ≤ n ∧ t.lane p.egress = (s.lane p.egress).drop n) ∧
      t = { s with
          regs := t.regs, servo := t.servo, skein := t.skein, pcie := t.pcie, timers := t.timers, free := t.free,
          out := t.out, ciph := t.ciph, sched := t.sched, siteWake := t.siteWake })) ∧
  (∀ (n : Fin 4) (sub : Fin 131072) (p : Pick) (u s : State),
    s.pickNext (129 + n.val) s.clock.cnt (fun q f => s.egressTakes (129 + n.val) q f) = some (p, u) →
    p.frame.c.pkt.poison = false → s.bit (Pg.SITE n) SITE.STAT_LPI_TX = true →
    Answers (.schedulerSelect ⟨129 + n.val, by omega⟩ sub) s (fun t =>
      SMap.get (fun _ => none) t.siteWake n.val = some ⟨p.frame.c.pkt⟩ ∧
      t.bit (Pg.SITE n) SITE.STAT_LPI_TX = false ∧
      SMap.get noTimer t.timers (Tm.lpiWake n.val) = some (1000 * max 1 (s.get (Pg.SITE n) SITE.LPI_WAKE_US)) ∧
      t = { s with
          regs := t.regs, servo := t.servo, skein := t.skein, pcie := t.pcie, timers := t.timers, free := t.free,
          out := t.out, ciph := t.ciph, sched := t.sched, siteWake := t.siteWake })) ∧
  (∀ (egress : Fin 134) (sub : Fin 131072) (p : Pick) (u s : State), 128 ≤ egress.val →
    s.pickNext egress.val s.clock.cnt (fun q f => s.egressTakes egress.val q f) = some (p, u) →
    p.frame.c.pkt.poison = true →
    Answers (.schedulerSelect egress sub) s (fun t =>
      t.get Pg.MEM MEM1.POISON_FRAMES = satAdd32 (s.get Pg.MEM MEM1.POISON_FRAMES) 1 ∧
      t = { s with
          regs := t.regs, servo := t.servo, skein := t.skein, pcie := t.pcie, timers := t.timers, free := t.free,
          out := t.out, ciph := t.ciph, sched := t.sched, siteWake := t.siteWake })) ∧
  (∀ (queue : Fin 131072) (f : QFrame) (fs : List QFrame) (s : State), s.queue queue.val = f :: fs →
    (s.classNode (s.queueClass queue.val)).stall = true →
    s.egressTakes (s.classAt (s.queueClass queue.val)) queue.val f = false →
    Answers (.stallDrop queue) s (fun t =>
      t.get Pg.SCHED SCHED1.STALL_DROP = satAdd32 (s.get Pg.SCHED SCHED1.STALL_DROP) 1 ∧
      (∃ n, t.queue queue.val = fs.drop n) ∧ (∀ q, q ≠ queue.val → t.queue q = s.queue q) ∧
      t = { s with
          regs := t.regs, skein := t.skein, pcie := t.pcie, timers := t.timers, out := t.out, sched := t.sched }))

/-- R351 to R358, R365: the refill tick, the node and policer commands, and the due time of a frame of a deadline
lane. The model's choices in it: log entry 59. -/
def Obligations.NodesPolicersAndDueTimes : Prop :=
  (∀ s : State, SMap.wf nodeReset s.sched.nodes = true → SMap.wf polReset s.sched.pols = true →
    Answers .refillTick s (fun t =>
      (∀ k, 1 ≤ k / 2 ^ 20 → k / 2 ^ 20 ≤ 3 →
        (t.node k).cLevel = min ((s.node k).cLevel + ((s.node k).w1 * 8388608 / 1000000 : Nat)) ((s.node k).w2 * 65536 : Nat) ∧
        (t.node k).pLevel = min ((s.node k).pLevel + ((s.node k).w3 * 8388608 / 1000000 : Nat)) ((s.node k).w4 * 65536 : Nat) ∧
        (t.node k).cir = (s.node k).w1 ∧ (t.node k).pir = (s.node k).w3 ∧ (t.node k).ctrl = (s.node k).ctrl ∧
        (t.node k).deficit = (s.node k).deficit) ∧
      (∀ k, (k / 2 ^ 20 = 0 ∨ 3 < k / 2 ^ 20) → t.node k = s.node k) ∧
      (∀ n, (t.pol n).now = ((s.pol n).ctrl, (s.pol n).cir, (s.pol n).cbs, (s.pol n).eir, (s.pol n).ebs) ∧
        (t.pol n).tc = min ((s.pol n).tc + (s.pol n).cir * 8388608 / 1000000) ((s.pol n).cbs * 65536)) ∧
      t.cls.excTokens = min (s.cls.excTokens + s.get Pg.CLS CLS0.EXC_RATE_RATE * 1024)
        (max 1 (s.get Pg.CLS CLS0.EXC_RATE_BURST) * 10 ^ 9) ∧
      t = { s with
        cls := { s.cls with excTokens := t.cls.excTokens },
        sched := { s.sched with nodes := t.sched.nodes, pols := t.sched.pols } })) ∧
  (∀ (src : Source) (val : Word) (s : State), Granted src (Pg.SCHED + SCHED0.NODE_CMD.off) true s → val.toNat % 4 = 1 →
    Answers (.nodeRead src val) s (fun t =>
      let level := if 4 < s.get Pg.SCHED SCHED0.NODE_SEL_LEVEL then 0 else s.get Pg.SCHED SCHED0.NODE_SEL_LEVEL
      let idx := s.get Pg.SCHED SCHED0.NODE_SEL_INDEX + (if level = 0 then val.toNat / 16 % 2 * 65536 else 0)
      let d := Pg.SCHED + (SCHED0.NODE_DATA 0).off
      (if idx < levelCount level then
        t.get Pg.SCHED SCHED0.NODE_CMD_RESULT = 0 ∧ t.rdWords d 8 = s.nodeWords level idx
       else t.get Pg.SCHED SCHED0.NODE_CMD_RESULT = 2 ∧ t.rdWords d 8 = s.rdWords d 8) ∧
      t.bit Pg.SCHED ⟨HDR.PAGE_EVENT.off, 8, 1⟩ = true ∧ t = { s with regs := t.regs })) ∧
  (∀ (src : Source) (val : Word) (s : State), Granted src (Pg.SCHED + SCHED0.NODE_CMD.off) true s → val.toNat % 4 = 2 →
    Answers (.nodeWrite src val) s (fun t =>
      let level := if 4 < s.get Pg.SCHED SCHED0.NODE_SEL_LEVEL then 0 else s.get Pg.SCHED SCHED0.NODE_SEL_LEVEL
      let idx := s.get Pg.SCHED SCHED0.NODE_SEL_INDEX + (if level = 0 then val.toNat / 16 % 2 * 65536 else 0)
      let key := nodeKey level idx
      let w := fun k => (s.rd (Pg.SCHED + (SCHED0.NODE_DATA k).off)).toNat
      let ctrl := w 0 &&& ctrlMask level
      (levelCount level ≤ idx → t.get Pg.SCHED SCHED0.NODE_CMD_RESULT = 2 ∧ t.sched = s.sched) ∧
      (idx < levelCount level → s.nodeEn key = true → (ctrl ^^^ (s.node key).ctrl) &&& parentMask level ≠ 0 →
        t.get Pg.SCHED SCHED0.NODE_CMD_RESULT = 1 ∧ t.sched = s.sched) ∧
      (idx < levelCount level → (s.nodeEn key = false ∨ (ctrl ^^^ (s.node key).ctrl) &&& parentMask level = 0) →
        t.get Pg.SCHED SCHED0.NODE_CMD_RESULT = 0 ∧ (t.node key).ctrl = ctrl ∧
        (level ≠ 4 → (t.node key).w1 = w 1 ∧ (t.node key).w2 = w 2) ∧
        (1 ≤ level → level ≤ 3 → (t.node key).w3 = w 3 ∧ (t.node key).w4 = w 4) ∧
        (t.node key).cir = (s.node key).cir ∧ (t.node key).pir = (s.node key).pir ∧
        (t.node key).cLevel = (s.node key).cLevel ∧ (t.node key).pLevel = (s.node key).pLevel ∧
        (∀ k, k ≠ key → t.node k = s.node k)) ∧
      t.bit Pg.SCHED ⟨HDR.PAGE_EVENT.off, 8, 1⟩ = true ∧
      t = { s with
        regs := t.regs, mem := { s.mem with bad := t.mem.bad }, sched := { s.sched with nodes := t.sched.nodes } } ∧
      OnlyRegs [Pg.SCHED + SCHED0.NODE_CMD.off, Pg.SCHED + HDR.PAGE_EVENT.off] s t)) ∧
  (∀ (src : Source) (val : Word) (s : State), val.toNat % 4 = 0 ∨ val.toNat % 4 = 3 →
    (Granted src (Pg.SCHED + SCHED0.NODE_CMD.off) true s →
      ∀ i ∈ [Instr.nodeRead src val, .nodeWrite src val], Answers i s (fun t =>
        t = { s with regs := t.regs } ∧ OnlyRegs [Pg.SCHED + SCHED0.NODE_CMD.off] s t)) ∧
    (Granted src (Pg.METER + METER.POL_CMD.off) true s →
      ∀ i ∈ [Instr.polRead src val, .polWrite src val], Answers i s (fun t =>
        t = { s with regs := t.regs } ∧ OnlyRegs [Pg.METER + METER.POL_CMD.off] s t))) ∧
  (∀ (src : Source) (val : Word) (s : State), Granted src (Pg.METER + METER.POL_CMD.off) true s → val.toNat % 4 = 1 →
    Answers (.polRead src val) s (fun t =>
      t.get Pg.METER METER.POL_CMD_RESULT = 0 ∧
      t.rdWords (Pg.METER + (METER.POL_DATA 0).off) 8 = s.polWords (s.get Pg.METER METER.POL_SEL_INDEX) ∧
      t = { s with regs := t.regs })) ∧
  (∀ (src : Source) (val : Word) (s : State), Granted src (Pg.METER + METER.POL_CMD.off) true s → val.toNat % 4 = 2 →
    Answers (.polWrite src val) s (fun t =>
      let n := s.get Pg.METER METER.POL_SEL_INDEX
      let w := fun k => (s.rd (Pg.METER + (METER.POL_DATA k).off)).toNat
      t.get Pg.METER METER.POL_CMD_RESULT = 0 ∧
      t.pol n = { s.pol n with ctrl := w 0 % 32, cir := w 1, cbs := w 2, eir := w 3, ebs := w 4 } ∧
      (∀ m, m ≠ n → t.pol m = s.pol m) ∧
      t = { s with
        regs := t.regs, mem := { s.mem with bad := t.mem.bad }, sched := { s.sched with pols := t.sched.pols } } ∧
      OnlyRegs [Pg.METER + METER.POL_CMD.off] s t)) ∧
  (∀ (egress : Fin 129) (cl : Fin 8) (f : QFrame) (fs : List QFrame) (s : State),
    (egress.val = 128 ∨ SMap.get (fun _ => none) (s.up (Port.ofNum (s.servedAt egress.val / 64))).open_
      (s.servedAt egress.val % 64) = none) →
    s.lane egress.val = f :: fs → f.cls = cl.val → f.late = false → f.due ≤ s.clock.cnt →
    (∀ g ∈ fs, s.clock.cnt < g.due ∧ s.launchExpired g = false) →
    Answers (.deadlineDue egress) s (fun t =>
      t.get Pg.DEADLINE (DEADLINE.LATE cl.val) = satAdd32 (s.get Pg.DEADLINE (DEADLINE.LATE cl.val)) 1 ∧
      t.bit Pg.DEADLINE ⟨HDR.PAGE_EVENT.off, 8, 1⟩ = true ∧
      (if s.bit Pg.DEADLINE (DEADLINE.CLASS_POLICY cl.val) = true then
        t.lane egress.val = fs ∧ t.backlog egress.val cl.val = s.backlog egress.val cl.val - f.charge ∧
        t.get Pg.DEADLINE (DEADLINE.LATE_DROP cl.val) = satAdd32 (s.get Pg.DEADLINE (DEADLINE.LATE_DROP cl.val)) 1
       else t.lane egress.val = { f with late := true } :: fs ∧ t.backlog egress.val cl.val = s.backlog egress.val cl.val ∧
        t.out = s.out) ∧
      (∀ e, e ≠ egress.val → t.lane e = s.lane e) ∧ (∀ q, t.queue q = s.queue q) ∧
      t = { s with
          regs := t.regs, skein := t.skein, lineA := t.lineA, lineB := t.lineB, pcie := t.pcie, timers := t.timers,
          out := t.out, sched := t.sched }))

/-- R368 to R372: gate patterns. The model's choices in it: log entries 60 and 61. -/
def Obligations.GatePatterns : Prop :=
  (∀ (src : Source) (val : Word) (s : State), Granted src (Pg.PATTERN + PATTERN.CMD.off) true s → val.toNat % 4 = 1 →
    s.patSel ≤ 133 →
    Answers (.patternCommit src val) s (fun t =>
      let p := s.pattern s.patSel
      let len := s.get Pg.PATTERN PATTERN.LENGTH
      let cycle := s.get Pg.PATTERN PATTERN.CYCLE_NS
      let good := 0 < len ∧ len ≤ 1024 ∧ 0 < cycle ∧ cycle ≤ 10 ^ 9 ∧
        ∀ x ∈ bankEntries p.standby len, 0 < x.1 ∧ x.1 ≤ 10 ^ 9
      let lim := s.clock.cnt + 20000 * 2 ^ 40
      (∀ e, e ≠ s.patSel → t.pattern e = s.pattern e) ∧
      (¬ good → t.pattern s.patSel = { p with err := true } ∧
        t.get Pg.PATTERN PATTERN.PATTERN_ERRORS = satAdd32 (s.get Pg.PATTERN PATTERN.PATTERN_ERRORS) 1 ∧
        t.bit Pg.PATTERN ⟨HDR.PAGE_EVENT.off, 10, 1⟩ = true) ∧
      (good → ∃ g : Gates, t.pattern s.patSel = { p with err := false, late := decide (0 < g.n), pending := some g } ∧
        g.base = s.patBase ∧ g.cycle = cycle ∧ g.len = len ∧ g.start = g.base + g.n * cycle ∧ lim ≤ g.start * 2 ^ 40 ∧
        (0 < g.n → (g.start - cycle) * 2 ^ 40 < lim) ∧
        t.get Pg.PATTERN PATTERN.LATE_STARTS = (if 0 < g.n then satAdd32 (s.get Pg.PATTERN PATTERN.LATE_STARTS) 1
          else s.get Pg.PATTERN PATTERN.LATE_STARTS) ∧
        (0 < g.n → t.bit Pg.PATTERN ⟨HDR.PAGE_EVENT.off, 8, 1⟩ = true)) ∧
      t = { s with regs := t.regs, sched := { s.sched with patterns := t.sched.patterns } })) ∧
  (∀ (src : Source) (val : Word) (s : State), Granted src (Pg.PATTERN + PATTERN.CMD.off) true s → val.toNat % 4 = 2 →
    s.patSel ≤ 133 →
    Answers (.patternAbort src val) s (fun t =>
      t.pattern s.patSel = { s.pattern s.patSel with pending := none } ∧
      (∀ e, e ≠ s.patSel → t.pattern e = s.pattern e) ∧ t = { s with sched := { s.sched with patterns := t.sched.patterns } })) ∧
  (∀ (src : Source) (val : Word) (s : State), Granted src (Pg.PATTERN + PATTERN.CMD.off) true s →
    (133 < s.patSel ∨ val.toNat % 4 = 0 ∨ val.toNat % 4 = 3) →
    ∀ i ∈ [Instr.patternCommit src val, .patternAbort src val], Answers i s (fun t => t = s)) ∧
  (∀ (egress : Fin 134) (g : Gates) (s : State), (s.pattern egress.val).pending = some g →
    Answers (.patternStart egress) s (fun t =>
      (s.clock.cnt < g.start * 2 ^ 40 → t = s) ∧
      (g.start * 2 ^ 40 ≤ s.clock.cnt →
        (t.pattern egress.val).active = some { g with ents := bankEntries (s.pattern egress.val).standby g.len } ∧
        (t.pattern egress.val).pending = none ∧
        (t.pattern egress.val).bank = (s.pattern egress.val).standby ∧
        (t.pattern egress.val).standby = (s.pattern egress.val).bank ∧
        t.bit Pg.PATTERN ⟨HDR.PAGE_EVENT.off, 9, 1⟩ = true) ∧
      (∀ e, e ≠ egress.val → t.pattern e = s.pattern e) ∧
      t = { s with regs := t.regs, sched := { s.sched with patterns := t.sched.patterns } } ∧
      OnlyRegs [Pg.PATTERN + HDR.PAGE_EVENT.off] s t)) ∧
  (∀ (egress : Fin 134) (a : Gates) (s : State), (s.pattern egress.val).active = some a →
    Answers (.patternEntryAdvance egress) s (fun t =>
      let c := cycleFrom a.cycle a.ents
      let k := (t.pattern egress.val).entry
      let off := a.offset (s.clock.cnt / 2 ^ 40)
      ((c.take k).map (fun x => x.1)).sum ≤ off ∧ (k + 1 < c.length → off < ((c.take (k + 1)).map (fun x => x.1)).sum) ∧
      (c ≠ [] → k < c.length) ∧ t.pattern egress.val = { s.pattern egress.val with entry := k } ∧
      (∀ e, e ≠ egress.val → t.pattern e = s.pattern e) ∧ t = { s with sched := { s.sched with patterns := t.sched.patterns } })) ∧
  (∀ (src : Source) (val : Word) (s : State), Granted src (Pg.PATTERN + (PATTERN.ENT_DATA 1).off) true s → s.patSel ≤ 133 →
    Answers (.patternEntDataWrite src val) s (fun t =>
      let k := s.get Pg.PATTERN PATTERN.ENT_INDEX
      SMap.get (fun _ => (0, 0)) (t.pattern s.patSel).standby k =
        (s.get Pg.PATTERN (PATTERN.ENT_DATA 0) % 2 ^ 30, val.toNat % 256) ∧
      (∀ m, m ≠ k → SMap.get (fun _ => (0, 0)) (t.pattern s.patSel).standby m =
        SMap.get (fun _ => (0, 0)) (s.pattern s.patSel).standby m) ∧
      t.get Pg.PATTERN PATTERN.ENT_INDEX = (k + 1) % 1024 ∧
      t.pattern s.patSel = { s.pattern s.patSel with standby := (t.pattern s.patSel).standby } ∧
      (∀ e, e ≠ s.patSel → t.pattern e = s.pattern e) ∧
      t = { s with regs := t.regs, sched := { s.sched with patterns := t.sched.patterns } } ∧
      OnlyRegs [Pg.PATTERN + PATTERN.ENT_INDEX.off, Pg.PATTERN + (PATTERN.ENT_DATA 1).off] s t))

/-! ### Buffer pools, memory and darning (chapter 13) -/

/-- R376 to R378, R383, R386: pools enabled, initialised, disabled and drained; allocations by the producers. The
model's choices in it: log entry 62. -/
def Obligations.PoolsAndAllocations : Prop :=
  (∀ (src : Source) (pool : Fin 16) (val : Word) (s : State), Granted src (Pg.SKEIN + (SKEIN.POOL_CTRL pool.val).off) true s →
    2 ^ 31 ≤ val.toNat → s.poolEn pool.val = false → (s.pool pool.val).draining = false →
    ∀ i ∈ [Instr.poolEnable src pool val, .poolDisable src pool val], Answers i s (fun t =>
      let a := Pg.SKEIN + (SKEIN.POOL_CTRL pool.val).off
      (if ((s.storeReg a val).set Pg.SKEIN (SKEIN.POOL_CTRL_EN pool.val) 0).poolFits pool.val src = true then
        t.poolEn pool.val = true ∧ t.pool pool.val = ⟨false, true, [], []⟩ ∧ t.poolFree pool.val = 0 ∧
        (∀ q, q ≠ pool.val → t.pool q = s.pool q)
       else t.poolEn pool.val = false ∧ t.skein = s.skein ∧ t.mem = s.mem ∧
        t.bit Pg.SKEIN ⟨HDR.PAGE_EVENT.off, 12, 1⟩ = true) ∧
      t = { s with
        regs := t.regs, skein := { s.skein with pools := t.skein.pools }, mem := { s.mem with bad := t.mem.bad } } ∧
      OnlyRegs [a, a + 0x10, a + 0x14, Pg.SKEIN + HDR.PAGE_EVENT.off] s t)) ∧
  (∀ (src : Source) (pool : Fin 16) (val : Word) (s : State), Granted src (Pg.SKEIN + (SKEIN.POOL_CTRL pool.val).off) true s →
    2 ^ 31 ≤ val.toNat → s.poolEn pool.val = true →
    (SKEIN.POOL_CTRL_SIZE pool.val).get val ≠ s.get Pg.SKEIN (SKEIN.POOL_CTRL_SIZE pool.val) →
    ∀ i ∈ [Instr.poolEnable src pool val, .poolDisable src pool val], Answers i s
      (RejectedTo src Pg.SKEIN Reason.locked.code true (Pg.SKEIN + (SKEIN.POOL_CTRL pool.val).off) s)) ∧
  (∀ (pool : Fin 16) (s : State), (s.pool pool.val).init = true →
    Answers (.poolInitDone pool) s (fun t =>
      t.poolFree pool.val = s.poolCount pool.val ∧ t.get Pg.SKEIN (SKEIN.POOL_MIN_FREE pool.val) = s.poolCount pool.val ∧
      t.pool pool.val = { s.pool pool.val with init := false } ∧ (∀ q, q ≠ pool.val → t.pool q = s.pool q) ∧
      t = { s with regs := t.regs, skein := { s.skein with pools := t.skein.pools } })) ∧
  (∀ (src : Source) (pool : Fin 16) (val : Word) (s : State), Granted src (Pg.SKEIN + (SKEIN.POOL_CTRL pool.val).off) true s →
    val.toNat < 2 ^ 31 → s.poolEn pool.val = true →
    (SKEIN.POOL_CTRL_LOC pool.val).get val = s.get Pg.SKEIN (SKEIN.POOL_CTRL_LOC pool.val) →
    (SKEIN.POOL_CTRL_SIZE pool.val).get val = s.get Pg.SKEIN (SKEIN.POOL_CTRL_SIZE pool.val) →
    (SKEIN.POOL_CTRL_BM_BASE pool.val).get val = s.get Pg.SKEIN (SKEIN.POOL_CTRL_BM_BASE pool.val) →
    ∀ i ∈ [Instr.poolDisable src pool val, .poolEnable src pool val], Answers i s (fun t =>
      t.poolEn pool.val = false ∧
      t.pool pool.val = (if s.poolFree pool.val < s.poolCount pool.val then { s.pool pool.val with draining := true }
        else s.pool pool.val) ∧
      (∀ q, q ≠ pool.val → t.pool q = s.pool q) ∧
      t = { s with regs := t.regs, skein := { s.skein with pools := t.skein.pools } } ∧
      OnlyRegs [Pg.SKEIN + (SKEIN.POOL_CTRL pool.val).off] s t)) ∧
  (∀ (pool : Fin 16) (s : State), (s.pool pool.val).draining = true → s.poolFree pool.val = s.poolCount pool.val →
    Answers (.poolDrainEnd pool) s (fun t =>
      t.pool pool.val = { s.pool pool.val with draining := false } ∧ (∀ q, q ≠ pool.val → t.pool q = s.pool q) ∧
      t = { s with skein := { s.skein with pools := t.skein.pools } })) ∧
  (∀ (producer : Fin 10) (bytes : Fin 16385) (s : State), s.poolEn (s.prod producer.val % 16) = true →
    (s.pool (s.prod producer.val % 16)).draining = false → 0 < s.poolFree (s.prod producer.val % 16) →
    Answers (.allocation producer bytes) s (fun t =>
      let p := s.prod producer.val % 16
      let i := lowestGap ((s.pool p).used.map (fun kv => kv.1)) 0
      let g := SMap.get (fun _ => 0) (s.pool p).gens i
      let n := min bytes.val (s.poolSize p)
      let spill := producer.val < 9 ∧ s.bit Pg.SKEIN (SKEIN.POOL_CTRL_LOC p) = true
      (¬ spill ∨ n ≤ s.skein.tokens →
        t.skein.answer = (0, mkHandle p i g) ∧
        SMap.get (fun _ => none) (t.pool p).used i = some (prodOwner producer.val, g) ∧
        t.poolFree p = s.poolFree p - 1 ∧
        t.get Pg.SKEIN (SKEIN.POOL_MIN_FREE p) = min (s.get Pg.SKEIN (SKEIN.POOL_MIN_FREE p)) (s.poolFree p - 1) ∧
        (∀ q, q ≠ p → t.pool q = s.pool q) ∧
        (spill → t.skein.tokens = s.skein.tokens - n ∧
          t.get64 Pg.SKEIN SKEIN.SPILL_BYTES_LO = wrapAdd64 (s.get64 Pg.SKEIN SKEIN.SPILL_BYTES_LO) n) ∧
        (¬ spill → t.skein.tokens = s.skein.tokens)) ∧
      (spill → s.skein.tokens < n → s.prod producer.val / 2 ^ 15 % 2 = 0 →
        t.skein.answer.1 = 1 ∧ t.skein.pools = s.skein.pools ∧
        t.get Pg.SKEIN SKEIN.SPILL_REFUSED = satAdd32 (s.get Pg.SKEIN SKEIN.SPILL_REFUSED) 1) ∧
      t = { s with regs := t.regs, skein := t.skein })) ∧
  (∀ (producer : Fin 10) (bytes : Fin 16385) (s : State),
    (s.poolEn (s.prod producer.val % 16) = false ∨ (s.pool (s.prod producer.val % 16)).draining = true) →
    (9 ≤ producer.val ∨ s.bit Pg.SKEIN (SKEIN.POOL_CTRL_LOC (s.prod producer.val % 16)) = false) →
    Answers (.allocation producer bytes) s (fun t =>
      t.skein.answer = (2, 0) ∧ t = { s with skein := { s.skein with answer := (2, 0) } })) ∧
  (∀ s : State,
    Answers .spillTick s (fun t => t = { s with skein := { s.skein with tokens := min 65536 (s.skein.tokens + 51200) } }))

/-- R380, R387 to R389, R392, R393: frees and handovers by units and by the host. The model's choices in it: log
entry 62. -/
def Obligations.FreesAndHandovers : Prop :=
  (∀ (src : Source) (o : Nat) (s : State), Granted src (Pg.SKEIN + SKEIN.ALLOC_LO.off) false s →
    s.skeinOwner src = some o →
    s.poolEn ((s.srcReg (Pg.SKEIN + SKEIN.ALLOC_SEL.off) src).toNat % 16) = true →
    (s.pool ((s.srcReg (Pg.SKEIN + SKEIN.ALLOC_SEL.off) src).toNat % 16)).draining = false →
    0 < s.poolFree ((s.srcReg (Pg.SKEIN + SKEIN.ALLOC_SEL.off) src).toNat % 16) →
    Answers (.allocLoRead src) s (fun t =>
      let p := (s.srcReg (Pg.SKEIN + SKEIN.ALLOC_SEL.off) src).toNat % 16
      let i := lowestGap ((s.pool p).used.map (fun kv => kv.1)) 0
      let g := SMap.get (fun _ => 0) (s.pool p).gens i
      t.rdata = BitVec.ofNat 32 (mkHandle p i g) ∧ SMap.get (fun _ => none) (t.pool p).used i = some (o, g) ∧
      t.poolFree p = s.poolFree p - 1 ∧
      SMap.get latchReset t.latches (latchKey (Pg.SKEIN + SKEIN.ALLOC_LO.off) src) =
        ⟨some ((Pg.SKEIN + SKEIN.ALLOC_LO.off) % 0x1000), BitVec.ofNat 32 (handlePool (mkHandle p i g))⟩ ∧
      t = { s with regs := t.regs, latches := t.latches, rdata := t.rdata, skein := { s.skein with pools := t.skein.pools } })) ∧
  (∀ (src : Source) (s : State), Granted src (Pg.SKEIN + SKEIN.ALLOC_LO.off) false s → s.skeinOwner src = none →
    Answers (.allocLoRead src) s (fun t =>
      t.rdata = 0 ∧
      SMap.get latchReset t.latches (latchKey (Pg.SKEIN + SKEIN.ALLOC_LO.off) src) =
        ⟨some ((Pg.SKEIN + SKEIN.ALLOC_LO.off) % 0x1000), BitVec.ofNat 32 (3 * 2 ^ 28)⟩ ∧
      t = { s with latches := t.latches, rdata := t.rdata })) ∧
  (∀ (src : Source) (val : Word) (o : Nat) (s : State), Granted src (Pg.SKEIN + SKEIN.FREE_HI.off) true s →
    s.skeinOwner src = some o →
    Answers (.freeHiWrite src val) s (fun t =>
      let h := (s.stagedLo src (Pg.SKEIN + SKEIN.FREE_HI.off)).toNat + val.toNat % 16 * 2 ^ 32
      let i := handleIndex h
      let r := s.checkHandle o h
      t.srcReg (Pg.SKEIN + SKEIN.FREE_RSP.off) src = BitVec.ofNat 32 r.1 ∧
      (r.1 = 0 → s.heldBuf (handlePool h) i = false →
        SMap.get (fun _ => none) (t.pool (handlePool h)).used i = none ∧
        SMap.get (fun _ => 0) (t.pool (handlePool h)).gens i = (handleGen h + 1) % 256 ∧
        t.poolFree (handlePool h) = (s.poolFree (handlePool h) + 1) % 2 ^ 25) ∧
      (r.1 ≠ 0 → t.skein = s.skein ∧
        t.get Pg.SKEIN SKEIN.FREE_OF_FREE = (if r.1 = 4 then satAdd32 (s.get Pg.SKEIN SKEIN.FREE_OF_FREE) 1
          else s.get Pg.SKEIN SKEIN.FREE_OF_FREE) ∧
        t.get Pg.SKEIN SKEIN.FREE_NOT_OWNER = (if r.1 = 5 then satAdd32 (s.get Pg.SKEIN SKEIN.FREE_NOT_OWNER) 1
          else s.get Pg.SKEIN SKEIN.FREE_NOT_OWNER) ∧
        t.get Pg.SKEIN SKEIN.STALE_HANDLE = (if r.1 = 6 then satAdd32 (s.get Pg.SKEIN SKEIN.STALE_HANDLE) 1
          else s.get Pg.SKEIN SKEIN.STALE_HANDLE)) ∧
      t = { s with
        regs := t.regs, staging := t.staging, perSrc := t.perSrc, skein := { s.skein with pools := t.skein.pools } })) ∧
  (∀ (src : Source) (val : Word) (s : State), Granted src (Pg.SKEIN + SKEIN.FREE_HI.off) true s → s.skeinOwner src = none →
    Answers (.freeHiWrite src val) s (fun t =>
      t.srcReg (Pg.SKEIN + SKEIN.FREE_RSP.off) src = 3 ∧ t = { s with staging := t.staging, perSrc := t.perSrc })) ∧
  (∀ (caller : Fin 64) (handle : BitVec 40) (o : Nat) (s : State), s.checkHandle caller.val handle.toNat = (0, o) →
    s.heldBuf (handlePool handle.toNat) (handleIndex handle.toNat) = false →
    Answers (.freeBuffer caller handle) s (fun t =>
      let h := handle.toNat
      t.skein.answer = (0, h) ∧ SMap.get (fun _ => none) (t.pool (handlePool h)).used (handleIndex h) = none ∧
      SMap.get (fun _ => 0) (t.pool (handlePool h)).gens (handleIndex h) = (handleGen h + 1) % 256 ∧
      t.poolFree (handlePool h) = (s.poolFree (handlePool h) + 1) % 2 ^ 25 ∧
      (∀ q, q ≠ handlePool h → t.pool q = s.pool q) ∧ t = { s with regs := t.regs, skein := t.skein })) ∧
  (∀ (caller : Fin 64) (handle : BitVec 40) (to_ : Fin 64) (o : Nat) (s : State),
    s.checkHandle caller.val handle.toNat = (0, o) →
    Answers (.handover caller handle to_) s (fun t =>
      let h := handle.toNat
      t.skein.answer = (0, h) ∧
      SMap.get (fun _ => none) (t.pool (handlePool h)).used (handleIndex h) = some (to_.val, handleGen h) ∧
      (∀ i, i ≠ handleIndex h → SMap.get (fun _ => none) (t.pool (handlePool h)).used i =
        SMap.get (fun _ => none) (s.pool (handlePool h)).used i) ∧
      (∀ q, q ≠ handlePool h → t.pool q = s.pool q) ∧ t = { s with skein := t.skein })) ∧
  (∀ (caller : Fin 64) (handle : BitVec 40) (r o : Nat) (f : Fn) (s : State),
    s.checkHandle caller.val handle.toNat = (r, o) → r ≠ 0 → ownerFn caller.val = some f → s.fnIs f .off = false →
    s.fnIs f .fault = false →
    Answers (.freeBuffer caller handle) s (fun t => t.fn f = ⟨.fault, false, 4⟩ ∧ (∀ g : Fn, g.num ≠ f.num → t.fn g = s.fn g)) ∧
    ∀ to_, Answers (.handover caller handle to_) s (fun t =>
      t.fn f = ⟨.fault, false, 4⟩ ∧ (∀ g : Fn, g.num ≠ f.num → t.fn g = s.fn g))) ∧
  (∀ (caller : Fin 64) (handle : BitVec 40) (r o : Nat) (s : State), s.checkHandle caller.val handle.toNat = (r, o) → r ≠ 0 →
    ownerFn caller.val = none →
    Answers (.freeBuffer caller handle) s (fun t =>
      t.skein = { s.skein with answer := (r, handle.toNat) } ∧
      t.rd (Pg.SKEIN + SKEIN.VIOL_INDEX.off) = BitVec.ofNat 32 handle.toNat ∧
      t.get Pg.SKEIN SKEIN.VIOL_INFO_CALLER = caller.val ∧ t.get Pg.SKEIN SKEIN.VIOL_INFO_HANDOVER = 0 ∧
      t = { s with regs := t.regs, skein := t.skein }))

/-- R396, R400 to R404: the patrols and darning. The model's choices in it: log entries 75 and 62. -/
def Obligations.PatrolsAndDarning : Prop :=
  (∀ (rows : Nat) (s : State), s.bit Pg.MEM MEM0.SCRUB_EN = true → s.mem.flips = [] → s.mem.poison = [] →
    Answers (.patrolScrub [] rows) s (fun t =>
      let pos := s.get Pg.MEM MEM0.SCRUB_POS
      t.get Pg.MEM MEM0.SCRUB_POS = (pos + rows) % s.patrolRows % 2 ^ 25 ∧
      (if s.patrolRows ≤ pos + rows then
        t.mem.corrected = [] ∧ t.get Pg.MEM MEM1.SCRUB_PASSES =
          satAdd32 (s.get Pg.MEM MEM1.SCRUB_PASSES) ((pos + rows) / s.patrolRows)
       else t.mem = s.mem ∧ t.get Pg.MEM MEM1.SCRUB_PASSES = s.get Pg.MEM MEM1.SCRUB_PASSES) ∧
      t = { s with regs := t.regs, mem := { s.mem with corrected := t.mem.corrected } } ∧
      OnlyRegs [Pg.MEM + MEM0.SCRUB_POS.off, Pg.MEM + MEM1.SCRUB_PASSES.off] s t)) ∧
  (∀ (off rows row : Nat) (s : State), s.bit Pg.MEM MEM0.SCRUB_EN = true → off < 256 → 0 < rows → s.mem.flips = [] →
    s.rowAt (s.get Pg.MEM MEM0.SCRUB_POS % s.patrolRows) = some row →
    Answers (.patrolScrub [(off, .three)] rows) s (fun t =>
      let ch := s.arrayRow row % 16
      t.poisoned (row * 256 + off) = true ∧ t.get Pg.MEM (MEM1.UE ch) = satAdd32 (s.get Pg.MEM (MEM1.UE ch)) 1 ∧
      t.bit Pg.MEM ⟨HDR.PAGE_EVENT.off, 9, 1⟩ = true ∧ t.mem.data = s.mem.data ∧ t.mem.flips = [] ∧
      t = { s with
          regs := t.regs, evtAt := t.evtAt, cls := t.cls, skein := t.skein, mem := t.mem, sched := t.sched,
          siteWake := t.siteWake })) ∧
  (∀ (off rows row : Nat) (s : State), s.bit Pg.MEM MEM0.SCRUB_EN = true → off < 256 → 0 < rows →
    s.get Pg.MEM MEM0.SCRUB_POS + rows < s.patrolRows → s.rowAt (s.get Pg.MEM MEM0.SCRUB_POS) = some row →
    s.mem.flips = [] →
    Answers (.patrolScrub [(off, .one)] rows) s (fun t =>
      let r := s.arrayRow row
      t.get Pg.MEM (MEM1.CE (r % 16)) = satAdd32 (s.get Pg.MEM (MEM1.CE (r % 16))) 1 ∧
      SMap.get (fun _ => 0) t.mem.corrected r = SMap.get (fun _ => 0) s.mem.corrected r + 1 ∧
      t.mem.poison = s.mem.poison ∧ t.mem.data = s.mem.data ∧ t.mem.flips = [] ∧
      t = { s with
          regs := t.regs, evtAt := t.evtAt, cls := t.cls, skein := t.skein, mem := t.mem, sched := t.sched,
          siteWake := t.siteWake })) ∧
  (∀ (off row : Nat) (n : Fin 4) (s : State), s.bit Pg.MEM MEM0.SCRUB_EN = true → off < 256 → s.mem.flips = [] → s.mem.poison = [] →
    s.rowAt ((s.get Pg.MEM MEM0.SCRUB_POS + n.val) % s.patrolRows) = some row → s.get Pg.MEM MEM0.SCRUB_POS + n.val < s.patrolRows →
    Answers (.patrolScrub [(n.val * 256 + off, .two)] n.val) s (fun t =>
      t.flipsAt (row * 256 + off) = 2 ∧ t.mem = { s.mem with flips := t.mem.flips } ∧
      OnlyRegs [Pg.MEM + MEM0.SCRUB_POS.off] s t ∧
      t = { s with
          regs := t.regs, evtAt := t.evtAt, cls := t.cls, skein := t.skein, mem := t.mem, sched := t.sched,
          siteWake := t.siteWake })) ∧
  (∀ (corrected : Nat) (s : State),
    Answers (.sramPatrol corrected []) s (fun t =>
      t.get Pg.MEM MEM1.SRAM_CE = satAdd32 (s.get Pg.MEM MEM1.SRAM_CE) corrected ∧ t = { s with regs := t.regs } ∧
      OnlyRegs [Pg.MEM + MEM1.SRAM_CE.off] s t)) ∧
  (∀ (corrected : Nat) (n : Fin 8192) (secded : Bool) (word : BitVec 24) (s : State),
    Answers (.sramPatrol corrected [(.rule n, secded, word)]) s (fun t =>
      t.get Pg.MEM MEM1.SRAM_UE = satAdd32 (s.get Pg.MEM MEM1.SRAM_UE) 1 ∧
      t.get Pg.MEM MEM0.SRAM_ERR_TYPE = (if secded then 5 else 3) ∧ t.get Pg.MEM MEM0.SRAM_ERR_WORD = word.toNat ∧
      t.bit Pg.MEM ⟨HDR.PAGE_EVENT.off, 10, 1⟩ = true ∧ t.rule n.val = none ∧ (∀ m, m ≠ n.val → t.rule m = s.rule m) ∧
      t = { s with regs := t.regs, mem := { s.mem with bad := t.mem.bad } })) ∧
  (∀ (src : Source) (val : Word) (s : State), Granted src (Pg.DARN + DARN.CMD.off) true s → DARN.CMD_OP.get val = 1 →
    s.bit Pg.DARN DARN.STAT_BUSY = false →
    Answers (.remap src val) s (fun t =>
      let row := DARN.CMD_ROW.get val
      (if row < 24995904 ∧ s.mem.used < 4096 then
        t.bit Pg.DARN DARN.STAT_BUSY = true ∧ t.get Pg.DARN DARN.STAT_USED = s.mem.used + 1 ∧
        t.mem = { s.mem with
          copy := some (row, s.mem.used, false), used := s.mem.used + 1, record := s.mem.record ++ [row] }
       else t.bit Pg.DARN DARN.STAT_BUSY = false ∧ t.mem = s.mem ∧
        t.get Pg.DARN DARN.STAT_RESULT = (if row < 24995904 then 1 else 2)) ∧
      t = { s with regs := t.regs, mem := t.mem } ∧ OnlyRegs [Pg.DARN + DARN.STAT.off] s t)) ∧
  (∀ (src : Source) (val : Word) (s : State), Granted src (Pg.DARN + DARN.CMD.off) true s → DARN.CMD_OP.get val = 2 →
    s.bit Pg.DARN DARN.STAT_BUSY = false →
    Answers (.darnQuery src val) s (fun t =>
      let row := DARN.CMD_ROW.get val
      (match SMap.get (fun _ => 0) s.mem.darned row with
       | 0 => t.get Pg.DARN DARN.STAT_RESULT = 3 ∧ t.get Pg.DARN DARN.LAST = s.get Pg.DARN DARN.LAST
       | k + 1 => t.get Pg.DARN DARN.STAT_RESULT = 0 ∧ t.get Pg.DARN DARN.LAST = k % 2 ^ 12 ∧
         t.get Pg.DARN DARN.DARN_ROW = row) ∧
      t = { s with regs := t.regs } ∧
      OnlyRegs [Pg.DARN + DARN.STAT.off, Pg.DARN + DARN.LAST.off, Pg.DARN + DARN.DARN_ROW.off] s t)) ∧
  (∀ (src : Source) (val : Word) (s : State), Granted src (Pg.DARN + DARN.CMD.off) true s →
    ∀ i ∈ [Instr.remap src val, .darnQuery src val],
    (s.bit Pg.DARN DARN.STAT_BUSY = true →
      Answers i s (RejectedTo src Pg.DARN Reason.locked.code true (Pg.DARN + DARN.CMD.off) s)) ∧
    (s.bit Pg.DARN DARN.STAT_BUSY = false → DARN.CMD_OP.get val ≠ 1 → DARN.CMD_OP.get val ≠ 2 → Answers i s (fun t => t = s))) ∧
  (∀ (row spare : Nat) (auto : Bool) (s : State), s.mem.copy = some (row, spare, auto) → s.mem.autoDue = [] →
    s.mem.flips = [] →
    Answers .darnCopyDone s (fun t =>
      SMap.get (fun _ => 0) t.mem.darned row = spare + 1 ∧
      (∀ r, r ≠ row → SMap.get (fun _ => 0) t.mem.darned r = SMap.get (fun _ => 0) s.mem.darned r) ∧
      t.mem = { s.mem with copy := none, darned := t.mem.darned } ∧ t.bit Pg.DARN DARN.STAT_BUSY = false ∧
      t.get Pg.DARN DARN.STAT_RESULT = 0 ∧ t.get Pg.DARN DARN.DARNED = satAdd32 (s.get Pg.DARN DARN.DARNED) 1 ∧
      t.get Pg.DARN DARN.AUTO_DARNED = (if auto then satAdd32 (s.get Pg.DARN DARN.AUTO_DARNED) 1
        else s.get Pg.DARN DARN.AUTO_DARNED) ∧
      t.bit Pg.DARN ⟨HDR.PAGE_EVENT.off, 8, 1⟩ = true ∧ t = { s with regs := t.regs, mem := t.mem }))

/-! ### The host interface (chapter 14) -/

/-- R412 to R419, R431: windows, features, endpoint ranges and contexts, and the link. The model's choices in it:
log entries 75, 64, 26 and 13. -/
def Obligations.HostContextsAndLink : Prop :=
  (∀ (func : Fin 254) (offset : Nat) (n : Fin 65) (bs : List Byte) (s : State), 1 ≤ bs.length → bs.length ≤ 64 →
    offset + bs.length ≤ (if func.val < 2 then 2 ^ 28 else 2 ^ 24) → 0x40000000 ≤ (s.fnHost func.val).win + offset →
    (s.fnHost func.val).win + offset + bs.length ≤ usableMem →
    Answers (.bar4Access func offset n (some bs)) s (fun t =>
      let a := (s.fnHost func.val).win + offset
      t.pcie = { s.pcie with bar4 := (0, []) } ∧ t.memBytes a bs.length = bs ∧
      (∀ x, (x < a ∨ a + bs.length ≤ x) → t.memByte x = s.memByte x) ∧
      (∀ w, a ≤ w * 8 → w * 8 + 8 ≤ a + bs.length → t.poisoned w = false ∧ t.flipsAt w = 0) ∧
      t.mem.writeBack = s.mem.writeBack.filter (fun e => !(wordsTouched a bs.length).contains e.1) ∧
      (s.mem.flips = [] → (∀ w, s.poisoned w = false → t.poisoned w = false) ∧
        t = { s with
          regs := t.regs, pcie := t.pcie,
          mem := { s.mem with data := t.mem.data, poison := t.mem.poison, writeBack := t.mem.writeBack } } ∧
        OnlyRegs [Pg.MEM + MEM1.PARTIAL_POISON.off] s t) ∧
        t = { s with
            regs := t.regs, evtAt := t.evtAt, cls := t.cls, skein := t.skein, mem := t.mem, pcie := t.pcie,
            sched := t.sched, siteWake := t.siteWake })) ∧
  (∀ (func : Fin 254) (offset : Nat) (n : Fin 65) (s : State), 1 ≤ n.val →
    offset + n.val ≤ (if func.val < 2 then 2 ^ 28 else 2 ^ 24) → 0x40000000 ≤ (s.fnHost func.val).win + offset →
    (s.fnHost func.val).win + offset + n.val ≤ usableMem →
    Answers (.bar4Access func offset n none) s (fun t =>
      let a := (s.fnHost func.val).win + offset
      t.pcie = { s.pcie with
        bar4 := (if (wordsTouched a n.val).any s.poisoned then 2 else 0, s.memBytes a n.val) } ∧
      t.mem = s.mem ∧ t = { s with regs := t.regs, pcie := t.pcie } ∧ OnlyPages [Pg.MEM, Pg.MEM + 0x1000] s t)) ∧
  (∀ (func : Fin 254) (offset : Nat) (n : Fin 65) (s : State), 1 ≤ n.val →
    offset + n.val ≤ (if func.val < 2 then 2 ^ 28 else 2 ^ 24) → 0x40000000 ≤ (s.fnHost func.val).win + offset →
    (s.fnHost func.val).win + offset + n.val ≤ usableMem → ((s.fnHost func.val).win + offset) % 8 + n.val ≤ 8 →
    1 ≤ s.flipsAt (((s.fnHost func.val).win + offset) / 8) →
    Answers (.bar4Access func offset n none) s (fun t =>
      let a := (s.fnHost func.val).win + offset
      let w := a / 8
      let r := s.arrayRow (w / 256)
      let k := s.flipsAt w
      t.mem.data = s.mem.data ∧
      t.pcie = { s.pcie with bar4 := (if 3 ≤ k ∨ s.poisoned w = true then 2 else 0, s.memBytes a n.val) } ∧
      (k < 3 → t.get Pg.MEM (MEM1.CE (r % 16)) = satAdd32 (s.get Pg.MEM (MEM1.CE (r % 16))) 1 ∧
        SMap.get (fun _ => 0) t.mem.corrected r = SMap.get (fun _ => 0) s.mem.corrected r + 1 ∧
        t.mem.poison = s.mem.poison ∧ t.mem.flips = s.mem.flips ∧
        t.mem.writeBack = (if s.bit Pg.MEM MEM0.ECC_CTRL = true then
          s.mem.writeBack.filter (fun e => !decide (e.1 = w)) ++ [(w, s.memBytes (w * 8) 8)] else s.mem.writeBack)) ∧
      (3 ≤ k → t.get Pg.MEM (MEM1.UE (r % 16)) = satAdd32 (s.get Pg.MEM (MEM1.UE (r % 16))) 1 ∧ t.poisoned w = true ∧
        t.flipsAt w = 0 ∧ t.mem.writeBack = s.mem.writeBack ∧ t.bit Pg.MEM ⟨HDR.PAGE_EVENT.off, 9, 1⟩ = true) ∧
      t = { s with
          regs := t.regs, evtAt := t.evtAt, cls := t.cls, skein := t.skein, mem := t.mem, pcie := t.pcie,
          sched := t.sched, siteWake := t.siteWake })) ∧
  (∀ (func : Fin 254) (offset : Nat) (n : Fin 65) (wr : Option (List Byte)) (s : State),
    (wr.elim n.val List.length = 0 ∨ 64 < wr.elim n.val List.length ∨
      (if func.val < 2 then 2 ^ 28 else 2 ^ 24) < offset + wr.elim n.val List.length) →
    Answers (.bar4Access func offset n wr) s (fun t => t = s)) ∧
  (∀ (func : Fin 254) (offset : Nat) (n : Fin 65) (wr : Option (List Byte)) (s : State),
    1 ≤ wr.elim n.val List.length → wr.elim n.val List.length ≤ 64 →
    offset + wr.elim n.val List.length ≤ (if func.val < 2 then 2 ^ 28 else 2 ^ 24) →
    ((s.fnHost func.val).win + offset < 0x40000000 ∨
      usableMem < (s.fnHost func.val).win + offset + wr.elim n.val List.length) →
    Answers (.bar4Access func offset n wr) s (fun t => t = { s with pcie := { s.pcie with bar4 := (1, []) } })) ∧
  (∀ (src : Source) (val : Word) (s : State), Granted src (Pg.DEV + DEV.FEAT_COMMIT.off) true s → val.toNat % 2 = 1 →
    Answers (.featCommit src val) s (fun t =>
      (if s.featRefusal = 0 then
        t.rd (Pg.DEV + 0x170) = s.rd (Pg.DEV + 0x150) &&& BitVec.ofNat 32 s.featOffer ∧
        t.bit Pg.DEV DEV.FEAT_STAT_COMMITTED = true ∧ t.get Pg.DEV DEV.FEAT_STAT_ERR = 0
       else t.get Pg.DEV DEV.FEAT_STAT_ERR = s.featRefusal ∧
        t.bit Pg.DEV DEV.FEAT_STAT_COMMITTED = s.bit Pg.DEV DEV.FEAT_STAT_COMMITTED ∧
        t.rd (Pg.DEV + 0x170) = s.rd (Pg.DEV + 0x170)) ∧
      t = { s with regs := t.regs } ∧ OnlyPages [Pg.DEV] s t)) ∧
  (∀ (src : Source) (val : Word) (s : State), Granted src (Pg.HQ + HQ0.FN_QCOUNT.off) true s →
    s.rangeOpen s.fnSel = true →
    Answers (.fnQcountWrite src val) s (fun t =>
      let x := s.fnHost s.fnSel
      let n := val.toNat % 2 ^ 18
      t.fnHost s.fnSel = (if s.rangeFits s.fnSel x.qbaseStaged n then
          { x with qbase := x.qbaseStaged, qcount := n, qerr := false }
        else { x with qerr := true }) ∧
      (∀ f, f ≠ s.fnSel → t.fnHost f = s.fnHost f) ∧ t = { s with pcie := { s.pcie with fns := t.pcie.fns } })) ∧
  (∀ (src : Source) (val : Word) (s : State), Granted src (Pg.HQ + HQ0.FN_QCOUNT.off) true s →
    s.rangeOpen s.fnSel = false →
    Answers (.fnQcountWrite src val) s
      (RejectedTo src Pg.HQ Reason.offOnly.code true (Pg.HQ + HQ0.FN_QCOUNT.off) s)) ∧
  (∀ (src : Source) (val : Word) (s : State), Granted src (Pg.HQ + HQ0.EP_CMD.off) true s → val.toNat % 4 = 1 →
    ∀ i ∈ [Instr.epRead src val, .epWrite src val], Answers i s (fun t =>
      (match s.epSelected src with
       | none => t.srcReg (Pg.HQ + HQ0.EP_CMD.off) src = BitVec.ofNat 32 (2 * 2 ^ 8)
       | some q => t.srcReg (Pg.HQ + HQ0.EP_CMD.off) src = 0 ∧
         t.staged (Pg.HQ + (HQ0.EP_DATA 0).off) src 16 = (s.ep q).words) ∧
      t = { s with perSrc := t.perSrc })) ∧
  (∀ (src : Source) (val : Word) (q ctrl irq tim sq rq cq : Nat) (s : State), Granted src (Pg.HQ + HQ0.EP_CMD.off) true s →
    val.toNat % 4 = 2 → s.epSelected src = some q →
    epFields (s.staged (Pg.HQ + (HQ0.EP_DATA 0).off) src 16) = (ctrl, irq, tim, sq, rq, cq) →
    ∀ i ∈ [Instr.epWrite src val, .epRead src val], Answers i s (fun t =>
      let e := s.ep q
      let lim := if s.feat 1 then 10 else 9
      let same := ctrl % 2 ^ 31 = e.ctrl % 2 ^ 31 ∧ sq = e.sqBase ∧ rq = e.rqBase ∧ cq = e.cqBase
      let vec := irq / 2 ^ 16 % 2 ^ 11 < (if s.epRange src < 2 then 2048 else 8)
      let lay := ctrl / 2 ^ 8 % 16 ≤ lim ∧ ctrl / 2 ^ 4 % 16 ≤ lim ∧ ctrl % 16 ≤ lim ∧
        sq % 4096 = 0 ∧ rq % 4096 = 0 ∧ cq % 4096 = 0
      let fields := { e with ctrl := ctrl, irq := irq, modTimer := tim, sqBase := sq, rqBase := rq, cqBase := cq }
      (e.en = true → ¬ same → t.srcReg (Pg.HQ + HQ0.EP_CMD.off) src = BitVec.ofNat 32 (1 * 2 ^ 8) ∧ t.pcie = s.pcie) ∧
      (e.en = false → 2 ^ 31 ≤ ctrl → ¬ vec →
        t.srcReg (Pg.HQ + HQ0.EP_CMD.off) src = BitVec.ofNat 32 (3 * 2 ^ 8) ∧ t.pcie = s.pcie) ∧
      (e.en = false → 2 ^ 31 ≤ ctrl → vec → ¬ lay →
        t.srcReg (Pg.HQ + HQ0.EP_CMD.off) src = BitVec.ofNat 32 (4 * 2 ^ 8) ∧ t.pcie = s.pcie) ∧
      (e.en = false → 2 ^ 31 ≤ ctrl → vec → lay →
        t.srcReg (Pg.HQ + HQ0.EP_CMD.off) src = 0 ∧
        t.ep q = { fields with
          sqTail := 0, sqHead := 0, rqTail := 0, rqHead := 0, cqHead := 0, cqTail := 0, phase := true, sqErr := false,
          rqErr := false, idle := false, rxd := [] }) ∧
      (e.en = true → same → ctrl < 2 ^ 31 →
        t.srcReg (Pg.HQ + HQ0.EP_CMD.off) src = 0 ∧ t.ep q = { fields with idle := decide (e.inFlight = 0) }) ∧
      (∀ p, p ≠ q → t.ep p = s.ep p) ∧
      t = { s with perSrc := t.perSrc, pcie := { s.pcie with eps := t.pcie.eps } })) ∧
  (∀ (src : Source) (val : Word) (s : State), Granted src (Pg.HQ + HQ0.EP_CMD.off) true s →
    ∀ i ∈ [Instr.epWrite src val, .epRead src val],
    (val.toNat % 4 = 0 ∨ val.toNat % 4 = 3 → Answers i s (fun t => t = s)) ∧
    (val.toNat % 4 = 2 → s.epSelected src = none → Answers i s (fun t =>
      t.srcReg (Pg.HQ + HQ0.EP_CMD.off) src = BitVec.ofNat 32 (2 * 2 ^ 8) ∧ t = { s with perSrc := t.perSrc }))) ∧
  (∀ s : State, (s.pcie.link = .l1 ∨ s.pcie.link = .exiting) →
    Answers .linkL1ExitDone s (fun t =>
      t.pcie.link = .l0 ∧ t.pcie.held = [] ∧ t.pcie.irqWait = [] ∧ (∃ l, t.out = s.out ++ s.pcie.held ++ l) ∧
      t = { s with regs := t.regs, pcie := t.pcie, timers := t.timers, out := t.out })) ∧
  (∀ s : State, s.pcie.link = .l0 →
    Answers .aspmL1Entry s (fun t => t = { s with pcie := { s.pcie with link := .l1 } })) ∧
  (∀ (speed width : Nat) (s : State), speed ∈ [25, 50, 80, 160] → width ∈ [1, 2, 4, 8, 16] → s.pcie.link = .down →
    Answers (.linkTrainingComplete speed width) s (fun t =>
      t.pcie.link = .l0 ∧ t.pcie.speed = speed ∧ t.pcie.width = width ∧ t.pcie.held = [] ∧
      (∃ l, t.out = s.out ++ s.pcie.held ++ l) ∧
      t = { s with
          regs := t.regs, pcie := t.pcie, timers := t.timers, out := t.out })) ∧
  (∀ (speed width : Nat) (s : State), (speed ∉ [25, 50, 80, 160] ∨ width ∉ [1, 2, 4, 8, 16] ∨ s.pcie.link ≠ .down) →
    Answers (.linkTrainingComplete speed width) s (fun t => t = s)) ∧
  (∀ (f : Fin 254) (s : State),
    (s.cfgSpace f.val).revision = 0x11 ∧ (s.cfgSpace f.val).msix = (if f.val < 2 then 2048 else 8) ∧
    (s.cfgSpace f.val).deviceId = (if f.val = 0 then 0x0880 else if f.val = 1 then 0x0881 else 0x0882) ∧
    (s.cfgSpace f.val).classCode = (if f.val = 0 then 0x088000 else 0x020000) ∧
    (s.cfgSpace f.val).sriov = (if f.val = 1 then some 252 else none)) ∧
  (∀ s : State, s.pcie.link = .reset →
    Answers .perstDeassertion s (fun t => t = { s with pcie := { s.pcie with link := .down } }))

/-- R419 to R430: doorbells, the moderation timer, descriptors fetched and reads completed. The model's choices in
it: log entries 64 and 24. -/
def Obligations.RingsAndDescriptors : Prop :=
  (∀ (func : Fin 254) (k : Fin 131072) (val : Word) (s : State), k.val < (s.fnHost func.val).qcount →
    Answers (.sqTailDoorbell func k val) s (fun t =>
      let q := (s.fnHost func.val).qbase + k.val
      let drop := s.hostFn func.val = .off ∨ s.hostFn func.val = .fault ∨ (s.ep q).en = false
      let i := val.toNat % 2 ^ 16
      (drop → t.get Pg.HQ HQ1.DB_DROP = satAdd32 (s.get Pg.HQ HQ1.DB_DROP) 1 ∧ t = { s with regs := t.regs }) ∧
      (¬ drop → s.sqEntries (s.ep q) ≤ i → t.get Pg.HQ HQ1.DB_ERR = satAdd32 (s.get Pg.HQ HQ1.DB_ERR) 1 ∧ t.pcie = s.pcie) ∧
      (¬ drop → i < s.sqEntries (s.ep q) → t.ep q = { s.ep q with sqTail := i } ∧ (∀ p, p ≠ q → t.ep p = s.ep p) ∧
        t = { s with pcie := { s.pcie with eps := t.pcie.eps } }) ∧
        t = { s with
            regs := t.regs, evtAt := t.evtAt, pcie := t.pcie })) ∧
  (∀ (func : Fin 254) (k : Fin 131072) (val : Word) (s : State), k.val < (s.fnHost func.val).qcount →
    Answers (.rqTailDoorbell func k val) s (fun t =>
      let q := (s.fnHost func.val).qbase + k.val
      let drop := s.hostFn func.val = .off ∨ s.hostFn func.val = .fault ∨ (s.ep q).en = false
      let i := val.toNat % 2 ^ 16
      (drop → t.get Pg.HQ HQ1.DB_DROP = satAdd32 (s.get Pg.HQ HQ1.DB_DROP) 1 ∧ t = { s with regs := t.regs }) ∧
      (¬ drop → s.rqEntries (s.ep q) ≤ i → t.get Pg.HQ HQ1.DB_ERR = satAdd32 (s.get Pg.HQ HQ1.DB_ERR) 1 ∧ t.pcie = s.pcie) ∧
      (¬ drop → i < s.rqEntries (s.ep q) → t.ep q = { s.ep q with rqTail := i } ∧ (∀ p, p ≠ q → t.ep p = s.ep p) ∧
        t = { s with pcie := { s.pcie with eps := t.pcie.eps } }) ∧
        t = { s with
            regs := t.regs, evtAt := t.evtAt, pcie := t.pcie })) ∧
  (∀ (func : Fin 254) (k : Fin 131072) (val : Word) (s : State), k.val < (s.fnHost func.val).qcount →
    s.hostFn func.val ≠ .off → s.hostFn func.val ≠ .fault → (s.ep ((s.fnHost func.val).qbase + k.val)).en = true →
    Answers (.cqHeadDoorbell func k val) s (fun t =>
      let q := (s.fnHost func.val).qbase + k.val
      let e := s.ep q
      let n := s.cqEntries e
      let i := val.toNat % 2 ^ 16
      (if i < n ∧ (i + n - e.cqHead) % n ≤ (e.cqTail + n - e.cqHead) % n then
        (t.ep q).cqHead = i ∧ (e.irqEn = false → (t.ep q).armed = (e.armed || decide (2 ^ 31 ≤ val.toNat))) ∧
        (e.wait = [] → e.irqEn = false → t.out = s.out)
       else t.get Pg.HQ HQ1.DB_ERR = satAdd32 (s.get Pg.HQ HQ1.DB_ERR) 1 ∧ t.pcie = s.pcie) ∧
      (∀ p, p ≠ q → t.ep p = s.ep p) ∧
      t = { s with
          regs := t.regs, evtAt := t.evtAt, pcie := t.pcie, timers := t.timers, out := t.out })) ∧
  (∀ (ep : Fin 131072) (s : State), s.running (Tm.moderate ep.val) = true →
    Answers (.modTimerExpiry ep) s (fun t =>
      let e := s.ep ep.val
      t.running (Tm.moderate ep.val) = false ∧
      ((e.irqEn && e.armed && decide (1 ≤ e.n)) = false →
        t.ep ep.val = { e with timeUp := true } ∧ t.out = s.out) ∧
      (∀ f, (e.irqEn && e.armed && decide (1 ≤ e.n)) = true → s.epFn ep.val = some f → (s.fnHost f).d3 = false →
        s.pcie.link = .l0 → (s.fnHost f).msixEn = true → (s.fnHost f).fnMask = false →
        SMap.get (fun _ => false) (s.fnHost f).masked e.vector = false →
        t.out = s.out ++ [.msix f e.vector] ∧
        t.ep ep.val = { e with armed := false, n := 0, timeUp := false, pend := false } ∧
        t.get Pg.HQ HQ1.IRQ_SENT = satAdd32 (s.get Pg.HQ HQ1.IRQ_SENT) 1) ∧
        t = { s with
            regs := t.regs, pcie := t.pcie, timers := t.timers, out := t.out })) ∧
  (∀ (ep : Fin 131072) (descs ds : List (List Byte)) (f : Nat) (s : State), s.epFn ep.val = some f →
    s.mayFetch (s.ep ep.val) f = true →
    untilEop (descs.take (((s.ep ep.val).sqTail + s.sqEntries (s.ep ep.val) - (s.ep ep.val).sqHead) %
      s.sqEntries (s.ep ep.val))) = some ds →
    Answers (.descriptorFetch ep descs) s (fun t =>
      let e := s.ep ep.val
      let d := s.sendOf ep.val e ds (s.fnHost f).epoch
      let head := (e.sqHead + ds.length) % s.sqEntries e
      (s.frameBad e ds = true →
        t.get Pg.HQ HQ1.BAD_DESC = satAdd32 (s.get Pg.HQ HQ1.BAD_DESC) 1 ∧ (t.ep ep.val).sqHead = head ∧
        (t.ep ep.val).fetching = e.fetching ∧ t.skein = s.skein) ∧
      (s.frameBad e ds = false → (if d.tso then 262143 else 16383) < d.length →
        (t.ep ep.val).sqHead = head ∧ (t.ep ep.val).fetching = e.fetching ∧ t.skein = s.skein) ∧
      (∀ bufs, s.frameBad e ds = false → d.length ≤ 16383 → d.tso = false → (∀ x ∈ ds, descHandle x = none) →
        (s.allocFrame 7 d.length).1 = some bufs →
        t.ep ep.val = { e with
          sqHead := head, inFlight := e.inFlight + 1, idle := false,
          fetching := e.fetching ++ [⟨d, ds.map (fun x => (descLen x, none)), bufs, none⟩] } ∧
        t.skein = (s.allocFrame 7 d.length).2.skein ∧ t.out = s.out) ∧
        t = { s with
            regs := t.regs, skein := t.skein, pcie := t.pcie, timers := t.timers, out := t.out })) ∧
  (∀ (ep : Fin 131072) (bytes : List Byte) (f : Nat) (x : Fetch) (xs : List Fetch) (s : State), s.epFn ep.val = some f →
    (s.ep ep.val).fetching = x :: xs → x.mss = none → x.send.csumL3 = false → x.send.csumL4 = false → s.mem.flips = [] →
    Answers (.fetchComplete ep (.data bytes)) s (fun t =>
      let g := s.gather x.parts bytes
      t.inq 7 = s.inq 7 ++ [⟨7, g.1, 0, false, f, x.bufs, 0, some x.send, g.2.1, []⟩] ∧
      t.ep ep.val = { s.ep ep.val with fetching := xs } ∧ t.out = s.out ∧
      t = { s with
          regs := t.regs, evtAt := t.evtAt, cls := t.cls, skein := t.skein, mem := t.mem, pcie := t.pcie,
          timers := t.timers, out := t.out, sched := t.sched, siteWake := t.siteWake })) ∧
  (∀ (ep : Fin 131072) (f : Nat) (x : Fetch) (xs : List Fetch) (s : State), s.epFn ep.val = some f →
    (s.ep ep.val).fetching = x :: xs →
    Answers (.fetchComplete ep .dataError) s (fun t =>
      (t.ep ep.val).fetching = xs ∧ t.get Pg.HQ HQ1.DMA_ERR = satAdd32 (s.get Pg.HQ HQ1.DMA_ERR) 1 ∧
      t.inq 7 = s.inq 7 ∧
      t = { s with
          regs := t.regs, evtAt := t.evtAt, cls := t.cls, skein := t.skein, mem := t.mem, pcie := t.pcie,
          timers := t.timers, out := t.out, sched := t.sched, siteWake := t.siteWake })) ∧
  (∀ (ep : Fin 131072) (descs : List (List Byte)) (f : Nat) (s : State), s.epFn ep.val = some f →
    (s.ep ep.val).en = true → (s.ep ep.val).rxEn = true → (s.ep ep.val).rqErr = false → s.hostFn f = .running →
    (s.fnHost f).d3 = false →
    Answers (.fetchComplete ep (.receive descs)) s (fun t =>
      let e := s.ep ep.val
      let ds := descs.take ((e.rqTail + s.rqEntries e - e.rqHead) % s.rqEntries e)
      t.ep ep.val = { e with
        rqHead := (e.rqHead + ds.length) % s.rqEntries e, rxd := e.rxd ++ ds.map (fun d => (df d 0 8, df d 8 2)) } ∧
      (∀ p, p ≠ ep.val → t.ep p = s.ep p) ∧ t = { s with pcie := { s.pcie with eps := t.pcie.eps } })) ∧
  (∀ (ep : Fin 131072) (f : Nat) (s : State), s.epFn ep.val = some f → (s.ep ep.val).en = true →
    ((s.ep ep.val).txEn = true →
      Answers (.fetchComplete ep .sendError) s (fun t =>
        t.ep ep.val = { s.ep ep.val with sqErr := true } ∧
        t.get Pg.HQ HQ1.DMA_ERR = satAdd32 (s.get Pg.HQ HQ1.DMA_ERR) 1 ∧
        t.bit Pg.HQ ⟨HDR.PAGE_EVENT.off, 8, 1⟩ = true ∧ t = { s with regs := t.regs, pcie := { s.pcie with eps := t.pcie.eps } })) ∧
    ((s.ep ep.val).rxEn = true →
      Answers (.fetchComplete ep .receiveError) s (fun t =>
        t.ep ep.val = { s.ep ep.val with rqErr := true } ∧
        t.get Pg.HQ HQ1.DMA_ERR = satAdd32 (s.get Pg.HQ HQ1.DMA_ERR) 1 ∧
        t.bit Pg.HQ ⟨HDR.PAGE_EVENT.off, 8, 1⟩ = true ∧ t = { s with regs := t.regs, pcie := { s.pcie with eps := t.pcie.eps } })))

/-! ### Events (chapter 15) -/

/-- R432, R442, R443, R451 to R453: events raised, withdrawn, selected, committed, and what waits. The model's
choices in it: log entry 65. -/
def Obligations.EventRecords : Prop :=
  (∀ (slot : BitVec 12) (bit : Fin 32) (s : State), s.domIsOff .core = true →
    Answers (.eventRaise slot bit) s (fun t => t = s)) ∧
  (∀ (slot : BitVec 12) (bit : Fin 32) (s : State), s.domIsOff .core = false →
    (∀ e ∈ s.watchSet, e.2 ≠ slot.toNat * 32 + bit.val) →
    Answers (.eventRaise slot bit) s (fun t =>
      let key := slot.toNat * 32 + bit.val
      (if s.evBit key = true ∧ s.evMask key = false ∧ s.isRaised key = false then
        t.isRaised key = true ∧ t.pendRec key = some ⟨key, s.clock.cnt, false⟩ ∧
        (∀ k, k ≠ key → t.isRaised k = s.isRaised k ∧ t.pendRec k = s.pendRec k)
       else t = s) ∧
      t = { s with marker := { s.marker with raised := t.marker.raised, pend := t.marker.pend } })) ∧
  (∀ (src : Source) (slot : BitVec 12) (val : Word) (s : State),
    Granted src (slot.toNat * 0x1000 + HDR.PAGE_EVENT.off) true s →
    Answers (.recordWithdraw src slot false val) s (fun t =>
      (∀ k, k < 32 → ¬ (4 ≤ k ∧ k < 8) → val.getLsbD k = true →
        let key := slot.toNat * 32 + k
        t.evBit key = false ∧ t.isRaised key = false ∧ t.pendRec key = none ∧ ∀ r ∈ t.marker.waiting, r.1.key ≠ key) ∧
      (∀ k, k < 32 → val.getLsbD k = false →
        let key := slot.toNat * 32 + k
        t.evBit key = s.evBit key ∧ t.isRaised key = s.isRaised key ∧ t.pendRec key = s.pendRec key) ∧
      t.marker.flight = s.marker.flight ∧
      t = { s with
        regs := t.regs,
        marker := { s.marker with
          raised := t.marker.raised, pend := t.marker.pend, waiting := t.marker.waiting } })) ∧
  (∀ (src : Source) (slot : BitVec 12) (val : Word) (s : State),
    Granted src (slot.toNat * 0x1000 + HDR.PAGE_EVENT_MASK.off) true s →
    Answers (.recordWithdraw src slot true val) s (fun t =>
      t.rd (slot.toNat * 0x1000 + HDR.PAGE_EVENT_MASK.off) = val ∧
      (∀ k, k < 32 → val.getLsbD k = true →
        t.pendRec (slot.toNat * 32 + k) = none ∧ ∀ r ∈ t.marker.waiting, r.1.key ≠ slot.toNat * 32 + k) ∧
      (∀ k, k < 32 → val.getLsbD k = false →
        t.isRaised (slot.toNat * 32 + k) = s.isRaised (slot.toNat * 32 + k) ∧
        t.pendRec (slot.toNat * 32 + k) = s.pendRec (slot.toNat * 32 + k)) ∧
      t.marker.flight = s.marker.flight ∧
      t = { s with
        regs := t.regs,
        marker := { s.marker with
          raised := t.marker.raised, pend := t.marker.pend, waiting := t.marker.waiting } })) ∧
  (∀ (k : Nat) (r : MRec) (s : State), s.bit Pg.MARK MARK0.CTRL = false → s.domIsOff .core = false →
    (match s.marker.last with
      | none => (s.marker.pend.map (fun kv => kv.1)).head? = some k
      | some l => ((s.marker.pend.map (fun kv => kv.1)).find? (fun k => decide (l < k))).or
          (s.marker.pend.map (fun kv => kv.1)).head? = some k) →
    s.pendRec k = some r →
    Answers .markerSelect s (fun t =>
      t.marker.flight = s.marker.flight ++ [r] ∧ t.marker.last = some k ∧ t.pendRec k = none ∧
      (∀ j, j ≠ k → t.pendRec j = s.pendRec j) ∧
      t = { s with
        marker := { s.marker with pend := t.marker.pend, flight := t.marker.flight, last := t.marker.last } })) ∧
  (∀ s : State, s.bit Pg.MARK MARK0.CTRL = true → Answers .markerSelect s (fun t => t = s)) ∧
  (∀ s : State, s.domIsOff .core = true → Answers .markerCommit s (fun t => t = s)) ∧
  (∀ (r : MRec) (rs : List MRec) (k tgt : Nat) (s : State), s.domIsOff .core = false → s.marker.flight = r :: rs →
    s.choice ((s.route r.key).toNat % 256) = some (k, tgt) → s.evMask r.key = false → s.evBit r.key = true →
    Answers .markerCommit s (fun t =>
      let g := (s.route r.key).toNat % 256
      t.marker.flight = rs ∧ SMap.get (fun _ => 7) t.marker.chosen g = k ∧
      t.get64 Pg.MARK MARK2.RECORDS_LO = wrapAdd64 (s.get64 Pg.MARK MARK2.RECORDS_LO) 1 ∧
      (tgt < 4096 → (t.eq tgt).tail = ((s.eq tgt).tail + 1) % (s.eq tgt).size ∧
        ((s.eq tgt).loc = true → ∃ l, t.out = s.out ++ [.hookRecord tgt (s.recordBytes r g (s.eq tgt).phase)] ++ l) ∧
        ((s.eq tgt).loc = false → s.pcie.link = .l0 → ∃ l, t.out = s.out ++
          [.dmaWrite ((s.eq tgt).base + 16 * (s.eq tgt).tail) (s.recordBytes r g (s.eq tgt).phase)] ++ l)) ∧
      (4096 ≤ tgt → t.out = s.out ++ [.hookRecord tgt (s.recordBytes r g
        (decide (SMap.get (fun _ => 0) s.marker.inbox (tgt - 4096) / 256 % 2 = 0)))] ∧ t.marker.eqs = s.marker.eqs) ∧
      t.marker.waiting = s.marker.waiting ∧
      t = { s with
          regs := t.regs, marker := t.marker, pcie := t.pcie, out := t.out })) ∧
  (∀ (r : MRec) (rs : List MRec) (s : State), s.domIsOff .core = false → s.marker.flight = r :: rs →
    s.choice ((s.route r.key).toNat % 256) = none →
    (s.evMask r.key = true ∨ s.evBit r.key = false ∨ s.pendRec r.key ≠ none) →
    Answers .markerCommit s (fun t =>
      t.marker.flight = rs ∧ t.marker.waiting = s.marker.waiting ∧ t.marker.eqs = s.marker.eqs ∧ t.out = s.out ∧
      t.get Pg.MARK MARK2.WITHDRAWN = satAdd32 (s.get Pg.MARK MARK2.WITHDRAWN) 1 ∧
      (∀ j, j ≠ r.key → t.isRaised j = s.isRaised j) ∧
      t.isRaised r.key = (s.isRaised r.key && decide (s.evBit r.key = false ∨ s.pendRec r.key ≠ none)) ∧
      t = { s with regs := t.regs, marker := { s.marker with flight := rs, raised := t.marker.raised } })) ∧
  (∀ (r : MRec) (rs : List MRec) (s : State), s.domIsOff .core = false → s.marker.flight = r :: rs →
    s.choice ((s.route r.key).toNat % 256) = none → s.evMask r.key = false → s.evBit r.key = true → s.pendRec r.key = none →
    Answers .markerCommit s (fun t =>
      t.marker = { s.marker with flight := rs, waiting := s.marker.waiting ++ [(r, (s.route r.key).toNat % 256)] } ∧
      t.get Pg.MARK MARK2.NO_TARGET = satAdd32 (s.get Pg.MARK MARK2.NO_TARGET) 1 ∧
      t.bit Pg.MARK MARK0.STAT_NO_TARGET = true ∧
      t.get Pg.MARK MARK0.STAT_WAITING = min 4095 (s.marker.waiting.length + 1) ∧
      t = { s with regs := t.regs, marker := t.marker })) ∧
  (∀ (r : MRec) (g : Nat) (rs : List (MRec × Nat)) (s : State), s.marker.waiting = (r, g) :: rs →
    s.bit Pg.MARK MARK0.CTRL = false → s.domIsOff .core = false →
    Answers .waitingReselect s (fun t =>
      t.marker = { s.marker with waiting := rs, flight := s.marker.flight ++ [r] } ∧
      t.get Pg.MARK MARK0.STAT_WAITING = min 4095 rs.length ∧ t = { s with regs := t.regs, marker := t.marker })) ∧
  (∀ (src : Source) (val : Word) (s : State), Granted src (Pg.MARK + MARK0.CTRL.off) true s →
    Answers (.markerHold src val) s (fun t =>
      t.get Pg.MARK MARK0.CTRL = val.toNat % 2 ∧
      t.bit Pg.MARK MARK0.STAT_HELD = (decide (val.toNat % 2 = 1) && s.marker.flight.isEmpty) ∧
      t = { s with regs := t.regs } ∧
      OnlyRegs [Pg.MARK + MARK0.CTRL.off, Pg.MARK + MARK0.STAT.off, Pg.MARK + MARK0.WAIT.off] s t)) ∧
  (∀ (func : Fin 254) (s : State), (s.fnHost func.val).d3 = true →
    Answers (.d0Return func) s (fun t =>
      (t.fnHost func.val).d3 = false ∧ (∀ q ∈ s.epsOf func.val, (t.ep q).pend = false) ∧
      t = { s with
          regs := t.regs, marker := t.marker, pcie := t.pcie, timers := t.timers, out := t.out }))

/-- R445 to R447, R450: event queues, groups and ranges. The model's choices in it: log entry 65. -/
def Obligations.EventQueuesAndGroups : Prop :=
  (∀ (src : Source) (val : Word) (q : Nat) (s : State), Granted src (Pg.MARK + MARK0.EQ_DB.off) true s →
    s.eqOf src (MARK0.EQ_DB_QUEUE.get val) = some q →
    Answers (.eqDb src val) s (fun t =>
      let e := s.eq q
      let i := MARK0.EQ_DB_HEAD.get val
      let arm := decide (MARK0.EQ_DB_ARM.get val = 1)
      (if i < e.size ∧ (i + e.size - e.head) % e.size ≤ (e.tail + e.size - e.head) % e.size then
        (t.eq q).head = i ∧ ((arm && e.irqEn && decide (i ≠ e.tail)) = false →
          t.eq q = { e with head := i, armed := e.armed || arm } ∧ t.out = s.out) ∧
        (arm = true → e.irqEn = true → i ≠ e.tail → e.loc = true →
          t.out = s.out ++ [.hookIrq q] ∧ (t.eq q).armed = false ∧
          t.get Pg.MARK MARK2.IRQ_SENT = satAdd32 (s.get Pg.MARK MARK2.IRQ_SENT) 1)
       else t.get Pg.MARK MARK2.DB_ERR = satAdd32 (s.get Pg.MARK MARK2.DB_ERR) 1 ∧ t.marker = s.marker) ∧
      (∀ p, p ≠ q → t.eq p = s.eq p) ∧ t = { s with regs := t.regs, marker := t.marker, pcie := t.pcie, out := t.out })) ∧
  (∀ (src : Source) (val : Word) (q : Nat) (s : State), Granted src (Pg.MARK + MARK0.EQ_PRIO.off) true s →
    s.eqOf src (MARK0.EQ_PRIO_QUEUE.get val) = some q →
    Answers (.eqPrio src val) s (fun t =>
      (t.eq q).prio = val.toNat % 2 ^ 8 ∧ (t.eq q).ctrl % 2 ^ 16 = (s.eq q).ctrl % 2 ^ 16 ∧
      (t.eq q).ctrl / 2 ^ 24 = (s.eq q).ctrl / 2 ^ 24 ∧ t.eq q = { s.eq q with ctrl := (t.eq q).ctrl } ∧
      (∀ p, p ≠ q → t.eq p = s.eq p) ∧ t = { s with marker := { s.marker with eqs := t.marker.eqs } })) ∧
  (∀ (src : Source) (val : Word) (s : State), Granted src (Pg.MARK + MARK0.EQ_CMD.off) true s → val.toNat % 4 = 1 →
    ∀ i ∈ [Instr.eqRead src val, .eqWrite src val], Answers i s (fun t =>
      (match s.eqSelected src with
       | none => t.srcReg (Pg.MARK + MARK0.EQ_CMD.off) src = BitVec.ofNat 32 (2 * 2 ^ 8)
       | some q => t.srcReg (Pg.MARK + MARK0.EQ_CMD.off) src = 0 ∧
         t.staged (Pg.MARK + (MARK0.EQ_DATA 0).off) src 8 = (s.eq q).words) ∧
      t = { s with perSrc := t.perSrc })) ∧
  (∀ (src : Source) (val : Word) (q : Nat) (s : State), Granted src (Pg.MARK + MARK0.EQ_CMD.off) true s →
    val.toNat % 4 = 2 → s.eqSelected src = some q →
    ∀ i ∈ [Instr.eqWrite src val, .eqRead src val], Answers i s (fun t =>
      let e := s.eq q
      let w := fun k => s.srcReg (Pg.MARK + (MARK0.EQ_DATA 0).off + 4 * k) src
      let ctrl := (w 0 &&& 0xF0FF000F).toNat
      let irq := (w 1 &&& 0x07FF0000).toNat
      let base := (w 2).toNat + (w 3).toNat * 2 ^ 32
      let res := t.srcReg (Pg.MARK + MARK0.EQ_CMD.off) src
      let loc := decide (ctrl / 2 ^ 30 % 2 = 1)
      (e.en = true → (loc ≠ e.loc ∨ 64 * 2 ^ (ctrl % 16) ≠ e.size ∨ base ≠ e.base) →
        res = BitVec.ofNat 32 (1 * 2 ^ 8) ∧ t.marker = s.marker) ∧
      (e.en = false → src.isHook = false → loc = true → res = BitVec.ofNat 32 (4 * 2 ^ 8) ∧ t.marker = s.marker) ∧
      (e.en = false → 2 ^ 31 ≤ ctrl → loc = true → src.isHook = true → ctrl % 16 ≤ 10 → base % 4096 = 0 →
        res = 0 ∧ t.eq q = ⟨ctrl, irq, base, 0, 0, e.armed, e.pend, true, false⟩) ∧
      (e.en = true → ctrl < 2 ^ 31 → loc = e.loc → (loc = true → src.isHook = true) → 64 * 2 ^ (ctrl % 16) = e.size →
        base = e.base → res = 0 ∧ t.eq q = { e with ctrl := ctrl, irq := irq }) ∧
      (∀ p, p ≠ q → t.eq p = s.eq p) ∧
      t = { s with perSrc := t.perSrc, marker := { s.marker with eqs := t.marker.eqs } })) ∧
  (∀ (src : Source) (val : Word) (s : State), val.toNat % 4 = 0 ∨ val.toNat % 4 = 3 →
    (Granted src (Pg.MARK + MARK0.EQ_CMD.off) true s →
      ∀ i ∈ [Instr.eqRead src val, .eqWrite src val], Answers i s (fun t => t = s)) ∧
    (Granted src (Pg.MARK + MARK1.GRP_CMD.off) true s →
      ∀ i ∈ [Instr.grpRead src val, .grpWrite src val], Answers i s (fun t => t = s))) ∧
  (∀ (src : Source) (val : Word) (s : State), Granted src (Pg.MARK + MARK1.GRP_CMD.off) true s → val.toNat % 4 = 1 →
    ∀ i ∈ [Instr.grpRead src val, .grpWrite src val], Answers i s (fun t =>
      t.rdWords (Pg.MARK + MARK1.GRP_DATA.off) 8 = s.group (s.get Pg.MARK MARK1.GRP_SEL) ∧
      t.get Pg.MARK MARK1.GRP_CMD_RESULT = 0 ∧ t = { s with regs := t.regs })) ∧
  (∀ (src : Source) (val : Word) (s : State), Granted src (Pg.MARK + MARK1.GRP_CMD.off) true s → val.toNat % 4 = 2 →
    (s.get Pg.MARK MARK1.GRP_SEL < 32 → src.isHook = true) →
    ∀ i ∈ [Instr.grpWrite src val, .grpRead src val], Answers i s (fun t =>
      let g := s.get Pg.MARK MARK1.GRP_SEL
      let ws := (s.rdWords (Pg.MARK + MARK1.GRP_DATA.off) 8).map (fun w => w &&& 0x80001FFF)
      (if ws.all (memberOk g) = true then
        t.group g = ws ∧ t.get Pg.MARK MARK1.GRP_CMD_RESULT = 0 ∧ (∀ h, h ≠ g → t.group h = s.group h)
       else t.get Pg.MARK MARK1.GRP_CMD_RESULT = 1 ∧ t.marker = s.marker) ∧
      t = { s with regs := t.regs, marker := { s.marker with groups := t.marker.groups } } ∧
      OnlyRegs [Pg.MARK + MARK1.GRP_CMD.off] s t)) ∧
  (∀ (src : Source) (val : Word) (s : State), Granted src (Pg.MARK + MARK1.GRP_CMD.off) true s → val.toNat % 4 = 2 →
    s.get Pg.MARK MARK1.GRP_SEL < 32 → src.isHook = false →
    ∀ i ∈ [Instr.grpWrite src val, .grpRead src val], Answers i s
      (RejectedTo src (Pg.MARK + 0x1000) Reason.privilege.code true (Pg.MARK + MARK1.GRP_CMD.off) s)) ∧
  (∀ (src : Source) (val : Word) (s : State), Granted src (Pg.MARK + MARK1.FN_EQCOUNT.off) true s →
    (if s.markSel = 0 then s.eqsOff 0 = true else s.hostFn s.markSel = .off) →
    Answers (.fnEqcountWrite src val) s (fun t =>
      let x := s.eqRange s.markSel
      let n := val.toNat % 2 ^ 13
      t.eqRange s.markSel = (if n ≤ (if s.markSel < 2 then 4096 else 64) ∧ x.staged + n ≤ 4096 ∧
          s.marker.ranges.all (fun kv => decide (kv.1 = s.markSel) || !overlaps x.staged n kv.2.base kv.2.count) = true then
        { x with base := x.staged, count := n, err := false } else { x with err := true }) ∧
      (∀ f, f ≠ s.markSel → t.eqRange f = s.eqRange f) ∧
      t = { s with marker := { s.marker with ranges := t.marker.ranges } }))

/-! ### Cipher (chapter 14) -/

/-- R470 to R473: MACsec entries read and written through `MSEC_CMD`, and when a write is turned away. The model's
choices in it: log entry 6. -/
def Obligations.MacsecCommands : Prop :=
  (∀ (src : Source) (val : Word) (s : State), val.toNat % 4 = 1 →
    Granted src (Pg.CIPH + CIPH1.MSEC_CMD.off) true s → s.get Pg.CIPH CIPH1.MSEC_SEL_SC ≤ 8 →
    ∀ i ∈ [Instr.msecRead src val, .msecWrite src val], Answers i s (fun t =>
      t.rdWords (Pg.CIPH + (CIPH1.MSEC_DATA 0).off) 20 = (s.sa (s.get Pg.CIPH CIPH1.MSEC_SEL_PORT)
        (s.get Pg.CIPH CIPH1.MSEC_SEL_SC) (s.get Pg.CIPH CIPH1.MSEC_SEL_AN)).words ∧
      t.get Pg.CIPH CIPH1.MSEC_CMD_RESULT = 0 ∧ t = { s with regs := t.regs } ∧ OnlyPages [Pg.CIPH + 0x1000] s t)) ∧
  (∀ (src : Source) (val : Word) (s : State), val.toNat % 4 = 2 →
    Granted src (Pg.CIPH + CIPH1.MSEC_CMD.off) true s → s.get Pg.CIPH CIPH1.MSEC_SEL_SC ≤ 8 →
    ∀ i ∈ [Instr.msecWrite src val, .msecRead src val], Answers i s (fun t =>
      let n := s.get Pg.CIPH CIPH1.MSEC_SEL_PORT
      let sc := s.get Pg.CIPH CIPH1.MSEC_SEL_SC
      let an := s.get Pg.CIPH CIPH1.MSEC_SEL_AN
      let y := saOfWords (s.rdWords (Pg.CIPH + (CIPH1.MSEC_DATA 0).off) 20)
      if y.en = true ∧ s.bit Pg.SEC SEC0.PROTECT_DEBUG_ACTIVE = true then
        RejectedTo src (Pg.CIPH + 0x1000) 5 true (Pg.CIPH + CIPH1.MSEC_CMD.off) s t
      else if (s.sa n sc an).en = true ∧ (s.sa n sc an).key ≠ y.key then
        t.get Pg.CIPH CIPH1.MSEC_CMD_RESULT = 1 ∧ t = { s with regs := t.regs } ∧
        OnlyRegs [Pg.CIPH + CIPH1.MSEC_CMD.off] s t
      else
        t.get Pg.CIPH CIPH1.MSEC_CMD_RESULT = 0 ∧ t.sa n sc an = y ∧
        (∀ n' sc' an', n' * 64 + sc' * 4 + an' ≠ n * 64 + sc * 4 + an → t.sa n' sc' an' = s.sa n' sc' an') ∧
        t = { s with regs := t.regs, ciph := { s.ciph with sas := t.ciph.sas } } ∧
        OnlyRegs [Pg.CIPH + CIPH1.MSEC_CMD.off] s t)) ∧
  (∀ (src : Source) (val : Word) (s : State), Granted src (Pg.CIPH + CIPH1.MSEC_CMD.off) true s →
    ∀ i ∈ [Instr.msecRead src val, .msecWrite src val],
    (8 < s.get Pg.CIPH CIPH1.MSEC_SEL_SC → (val.toNat % 4 = 1 ∨ val.toNat % 4 = 2) →
      Answers i s (fun t =>
        t.get Pg.CIPH CIPH1.MSEC_CMD_RESULT = 2 ∧ t = { s with regs := t.regs } ∧
        OnlyRegs [Pg.CIPH + CIPH1.MSEC_CMD.off] s t)) ∧
    (val.toNat % 4 = 0 ∨ val.toNat % 4 = 3 → Answers i s (fun t => t = s)))

/-- R474, R475, R478, R479, R459, R461, R463, R476, R477: the look-aside lock, jobs submitted and preempted, and
results read; look-aside jobs done, masks reseeded and root keys loaded. The model's choices in it: log entries
66 and 5. -/
def Obligations.LookAside : Prop :=
  ((∀ (src : Source) (val : Word) (f : Nat) (s : State), val.toNat % 4 = 1 →
    Granted src (Pg.CIPH + CIPH0.LA_LOCK.off) true s → s.laHolder = none → src.func = some f →
    ∀ i ∈ [Instr.laLockAcquire src val, .laLockRelease src val], Answers i s (fun t =>
      t.laHolder = some f ∧ t = { s with regs := t.regs } ∧ OnlyRegs [Pg.CIPH + CIPH0.LA_LOCK.off] s t)) ∧
  (∀ (src : Source) (val : Word) (s : State), val.toNat % 4 = 1 →
    Granted src (Pg.CIPH + CIPH0.LA_LOCK.off) true s → (s.laHolder ≠ none ∨ src.func = none) →
    ∀ i ∈ [Instr.laLockAcquire src val, .laLockRelease src val], Answers i s (fun t => t = s)) ∧
  (∀ (src : Source) (val : Word) (f : Nat) (s : State), val.toNat % 4 = 2 →
    Granted src (Pg.CIPH + CIPH0.LA_LOCK.off) true s → s.laHolder = some f → src.func = some f →
    ∀ i ∈ [Instr.laLockRelease src val, .laLockAcquire src val], Answers i s (fun t =>
      if s.ciph.laHost = [] ∧ s.ciph.resHost = [] then
        t.laHolder = none ∧ t = { s with regs := t.regs } ∧ OnlyRegs [Pg.CIPH + CIPH0.LA_LOCK.off] s t
      else RejectedTo src Pg.CIPH 7 true (Pg.CIPH + CIPH0.LA_LOCK.off) s t)) ∧
  (∀ (src : Source) (val : Word) (s : State), val.toNat % 4 = 2 →
    Granted src (Pg.CIPH + CIPH0.LA_LOCK.off) true s → (s.laHolder = none ∨ s.laHolder ≠ src.func) →
    ∀ i ∈ [Instr.laLockRelease src val, .laLockAcquire src val], Answers i s (fun t => t = s)) ∧
  (∀ (src : Source) (val : Word) (s : State), Granted src (Pg.CIPH + CIPH0.LA_LOCK.off) true s →
    ∀ i ∈ [Instr.laLockAcquire src val, .laLockRelease src val],
    (val.toNat % 4 = 0 → Answers i s (fun t => t = s)) ∧
    (∀ f, val.toNat % 4 = 3 → (s.laHolder = none ∨ s.laHolder = some f) → src.func = some f → s.ciph.laHost = [] →
      s.ciph.resHost = [] →
      Answers i s (fun t => t.laHolder = none ∧
      t = { s with
          regs := t.regs } ∧ OnlyRegs [Pg.CIPH + CIPH0.LA_LOCK.off] s t))) ∧
  (∀ (src : Source) (val : Word) (s : State), val.toNat % 2 = 1 →
    Granted src (Pg.CIPH + CIPH0.LA_SUBMIT.off) true s → src.isHook = true → s.ciph.laFw.length < 16 →
    Answers (.laSubmit src val) s (fun t =>
      t = { s with ciph := { s.ciph with laFw := s.ciph.laFw ++ [⟨src, s.laStaged src⟩] } })) ∧
  (∀ (src : Source) (val : Word) (f : Nat) (s : State), val.toNat % 2 = 1 →
    Granted src (Pg.CIPH + CIPH0.LA_SUBMIT.off) true s → src.func = some f → s.laHolder = some f → s.feat 9 = true →
    s.ciph.laHost.length < 16 →
    Answers (.laSubmit src val) s (fun t =>
      t.ciph = { s.ciph with laHost := s.ciph.laHost ++ [⟨src, s.laStaged src⟩] } ∧
      t.get Pg.CIPH CIPH0.LA_STAT_QUEUED = s.ciph.laHost.length + 1 ∧
      t = { s with regs := t.regs, ciph := t.ciph } ∧ OnlyRegs [Pg.CIPH + CIPH0.LA_STAT.off] s t)) ∧
  (∀ (src : Source) (val : Word) (s : State), Granted src (Pg.CIPH + CIPH0.LA_SUBMIT.off) true s →
    (s.laMay src = false ∨ val.toNat % 2 = 1 ∧ src.isHook = true ∧ 16 ≤ s.ciph.laFw.length ∨
      val.toNat % 2 = 1 ∧ src.isHook = false ∧ (s.feat 9 = false ∨ 16 ≤ s.ciph.laHost.length)) →
    Answers (.laSubmit src val) s (fun t => RejectedTo src Pg.CIPH 5 true (Pg.CIPH + CIPH0.LA_SUBMIT.off) s t)) ∧
  (∀ s : State,
    Answers .laPreempt s (fun t =>
      t.get Pg.CIPH CIPH2.LA_PREEMPT = (if s.ciph.laFw = [] ∧ s.ciph.laHost = [] then s.get Pg.CIPH CIPH2.LA_PREEMPT
        else satAdd32 (s.get Pg.CIPH CIPH2.LA_PREEMPT) 1) ∧
      t = { s with regs := t.regs } ∧ OnlyRegs [Pg.CIPH + CIPH2.LA_PREEMPT.off] s t)) ∧
  (∀ (src : Source) (r : List Word) (rest : List (List Word)) (s : State),
    Granted src (Pg.CIPH + (CIPH0.LA_RESULT 0).off) false s → s.laMay src = true →
    (if src.isHook then s.ciph.resFw else s.ciph.resHost) = r :: rest →
    Answers (.laResultRead src) s (fun t =>
      t.rdata = r.headD 0 ∧
      t.ciph = (if src.isHook then { s.ciph with resFw := rest } else { s.ciph with resHost := rest }) ∧
      t = { s with regs := t.regs, recLatch := t.recLatch, rdata := t.rdata, ciph := t.ciph } ∧
      OnlyRegs [Pg.CIPH + CIPH0.LA_STAT.off] s t)) ∧
  (∀ (src : Source) (s : State), Granted src (Pg.CIPH + (CIPH0.LA_RESULT 0).off) false s → s.laMay src = true →
    (if src.isHook then s.ciph.resFw else s.ciph.resHost) = [] →
    Answers (.laResultRead src) s (fun t => t = { s with rdata := 0 }))) ∧
  ((∀ (source : Option (List Byte)) (j : LaJob) (rest : List LaJob) (s : State), s.ciph.laFw = j :: rest →
    j.src.isHook = true → j.check ≠ La.ok →
    Answers (.laDone source) s (fun t =>
      t.ciph.laFw = rest ∧ t.ciph.laHost = s.ciph.laHost ∧
      (∃ w, t.ciph.resFw = s.ciph.resFw ++ [BitVec.ofNat 32 (2 ^ 31 + j.check) :: BitVec.ofNat 32 (j.f 4 4) :: w]) ∧
      t.get Pg.CIPH CIPH2.LA_JOBS = satAdd32 (s.get Pg.CIPH CIPH2.LA_JOBS) 1 ∧
      t.get Pg.CIPH CIPH2.LA_FAILED = satAdd32 (s.get Pg.CIPH CIPH2.LA_FAILED) 1 ∧
      t.bit Pg.CIPH ⟨HDR.PAGE_EVENT.off, 9, 1⟩ = true ∧ t = { s with regs := t.regs, ciph := t.ciph })) ∧
  (∀ (bs key : List Byte) (j : LaJob) (rest : List LaJob) (hs : List (Nat × Nat × Nat)) (u s : State), s.ciph.laFw = j :: rest →
    j.src.isHook = true → j.check = La.ok → j.srcHandle = false → (j.op ≤ 2 → j.dstHandle = false) →
    s.allocFrame 8 j.len = (some hs, u) → s.deriveKey j.slot j.label = some key →
    Answers (.laDone (some bs)) s (fun t =>
      let r := j.work key ((bs ++ List.replicate j.len 0).take j.len)
      t.ciph.laFw = rest ∧
      t.ciph.resFw = s.ciph.resFw ++ [[BitVec.ofNat 32 (2 ^ 31 + r.1), BitVec.ofNat 32 (j.f 4 4), 0, 0] ++
        leWords 4 (r.2.2 ++ List.replicate (16 - r.2.2.length) 0)] ∧
      (s.pcie.link = .l0 →
        t.out = s.out ++ (if r.1 = La.ok ∧ j.op ≤ 2 then [.dmaWrite (j.f 0x18 8) r.2.1] else [])) ∧
      t.bit Pg.CIPH ⟨HDR.PAGE_EVENT.off, 9, 1⟩ = true ∧
      t = { s with
          regs := t.regs, evtAt := t.evtAt, cls := t.cls, skein := t.skein, mem := t.mem, pcie := t.pcie, out := t.out,
          ciph := t.ciph, sched := t.sched, siteWake := t.siteWake })) ∧
  (∀ (source : Option (List Byte)) (s : State), s.ciph.laFw = [] → s.ciph.laHost = [] →
    Answers (.laDone source) s (fun t => t = s)) ∧
  (∀ s : State,
    Answers .maskReseed s (fun t =>
      (if s.bit Pg.SEC SEC0.RNG_STAT_DRBG_ERROR = true then t.bit Pg.SEC SEC0.RNG_STAT_MASK_STALE = true ∧ t.ciph = s.ciph
       else t.bit Pg.SEC SEC0.RNG_STAT_MASK_STALE = false ∧ t.ciph = { s.ciph with maskSeed := s.drbg 32 } ∧
        t.security.drbg = (s.security.drbg.generate 32).2) ∧
      SMap.get noTimer t.timers Tm.maskReseed = some (1000 * max 1 (s.get Pg.CIPH CIPH0.MASK_CFG)) ∧
      t = { s with regs := t.regs, security := { s.security with drbg := t.security.drbg }, ciph := t.ciph, timers := t.timers } ∧
      OnlyRegs [Pg.SEC + SEC0.RNG_STAT_MASK_STALE.off] s t)) ∧
  (∀ (ch : Chan) (tag : Byte) (args : List Word) (s : State), MbxOpen ch s →
    Answers (.rootkeyLoad ch tag args) s (fun t =>
      let slot := argWord args 1 % 16
      MbxReply ch tag (if slot < 8 then Sts.badArg else if slot < 12 then Sts.notPermitted else Sts.ok) [] t ∧
      (slot < 12 → t.ciph = s.ciph) ∧
      (12 ≤ slot → t.rootSlot slot = (if argWord args 1 / 2 ^ 8 % 2 = 1 then none
        else some (bytesOfWords ((List.range 8).map (fun k => args.getD (k + 1) 0))))) ∧
      t = { s with regs := t.regs, ciph := { s.ciph with slots := t.ciph.slots } } ∧ OnlyPages [Pg.HOOK ch] s t)))

/-! ### Site ports and Ply (chapter 15) -/

/-- R501 to R509, R521: site frames received and sent out of low-power idle, and the link and the module of a site
port. The model's choices in it: log entries 71 and 67. -/
def Obligations.SitePortCommands : Prop :=
  (∀ (n : Fin 4) (bytes : List Byte) (sub : Fin 131072) (fifoFree : Fin 131073) (fc fu : Nat) (s : State),
    s.siteFarLoop n = true → Answers (.siteRxFrame n bytes sub fifoFree fc fu) s (fun t =>
      let b := Pg.SITE n
      t.out = s.out ++ [.siteFrame n.val bytes] ∧ t.get b SITE.FEC_CORR = satAdd32 (s.get b SITE.FEC_CORR) fc ∧
      t.get b SITE.FEC_UNCORR = satAdd32 (s.get b SITE.FEC_UNCORR) fu ∧
      OnlyRegs [b + SITE.FEC_CORR.off, b + SITE.FEC_UNCORR.off] s t ∧ t = { s with regs := t.regs, out := t.out })) ∧
  (∀ (n : Fin 4) (bytes : List Byte) (sub : Fin 131072) (fifoFree : Fin 131073) (fc fu : Nat) (s : State),
    s.siteFarLoop n = false → s.siteLive n = false →
    Answers (.siteRxFrame n bytes sub fifoFree fc fu) s (fun t => t = s)) ∧
  (∀ (n : Fin 4) (bytes : List Byte) (sub : Fin 131072) (fifoFree : Fin 131073) (fc fu : Nat) (s : State),
    s.siteFarLoop n = false → s.siteLive n = true →
    Answers (.siteRxFrame n bytes sub fifoFree fc fu) s (fun t =>
      let b := Pg.SITE n
      let fails : List (Bool × Fld) :=
        [(decide (bytes.length < 4 ∨ leNat (bytes.drop (bytes.length - 4)) ≠ Crypto.crc32 (bytes.take (bytes.length - 4))),
            SITE.RX_FCS_ERR),
         (decide (bytes.length < 64), SITE.RX_RUNT), (decide (s.siteMax n < bytes.length), SITE.RX_OVERSIZE),
         (decide (be bytes 12 2 = 0x8808), SITE.RX_MACCTL), (!s.siteAccepts n bytes, SITE.RX_FILTERED),
         (decide (fifoFree.val < bytes.length), SITE.RX_OVF)]
      t.get b SITE.FEC_CORR = satAdd32 (s.get b SITE.FEC_CORR) fc ∧
      t.get b SITE.FEC_UNCORR = satAdd32 (s.get b SITE.FEC_UNCORR) fu ∧
      (match fails.find? (fun x => x.1) with
       | some x =>
         t.get b x.2 = satAdd32 (s.get b x.2) 1 ∧
         OnlyRegs [b + SITE.FEC_CORR.off, b + SITE.FEC_UNCORR.off, b + x.2.off, b + HDR.PAGE_EVENT.off] s t ∧
         t = { s with regs := t.regs }
       | none =>
         t.get64 b SITE.RX_FRAMES_LO = wrapAdd64 (s.get64 b SITE.RX_FRAMES_LO) 1 ∧
         t.get64 b SITE.RX_BYTES_LO = wrapAdd64 (s.get64 b SITE.RX_BYTES_LO) bytes.length ∧
         t = { s with
             regs := t.regs, cls := t.cls, skein := t.skein, out := t.out, ciph := t.ciph }))) ∧
  (∀ (n : Fin 4) (s : State), s.fnIs (.site n) .running = true → s.bit (Pg.SITE n) SITE.STAT_LINK = false → s.scan = false →
    Answers (.siteLinkUp n) s (fun t =>
      t.bit (Pg.SITE n) SITE.STAT_LINK = true ∧
      t.bit (Pg.SITE n) SITE.STAT_FEC_LOCK = decide (s.get (Pg.SITE n) SITE.CTRL_FEC ≠ 0) ∧
      t.bit (Pg.SITE n) ⟨HDR.PAGE_EVENT.off, 8, 1⟩ = true ∧
      SMap.get noTimer t.timers (Tm.lpiIdle n.val) = some (1000 * s.get (Pg.SITE n) SITE.LPI_IDLE_US) ∧
      t = { s with regs := t.regs, timers := t.timers } ∧
      OnlyRegs [Pg.SITE n + SITE.STAT_LINK.off, Pg.SITE n + HDR.PAGE_EVENT.off] s t)) ∧
  (∀ (n : Fin 4) (s : State), s.bit (Pg.SITE n) SITE.STAT_LINK = true →
    Answers (.siteLinkDown n) s (fun t =>
      t.bit (Pg.SITE n) SITE.STAT_LINK = false ∧ t.bit (Pg.SITE n) SITE.STAT_FEC_LOCK = false ∧
      t.bit (Pg.SITE n) ⟨HDR.PAGE_EVENT.off, 8, 1⟩ = true ∧ t = { s with regs := t.regs } ∧
      OnlyRegs [Pg.SITE n + SITE.STAT_LINK.off, Pg.SITE n + HDR.PAGE_EVENT.off] s t)) ∧
  (∀ (n : Fin 4) (present : Bool) (s : State), s.bit (Pg.SITE n) SITE.STAT_MOD_PRESENT ≠ present →
    Answers (.moduleChange n present) s (fun t =>
      t.bit (Pg.SITE n) SITE.STAT_MOD_PRESENT = present ∧ t.bit (Pg.SITE n) ⟨HDR.PAGE_EVENT.off, 10, 1⟩ = true ∧
      t = { s with regs := t.regs } ∧
      OnlyRegs [Pg.SITE n + SITE.STAT_MOD_PRESENT.off, Pg.SITE n + HDR.PAGE_EVENT.off] s t)) ∧
  (∀ (n : Fin 4) (s : State), s.bit (Pg.SITE n) SITE.LPI_EN = true → s.siteLive n = true →
    s.bit (Pg.SITE n) SITE.STAT_LPI_TX = false → s.egressHolds (129 + n.val) = false →
    SMap.get (fun _ => none) s.siteWake n.val = none → (s.pattern (129 + n.val)).active = none →
    Answers (.lpiEntry n) s (fun t =>
      t.bit (Pg.SITE n) SITE.STAT_LPI_TX = true ∧
      t.get (Pg.SITE n) SITE.LPI_ENTRIES = satAdd32 (s.get (Pg.SITE n) SITE.LPI_ENTRIES) 1 ∧
      t.running (Tm.lpiIdle n.val) = false ∧ t = { s with regs := t.regs, timers := t.timers } ∧
      OnlyRegs [Pg.SITE n + SITE.STAT_LPI_TX.off, Pg.SITE n + SITE.LPI_ENTRIES.off] s t)) ∧
  (∀ (n : Fin 4) (sub : Fin 131072) (w : SiteWake) (s : State), SMap.get (fun _ => none) s.siteWake n.val = some w →
    s.msecOn n.val = false →
    Answers (.lpiWake n sub) s (fun t =>
      let f := s.sitePtp n w.pkt.bytes (stampMove (s.stampSub sub) (s.getSigned (Pg.SITE n) SITE.TX_DELAY))
      let padded := f ++ List.replicate (60 - f.length) 0
      let out := padded ++ leBytes 4 (Crypto.crc32 padded)
      SMap.get (fun _ => none) t.siteWake n.val = none ∧
      (if s.siteMax n < out.length then
        t.get (Pg.SITE n) SITE.TX_OVERSIZE = satAdd32 (s.get (Pg.SITE n) SITE.TX_OVERSIZE) 1
       else (∃ l, t.out = s.out ++ [.siteFrame n.val out] ++ l) ∧
        t.get64 (Pg.SITE n) SITE.TX_FRAMES_LO = wrapAdd64 (s.get64 (Pg.SITE n) SITE.TX_FRAMES_LO) 1) ∧
        t = { s with
            regs := t.regs, servo := t.servo, skein := t.skein, pcie := t.pcie, timers := t.timers, free := t.free,
            out := t.out, ciph := t.ciph, siteWake := t.siteWake }))

/-- R510 to R513, R511, R514, R515, R517, R518: the states of the Ply link; frames, time and heartbeats over Ply.
The model's choices in it: log entries 72, 53 and 24. -/
def Obligations.PlyLinkAndTraffic : Prop :=
  ((∀ s : State, s.plyIn PlySt.detect = true → s.scan = true → Answers .plyClockDetect s (fun t => t = s)) ∧
  (∀ s : State, s.plyIn PlySt.detect = true → s.scan = false →
    Answers .plyClockDetect s (fun t =>
      t.plySt = PlySt.train ∧ SMap.get noTimer t.timers Tm.plyTrain = some (50 * ms) ∧
      t = { s with regs := t.regs, timers := t.timers } ∧ OnlyRegs [Pg.PLY + PLY.LINK_STATE.off] s t)) ∧
  (∀ (precode : Fin 16) (s : State), s.plyIn PlySt.train = true →
    Answers (.plyTrainComplete precode) s (fun t =>
      t.plySt = PlySt.lock ∧ t.running Tm.plyTrain = false ∧
      t.get Pg.PLY PLY.LINK_PRECODE = (if s.bit Pg.PLY PLY.CTRL_PRECODE_AUTO then precode.val
        else s.get Pg.PLY PLY.CTRL_PRECODE) ∧
      t = { s with regs := t.regs, timers := t.timers } ∧ OnlyRegs [Pg.PLY + PLY.LINK_STATE.off] s t)) ∧
  (∀ s : State, s.plyIn PlySt.train = true → s.running Tm.plyTrain = true →
    Answers .plyTrainTimeout s (fun t =>
      t.plySt = PlySt.detect ∧ t.running Tm.plyTrain = false ∧
      t.get Pg.PLY PLY.TRAIN_FAIL = satAdd32 (s.get Pg.PLY PLY.TRAIN_FAIL) 1 ∧
      t = { s with regs := t.regs, timers := t.timers } ∧
      OnlyRegs [Pg.PLY + PLY.LINK_STATE.off, Pg.PLY + PLY.TRAIN_FAIL.off] s t)) ∧
  (∀ s : State, s.plyIn PlySt.lock = true →
    Answers .plyLock s (fun t =>
      t.plySt = PlySt.exchange ∧ t = { s with regs := t.regs } ∧ OnlyRegs [Pg.PLY + PLY.LINK_STATE.off] s t)) ∧
  (∀ (serial : BitVec 128) (id : Bool) (version : Word) (inForce : Bool) (s : State), s.plyIn PlySt.exchange = true →
    Answers (.plyCapabilities serial id version inForce) s (fun t =>
      t.twin.caps = [serial.toNat, version.toNat, if inForce then 1 else 0] ∧
      (if s.bit Pg.DEV DEV.BOOT_STAT_TWIN_ID = id then
        t.plySt = PlySt.detect ∧ t.fn .ply = ⟨.fault, false, 0x80⟩ ∧ t.role = Role.solo
      else
        t.plySt = PlySt.active ∧ t.bit Pg.PLY PLY.LINK_TWIN_ID = id ∧ t.bit Pg.PLY ⟨HDR.PAGE_EVENT.off, 8, 1⟩ = true ∧
        t.fns = s.fns ∧ t.role = s.role ∧
        SMap.get noTimer t.timers Tm.heartbeat = some (10000 * max 1 (s.get Pg.PLY PLY.TKO_CTRL_HB_MISS))) ∧
        t = { s with
            regs := t.regs, fns := t.fns, pins := t.pins, twin := t.twin, timers := t.timers, sched := t.sched })) ∧
  (∀ (uncorrectable : Bool) (s : State), (s.plyActive || s.plyDrains) = true →
    Answers (.plyLinkLoss uncorrectable) s (fun t =>
      t.plySt = PlySt.detect ∧ t.get Pg.PLY PLY.LINK_DOWN = satAdd32 (s.get Pg.PLY PLY.LINK_DOWN) 1 ∧
      t.get Pg.PLY PLY.CW_UNCORR = (if uncorrectable then satAdd32 (s.get Pg.PLY PLY.CW_UNCORR) 16
        else s.get Pg.PLY PLY.CW_UNCORR) ∧
      t.bit Pg.PLY ⟨HDR.PAGE_EVENT.off, 8, 1⟩ = true ∧ t.get64 Pg.PLY PLY.TWIN_OFFSET_LO = 2 ^ 63 ∧ t.twin.part = [] ∧
      t = { s with
          regs := t.regs, clock := t.clock, servo := t.servo, twin := t.twin, timers := t.timers, free := t.free })) ∧
  (∀ (uncorrectable : Bool) (s : State), (s.plyIn PlySt.lock || s.plyIn PlySt.exchange) = true →
    Answers (.plyLinkLoss uncorrectable) s (fun t =>
      t.plySt = PlySt.detect ∧ OnlyRegs [Pg.PLY + PLY.LINK_STATE.off, Pg.PLY + PLY.CW_UNCORR.off] s t ∧
      t = { s with regs := t.regs, timers := t.timers }))) ∧
  ((∀ (bytes : List Byte) (last : Bool) (corr uncorr : Nat) (s : State), (s.plyActive || s.plyDrains) = true →
    Answers (.plyFrameFlit bytes last corr uncorr) s (fun t =>
      t.get64 Pg.PLY PLY.RX_FLITS_LO = wrapAdd64 (s.get64 Pg.PLY PLY.RX_FLITS_LO) ((bytes.length + 167) / 168) ∧
      t.get Pg.PLY PLY.CW_CORR = satAdd32 (s.get Pg.PLY PLY.CW_CORR) corr ∧
      t.get Pg.PLY PLY.CW_UNCORR = satAdd32 (s.get Pg.PLY PLY.CW_UNCORR) uncorr ∧
      (if s.plyFarLoop = true then t.out = s.out ++ [.plyFrame bytes] ∧ t.twin = s.twin
       else t.out = s.out ∧ t.twin = { s.twin with part := if last then [] else s.twin.part ++ bytes }) ∧
      t = { s with regs := t.regs, cls := t.cls, skein := t.skein, twin := t.twin, out := t.out })) ∧
  (∀ (t1 t2 t3 : BitVec 128) (sub : Fin 131072) (s : State), s.plyActive = true →
    Answers (.timeFlit t1 t2 t3 sub) s (fun t =>
      let arr : Nat := s.stampSub sub / 2 ^ 24
      let f := Config.twinFilter s.twin.filt ((((arr : Int) - t1.toNat) - ((t2.toNat : Int) - t3.toNat)) / 2)
      t.get64 Pg.PLY PLY.RX_FLITS_LO = wrapAdd64 (s.get64 Pg.PLY PLY.RX_FLITS_LO) 1 ∧
      (if s.plyFarLoop = true then t.out = s.out ++ [.plyFlit 1 [t1.toNat, t2.toNat, t3.toNat]] ∧ t.twin = s.twin
       else t.twin.heard = some (arr, t1.toNat) ∧
        (s.twin.sent = true → t.twin.filt = some f ∧ t.get64 Pg.PLY PLY.TWIN_OFFSET_LO = ofSigned 64 f) ∧
        (s.twin.sent = false → t.twin = { s.twin with heard := t.twin.heard } ∧
          OnlyRegs [Pg.PLY + PLY.RX_FLITS_LO.off, Pg.PLY + PLY.RX_FLITS_LO.off + 4] s t)) ∧
          t = { s with
              regs := t.regs, clock := t.clock, servo := t.servo, twin := t.twin, timers := t.timers, free := t.free,
              out := t.out })) ∧
  (∀ s : State, s.plyActive = true →
    Answers .beatSend s (fun t =>
      t.out = s.out ++ [.plyFlit 2 [s.regSt .portA, s.regSt .portB, s.dual.working.num, s.get Pg.PWR PWR.STATE_CURRENT,
        s.role, s.get Pg.TIME TIME0.STAT_SELECTED, s.tstate]] ∧
      t.get64 Pg.PLY PLY.TX_FLITS_LO = wrapAdd64 (s.get64 Pg.PLY PLY.TX_FLITS_LO) 1 ∧
      t = { s with regs := t.regs, out := t.out } ∧
      OnlyRegs [Pg.PLY + PLY.TX_FLITS_LO.off, Pg.PLY + PLY.TX_FLITS_LO.off + 4] s t)) ∧
  (∀ (ra rb : Fin 8) (working : Bool) (power role : Fin 5) (sel : Fin 4) (ts : Fin 8) (s : State), s.plyActive = true →
    s.plyFarLoop = true →
    Answers (.beatReceive ra rb working power role sel ts) s (fun t =>
      t.out = s.out ++ [.plyFlit 2 [ra.val, rb.val, if working then 1 else 0, power.val, role.val, sel.val, ts.val]] ∧
      t = { s with regs := t.regs, out := t.out } ∧
      OnlyRegs [Pg.PLY + PLY.RX_FLITS_LO.off, Pg.PLY + PLY.RX_FLITS_LO.off + 4, Pg.PLY + PLY.TX_FLITS_LO.off,
        Pg.PLY + PLY.TX_FLITS_LO.off + 4] s t)) ∧
  (∀ (ra rb : Fin 8) (working : Bool) (power role : Fin 5) (sel : Fin 4) (ts : Fin 8) (s : State), s.plyActive = true →
    s.plyFarLoop = false →
    Answers (.beatReceive ra rb working power role sel ts) s (fun t =>
      t.twin.beat = [ra.val, rb.val, if working then 1 else 0, power.val, role.val] ∧ t.twin.lost = false ∧
      t.bit Pg.PLY PLY.TKO_STAT_HB_OK = true ∧
      SMap.get noTimer t.timers Tm.heartbeat = some (10000 * max 1 (s.get Pg.PLY PLY.TKO_CTRL_HB_MISS)) ∧
      t.role = (if s.role = Role.standby ∧ s.bit Pg.PLY PLY.TKO_CTRL_AUTO_TKO = true ∧ ra.val ≠ RegSt.work ∧
        rb.val ≠ RegSt.work ∧ (s.inWork .portA || s.inWork .portB) = true then Role.taking else s.role) ∧
      t = { s with
          regs := t.regs, clock := t.clock, servo := t.servo, pins := t.pins, twin := t.twin, timers := t.timers,
          free := t.free, out := t.out, sched := t.sched })) ∧
  (∀ s : State, s.fnIs .ply .running = true → s.twin.lost = false →
    Answers .hbLost s (fun t =>
      t.twin.lost = true ∧ t.bit Pg.PLY PLY.TKO_STAT_HB_OK = false ∧ t.running Tm.heartbeat = false ∧
      t.get Pg.PLY PLY.HB_LOST = satAdd32 (s.get Pg.PLY PLY.HB_LOST) 1 ∧
      t.bit Pg.PLY ⟨HDR.PAGE_EVENT.off, 10, 1⟩ = true ∧
      t.role = (if s.role = Role.standby ∧ s.bit Pg.PLY PLY.TKO_CTRL_AUTO_TKO = true then Role.taking else s.role) ∧
      t = { s with regs := t.regs, pins := t.pins, twin := t.twin, timers := t.timers, out := t.out, sched := t.sched })))

/-- R518 to R521: the takeover role, and the mailbox commands over Ply. The model's choices in it: log entries 72
and 24. -/
def Obligations.TakeoverCommands : Prop :=
  (∀ s : State, s.plyActive = true → s.plyFarLoop = false →
    Answers .tkoTake s (fun t =>
      t.get64 Pg.PLY PLY.RX_FLITS_LO = wrapAdd64 (s.get64 Pg.PLY PLY.RX_FLITS_LO) 1 ∧
      (if s.role = Role.serving then
        t.role = Role.standby ∧ t.pin Pin.serveOut = false ∧ t.out = s.out ++ [.plyFlit 3 [2]] ∧ t.twin.fromYield = true
      else t.role = s.role ∧ t.out = s.out) ∧
      t = { s with
          regs := t.regs, pins := t.pins, twin := t.twin, timers := t.timers, out := t.out, sched := t.sched })) ∧
  (∀ s : State, s.plyActive = true → s.plyFarLoop = false →
    Answers .tkoYield s (fun t =>
      t.get64 Pg.PLY PLY.RX_FLITS_LO = wrapAdd64 (s.get64 Pg.PLY PLY.RX_FLITS_LO) 1 ∧
      (if s.role = Role.taking then
        t.role = Role.serving ∧ t.pin Pin.serveOut = true ∧
        t.get Pg.PLY PLY.TAKEOVERS = satAdd32 (s.get Pg.PLY PLY.TAKEOVERS) 1
      else t.role = s.role) ∧
      t = { s with
          regs := t.regs, pins := t.pins, twin := t.twin, timers := t.timers, out := t.out, sched := t.sched })) ∧
  (∀ s : State, (s.role = Role.standby ∨ s.role = Role.taking) →
    Answers .tkoGuard s (fun t =>
      t.role = Role.serving ∧ t.bit Pg.PLY PLY.TKO_STAT_SERVE_IN = false ∧ t.pin Pin.serveOut = true ∧
      t.get Pg.PLY PLY.TAKEOVERS = satAdd32 (s.get Pg.PLY PLY.TAKEOVERS) 1 ∧
      t.get Pg.PLY PLY.TKO_PLY_LOST = (if s.role = Role.taking ∧ s.plyActive = false then
        satAdd32 (s.get Pg.PLY PLY.TKO_PLY_LOST) 1 else s.get Pg.PLY PLY.TKO_PLY_LOST) ∧
        t = { s with
            regs := t.regs, pins := t.pins, twin := t.twin, timers := t.timers, sched := t.sched })) ∧
  (∀ s : State, s.role = Role.taking →
    Answers .tkoAbort s (fun t =>
      t.role = Role.standby ∧ t.get Pg.PLY PLY.TKO_ABORT = satAdd32 (s.get Pg.PLY PLY.TKO_ABORT) 1 ∧
      t.bit Pg.PLY ⟨HDR.PAGE_EVENT.off, 13, 1⟩ = true ∧
      t = { s with
          regs := t.regs, pins := t.pins, twin := t.twin, timers := t.timers, sched := t.sched })) ∧
  (∀ s : State, s.role = Role.serving → s.bit Pg.DEV DEV.BOOT_STAT_TWIN_ID = true →
    Answers .dualServe s (fun t =>
      t.role = Role.standby ∧ t.pin Pin.serveOut = false ∧ t.bit Pg.PLY PLY.TKO_STAT_SERVE_IN = true ∧
      t.get Pg.PLY PLY.DUAL_SERVE = satAdd32 (s.get Pg.PLY PLY.DUAL_SERVE) 1 ∧
      t.bit Pg.PLY ⟨HDR.PAGE_EVENT.off, 12, 1⟩ = true ∧
      t = { s with
          regs := t.regs, pins := t.pins, twin := t.twin, timers := t.timers, sched := t.sched })) ∧
  (∀ (ch : Chan) (tag : Byte) (args : List Word) (s : State), MbxOpen ch s → s.feat 6 = true → argWord args 1 / 16 % 4 = 0 →
    argWord args 1 / 4 % 4 ≠ 3 → 10 ≤ argWord args 2 % 2 ^ 16 → argWord args 2 / 2 ^ 16 % 2 ^ 8 ≠ 0 →
    ∀ i ∈ [Instr.plyConfig ch tag args, .plyTake ch tag args, .plyYield ch tag args], Answers i s (fun t =>
      let w1 := argWord args 1
      MbxReply ch tag Sts.ok [] t ∧ t.bit Pg.PLY PLY.TKO_CTRL_TKO_EN = decide (w1 % 2 = 1) ∧
      t.bit Pg.PLY PLY.TKO_CTRL_AUTO_TKO = decide (w1 / 2 % 2 = 1) ∧
      t.get Pg.PLY PLY.TKO_CTRL_GUARD_US = argWord args 2 % 2 ^ 16 ∧
      t.get Pg.PLY PLY.TKO_CTRL_HB_MISS = argWord args 2 / 2 ^ 16 % 2 ^ 8 ∧
      t.get Pg.PLY PLY.TKO_GATE = argWord args 3 % 2 ^ 12 ∧ t.twin.use = w1 / 4 % 4 ∧
      t.role = (if w1 % 2 = 1 ∧ s.fnIs .ply .running = true ∧ s.get Pg.PLY PLY.CTRL_LOOP = 0 then
        (if s.role = Role.solo then Role.standby else s.role) else Role.solo) ∧
      t = { s with
          regs := t.regs, servo := t.servo, pins := t.pins, twin := t.twin, timers := t.timers, sched := t.sched })) ∧
  (∀ (ch : Chan) (tag : Byte) (args : List Word) (s : State), MbxOpen ch s → s.feat 6 = true → argWord args 1 / 16 % 4 = 1 →
    ∀ i ∈ [Instr.plyConfig ch tag args, .plyTake ch tag args, .plyYield ch tag args], Answers i s (fun t =>
      (if s.role = Role.standby then
        MbxReply ch tag Sts.ok [] t ∧ t.role = Role.taking ∧
        t.out = s.out ++ (if s.plyActive && !s.plyFarLoop then [.plyFlit 3 [1]] else [])
      else MbxReply ch tag Sts.badArg [] t ∧ t.role = s.role ∧ t.out = s.out) ∧
      t = { s with regs := t.regs, pins := t.pins, twin := t.twin, timers := t.timers, out := t.out, sched := t.sched })) ∧
  (∀ (ch : Chan) (tag : Byte) (args : List Word) (s : State), MbxOpen ch s → s.feat 6 = true → argWord args 1 / 16 % 4 = 2 →
    ∀ i ∈ [Instr.plyConfig ch tag args, .plyTake ch tag args, .plyYield ch tag args], Answers i s (fun t =>
      (if s.role = Role.serving then
        MbxReply ch tag Sts.ok [] t ∧ t.role = Role.standby ∧
        t.out = s.out ++ (if s.plyActive && !s.plyFarLoop then [.plyFlit 3 [2], .plyFlit 3 [3]] else [])
      else MbxReply ch tag Sts.badArg [] t ∧ t.role = s.role ∧ t.out = s.out) ∧
      t = { s with regs := t.regs, pins := t.pins, twin := t.twin, timers := t.timers, out := t.out, sched := t.sched })) ∧
  (∀ (ch : Chan) (tag : Byte) (args : List Word) (s : State), MbxOpen ch s →
    (s.feat 6 = false ∨ (argWord args 1 / 16 % 4 = 3 ∨ argWord args 1 / 16 % 4 = 0 ∧
      (argWord args 1 / 4 % 4 = 3 ∨ argWord args 2 % 2 ^ 16 < 10 ∨ argWord args 2 / 2 ^ 16 % 2 ^ 8 = 0))) →
    ∀ i ∈ [Instr.plyConfig ch tag args, .plyTake ch tag args, .plyYield ch tag args], Answers i s (fun t =>
      MbxReply ch tag (if s.feat 6 = true then Sts.badArg else Sts.notPermitted) [] t ∧ t = { s with regs := t.regs } ∧
      OnlyPages [Pg.HOOK ch] s t))

/-! ### Power (chapter 16) -/

/-- R484 to R488, R490: attempts at a reduced state: begun, agreed, refused, timed out and reached. The model's
choices in it: log entries 68 and 24. -/
def Obligations.PowerAttempts : Prop :=
  (∀ s : State, s.bit Pg.PWR PWR.POLICY_AUTO_DOZE = true → s.pstate = Pst.full → s.powerBusy = false →
    Answers .autoDozeTimer s (fun t =>
      t.powerBusy = true ∧ t.ptarget = Pst.doze ∧ t.power.ask = askOrder Pst.full Pst.doze ∧ t.running Tm.autoDoze = false ∧ t.power.asker = none ∧
      t.get Pg.HOLD HOLD.WAKE_LATCH = 0 ∧ t.pstate = Pst.full ∧
      t = { s with
          regs := t.regs, lineA := t.lineA, lineB := t.lineB, timers := t.timers, power := t.power })) ∧
  (∀ (slot : Nat) (rest : List Nat) (s : State), s.power.ask = slot :: rest → s.powerBusy = true →
    s.whyRefuse s.ptarget slot = none → s.hasStopped s.ptarget slot = true →
    Answers .blockAgree s (fun t =>
      t.power.ask = rest ∧ t.pstate = s.pstate ∧ (∀ d ∈ s.domOff, d ∈ t.domOff) ∧ (slot = 0xC3 → Dom.site ∈ t.domOff) ∧
      (slot = 0xC8 → Dom.ply ∈ t.domOff) ∧ (slot = 0x10 → Dom.core ∈ t.domOff) ∧ (slot = 0x94 → Dom.mem ∈ t.domOff) ∧
      (slot = 0xA0 → Dom.pcie ∈ t.domOff ∧ Dom.timeio ∈ t.domOff ∧ t.bit Pg.HOLD HOLD.SUPPLY_MAIN_EN = false) ∧
      t = { s with
          regs := t.regs, domOff := t.domOff, pins := t.pins, lineA := t.lineA, lineB := t.lineB, timers := t.timers,
          power := t.power })) ∧
  (∀ (slot r : Nat) (rest : List Nat) (s : State), s.power.ask = slot :: rest → s.powerBusy = true →
    s.whyRefuse s.ptarget slot = some r →
    Answers .blockRefuse s (fun t => AttemptFailed slot r s t ∧
    t = { s with
        regs := t.regs, domOff := t.domOff, marker := t.marker, pins := t.pins, lineA := t.lineA, lineB := t.lineB,
        twin := t.twin, timers := t.timers, sched := t.sched, power := t.power })) ∧
  (∀ (slot : Nat) (rest : List Nat) (s : State), s.power.ask = slot :: rest → s.powerBusy = true →
    (s.power.answered = false ∨ slot = 0xA0) →
    Answers .prepareTimeout s (fun t => AttemptFailed slot 5 s t ∧
    t = { s with
        regs := t.regs, domOff := t.domOff, marker := t.marker, pins := t.pins, lineA := t.lineA, lineB := t.lineB,
        twin := t.twin, timers := t.timers, sched := t.sched, power := t.power })) ∧
  (∀ s : State, s.powerBusy = true → s.power.ask = [] → s.ptarget ≤ 4 →
    Answers .stateReached s (fun t =>
      t.pstate = s.ptarget ∧ t.powerBusy = false ∧
      t.get Pg.HOLD (HOLD.ENTRIES s.ptarget) = satAdd32 (s.get Pg.HOLD (HOLD.ENTRIES s.ptarget)) 1 ∧
      t.rd (Pg.PWR + PWR.LAST_ATTEMPT.off) = BitVec.ofNat 32 s.ptarget ∧
      t.bit Pg.PWR ⟨HDR.PAGE_EVENT.off, 8, 1⟩ = true ∧ t.power.since = s.clock.cycles ∧
      t.power.waking = (s.power.latched.isSome || s.power.waking) ∧ t.power.latched = none ∧
      t.get Pg.HOLD HOLD.IMMEDIATE_WAKES = satAdd32 (s.get Pg.HOLD HOLD.IMMEDIATE_WAKES)
        (if s.power.latched.isSome then 1 else 0) ∧ t = { s with regs := t.regs, pins := t.pins, power := t.power })) ∧
  (∀ (ch : Chan) (tag : Byte) (args : List Word) (s : State), MbxOpen ch s → 4 < argWord args 1 % 8 →
    Answers (.powerRequest ch tag args) s (fun t =>
      MbxReply ch tag Sts.badArg [] t ∧ t = { s with regs := t.regs } ∧ OnlyPages [Pg.HOOK ch] s t)) ∧
  (∀ (ch : Chan) (tag : Byte) (args : List Word) (s : State), MbxOpen ch s → argWord args 1 % 8 ≤ 4 →
    (s.powerBusy || s.power.waking) = true →
    Answers (.powerRequest ch tag args) s (fun t =>
      MbxReply ch tag Sts.busy [] t ∧ t = { s with regs := t.regs } ∧ OnlyPages [Pg.HOOK ch] s t)) ∧
  (∀ (ch : Chan) (tag : Byte) (args : List Word) (s : State), MbxOpen ch s → argWord args 1 % 8 ≤ 4 →
    (s.powerBusy || s.power.waking) = false → mayRequest ch s.pstate (argWord args 1 % 8) = false →
    Answers (.powerRequest ch tag args) s (fun t =>
      MbxReply ch tag Sts.notPermitted [] t ∧ t = { s with regs := t.regs } ∧ OnlyPages [Pg.HOOK ch] s t)) ∧
  (∀ (ch : Chan) (tag : Byte) (args : List Word) (s : State), MbxOpen ch s → argWord args 1 % 8 ≤ 4 →
    argWord args 1 % 8 ≠ 0 → (s.powerBusy || s.power.waking) = false →
    mayRequest ch s.pstate (argWord args 1 % 8) = true →
    Answers (.powerRequest ch tag args) s (fun t =>
      let target := argWord args 1 % 8
      (if s.canWake target = true then
        t.powerBusy = true ∧ t.ptarget = target ∧ t.power.ask = askOrder s.pstate target ∧ t.power.asker = some ⟨ch, tag, false⟩ ∧
        t.bit (Pg.HOOK ch) HOOK.MBX_STAT_BUSY = true
      else
        MbxReply ch tag Sts.ok [BitVec.ofNat 32 (2 * 2 ^ 4 + s.pstate)] t ∧ t.powerBusy = false ∧
        t.rd (Pg.PWR + PWR.LAST_ATTEMPT.off) = BitVec.ofNat 32 (2 * 2 ^ 28 + target)) ∧ t.pstate = s.pstate ∧
      t = { s with regs := t.regs, lineA := t.lineA, lineB := t.lineB, timers := t.timers, power := t.power }))

/-- R484, R489 to R493: the wake sources in a reduced state and during an attempt, and the restart that follows. The
model's choices in it: log entry 68. -/
def Obligations.WakeCommands : Prop :=
  (∀ (func : Fin 254) (s : State),
    ∀ x ∈ [(Instr.wakePin, 3, 0, s.bit Pg.HOLD HOLD.WAKE_EN_PIN), (.wakePerst, 4, 0, s.bit Pg.HOLD HOLD.WAKE_EN_PERST),
      (.wakeFirmware, 6, 0, true),
      (.wakeDoorbell func, 5, func.val, (match Fn.ofFunc func.val with
        | some f => s.bit Pg.HOLD HOLD.WAKE_EN_DOORBELL && s.fnIs f .running
        | none => false))],
      (x.2.2.2 = true → s.powerBusy = false → s.power.waking = false → wakeFires x.2.1 s.pstate = true →
        Answers x.1 s (fun t => Woken x.2.1 x.2.2.1 s t ∧
        t = { s with
            regs := t.regs, pins := t.pins, power := t.power })) ∧
      (x.2.2.2 = true → s.powerBusy = true → wakeFires x.2.1 s.ptarget = true →
        Answers x.1 s (fun t =>
          (t.get Pg.HOLD HOLD.WAKE_LATCH).testBit (x.2.1 - 1) = true ∧
          t.power = { s.power with latched := s.power.latched.or (some ⟨x.2.1, x.2.2.1⟩) } ∧
          t = { s with regs := t.regs, power := t.power } ∧ OnlyRegs [Pg.HOLD + HOLD.WAKE_LATCH.off] s t)) ∧
      ((x.2.2.2 = false ∨ (s.powerBusy = false ∧ wakeFires x.2.1 s.pstate = false)) → Answers x.1 s (fun t => t = s))) ∧
  (∀ (k : Fin 32) (key : Nat) (s : State), s.domIsOff .core = false → s.watchEntry k.val = some key →
    s.evBit key = true → s.evMask key = false → keyPowered s.pstate key = true → s.isRaised key = false →
    s.powerBusy = false → s.power.waking = false → s.pstate ≠ Pst.full →
    s.watchSet.find? (fun e => decide (e.2 = key)) = some (k.val, key) →
    Answers (.wakeWatch k) s (fun t => Woken 1 k.val s t ∧ t.isRaised key = true ∧
    t = { s with
        regs := t.regs, marker := t.marker, pins := t.pins, power := t.power })) ∧
  (∀ (slot : BitVec 12) (bit : Fin 32) (k : Nat) (s : State), s.domIsOff .core = false →
    s.evBit (slot.toNat * 32 + bit.val) = true → s.evMask (slot.toNat * 32 + bit.val) = false →
    s.isRaised (slot.toNat * 32 + bit.val) = false → s.powerBusy = false → s.power.waking = false → s.pstate ≠ Pst.full →
    s.watchSet.find? (fun e => decide (e.2 = slot.toNat * 32 + bit.val)) = some (k, slot.toNat * 32 + bit.val) →
    Answers (.eventRaise slot bit) s (fun t =>
      Woken 1 k s t ∧ t.isRaised (slot.toNat * 32 + bit.val) = true ∧
      t = { s with
          regs := t.regs, marker := t.marker, pins := t.pins, power := t.power })) ∧
  (∀ (k : Fin 32) (key : Nat) (s : State), s.domIsOff .core = true →
    s.power.watch.find? (fun e => decide (e.1 = k.val)) = some (k.val, key) → s.evBit key = true → s.evMask key = false →
    keyPowered s.pstate key = true → s.isRaised key = false → s.powerBusy = false → s.power.waking = false →
    s.pstate ≠ Pst.full →
    Answers (.wakeWatch k) s (fun t =>
      Woken 1 k.val s t ∧ t.isRaised key = false ∧
      SMap.get (fun _ => none) t.power.replay key =
        some ((SMap.get (fun _ => none) s.power.replay key).getD s.clock.cnt) ∧
        t = { s with
            regs := t.regs, marker := t.marker, pins := t.pins, power := t.power })) ∧
  (∀ (k : Fin 32) (s : State), s.domIsOff .core = false → s.watchEntry k.val = none →
    Answers (.wakeWatch k) s (fun t => t = s)) ∧
  (∀ (x : Nat) (s : State), s.power.alarm = some x → x ≤ s.clock.cnt / 2 ^ 40 → s.bit Pg.HOLD HOLD.WAKE_EN_ALARM = true →
    s.powerBusy = false → s.power.waking = false → s.pstate ≠ Pst.full →
    Answers .wakeAlarm s (fun t => Woken 2 0 s t ∧ t.power.alarm = none ∧
    t = { s with
        regs := t.regs, pins := t.pins, power := t.power })) ∧
  (∀ s : State, (∀ x, s.power.alarm = some x → s.clock.cnt / 2 ^ 40 < x) → Answers .wakeAlarm s (fun t => t = s)) ∧
  (∀ (src : Source) (hi : Word) (s : State), Granted src (Pg.HOLD + HOLD.ALARM_SEC_HI.off) true s →
    Answers (.alarmCommit src hi) s (fun t =>
      let sec := hi.toNat % 2 ^ 16 * 2 ^ 32 + (s.stagedLo src (Pg.HOLD + HOLD.ALARM_SEC_HI.off)).toNat
      let x := sec * 10 ^ 9 + s.get Pg.HOLD HOLD.ALARM_NS
      t.get Pg.HOLD HOLD.ALARM_SEC_HI * 2 ^ 32 + t.get Pg.HOLD HOLD.ALARM_SEC_LO = sec ∧
      (s.clock.cnt / 2 ^ 40 < x → t.power = { s.power with alarm := some x } ∧
        OnlyRegs [Pg.HOLD + HOLD.ALARM_SEC_LO.off, Pg.HOLD + HOLD.ALARM_SEC_HI.off] s t) ∧
      (x ≤ s.clock.cnt / 2 ^ 40 → t.power.alarm = none) ∧
      t = { s with
          regs := t.regs, staging := t.staging, pins := t.pins, power := t.power })) ∧
  (∀ s : State, s.power.waking = true → s.pstate ≠ Pst.keep →
    Answers .wakeRestartComplete s (fun t =>
      t.pstate = Pst.full ∧ t.domOff = [] ∧ t.power.waking = false ∧ t.power.asker = none ∧ t.power.since = s.clock.cycles ∧
      t.get Pg.HOLD (HOLD.ENTRIES 0) = satAdd32 (s.get Pg.HOLD (HOLD.ENTRIES 0)) 1 ∧
      (∀ a, s.power.asker = some a → a.mute = false →
        MbxReply a.ch a.tag Sts.ok [0] t) ∧
        t = { s with
            regs := t.regs, domOff := t.domOff, marker := t.marker, lineA := t.lineA, lineB := t.lineB,
            timers := t.timers, power := t.power })) ∧
  (∀ (ch : Chan) (tag : Byte) (args : List Word) (s : State), MbxOpen ch s → argWord args 1 % 8 = 0 →
    (s.pstate = Pst.doze ∨ s.pstate = Pst.rest) → s.powerBusy = false → s.power.waking = false →
    Answers (.powerRequest ch tag args) s (fun t =>
      Woken 7 0 s t ∧ t.power.asker = some ⟨ch, tag, false⟩ ∧ t.bit (Pg.HOOK ch) HOOK.MBX_STAT_BUSY = true ∧
      t = { s with regs := t.regs, power := t.power }))

/-- R494 to R496, R52, R62, R541: the holder's two supplies; the monitors, the thermal trip, boundary scan and the
restart of a Hook core. The model's choices in it: log entries 68 and 70. -/
def Obligations.SuppliesAndMonitors : Prop :=
  ((∀ s : State, s.bit Pg.HOLD HOLD.SUPPLY_B_OK = true →
    Answers (.supplySwitch true) s (fun t =>
      t.bit Pg.HOLD HOLD.SUPPLY_A_OK = false ∧ t.bit Pg.HOLD HOLD.SUPPLY_ON_B = true ∧
      t.get Pg.HOLD HOLD.SUPPLY_SWITCHES = satAdd32 (s.get Pg.HOLD HOLD.SUPPLY_SWITCHES)
        (if s.bit Pg.HOLD HOLD.SUPPLY_ON_B then 0 else 1) ∧
      t.bit Pg.HOLD HOLD.SUPPLY_B_LOW = decide (s.power.vholdB < 2850) ∧ t = { s with regs := t.regs } ∧
      OnlyRegs [Pg.HOLD + HOLD.SUPPLY.off, Pg.HOLD + HOLD.SUPPLY_SWITCHES.off, Pg.HOLD + HDR.PAGE_EVENT.off] s t)) ∧
  (∀ s : State, s.bit Pg.HOLD HOLD.SUPPLY_A_OK = true →
    ∀ c ∈ [Instr.supplySwitch false, .vholdAQualified],
      Answers c s (fun t =>
        t.bit Pg.HOLD HOLD.SUPPLY_ON_B = false ∧ t.bit Pg.HOLD HOLD.SUPPLY_A_OK = true ∧
        t.bit Pg.HOLD HOLD.SUPPLY_B_LOW = false ∧
        t.get Pg.HOLD HOLD.SUPPLY_SWITCHES = satAdd32 (s.get Pg.HOLD HOLD.SUPPLY_SWITCHES)
          (if s.bit Pg.HOLD HOLD.SUPPLY_ON_B then 1 else 0) ∧ t = { s with regs := t.regs } ∧
        OnlyRegs [Pg.HOLD + HOLD.SUPPLY.off, Pg.HOLD + HOLD.SUPPLY_SWITCHES.off, Pg.HOLD + HDR.PAGE_EVENT.off] s t)) ∧
  (∀ s : State, s.bit Pg.HOLD HOLD.SUPPLY_A_OK = false →
    Answers .vholdAQualified s (fun t =>
      t.bit Pg.HOLD HOLD.SUPPLY_A_OK = true ∧ t.bit Pg.HOLD HOLD.SUPPLY_ON_B = false ∧ t = { s with regs := t.regs })) ∧
  (∀ (toB : Bool) (s : State), s.bit Pg.HOLD (if toB then HOLD.SUPPLY_B_OK else HOLD.SUPPLY_A_OK) = false →
    Answers (.supplySwitch toB) s (fun t => t = s)) ∧
  (∀ (mv : Fin 65536) (s : State),
    Answers (.backupLow mv) s (fun t =>
      let low := decide (mv.val < 2850) && (s.bit Pg.HOLD HOLD.SUPPLY_ON_B || !s.bit Pg.HOLD HOLD.SUPPLY_A_OK)
      t.power = { s.power with vholdB := mv.val } ∧ t.bit Pg.HOLD HOLD.SUPPLY_B_OK = decide (2600 ≤ mv.val) ∧
      t.bit Pg.HOLD HOLD.SUPPLY_B_LOW = low ∧
      (low = true → s.bit Pg.HOLD HOLD.SUPPLY_B_LOW = false → t.bit Pg.HOLD ⟨HDR.PAGE_EVENT.off, 9, 1⟩ = true) ∧
      t = { s with regs := t.regs, power := t.power } ∧
      OnlyRegs [Pg.HOLD + HOLD.SUPPLY.off, Pg.HOLD + HDR.PAGE_EVENT.off] s t)) ∧
  (∀ s : State,
    Answers .holderSuppliesLost s (fun t =>
      t.power.off = true ∧ t.power.ready = false ∧ t.pins = [] ∧ (∀ d : Dom, t.domIsOff d = true) ∧
      t = { s with domOff := t.domOff, pins := t.pins, power := t.power }))) ∧
  ((∀ (tj : BitVec 16) (s : State), s.domIsOff .core = false →
    Answers (.thermAlert tj) s (fun t =>
      let limit : Int := min 130 (s.get Pg.MON MON.THERM_ALERT_C) * 16
      t.getSigned Pg.MON MON.TEMP_TJ = tj.toInt ∧
      t.getSigned Pg.MON MON.TEMP_PEAK = max (s.getSigned Pg.MON MON.TEMP_PEAK) tj.toInt ∧
      t.bit Pg.MON ⟨HDR.PAGE_EVENT.off, 8, 1⟩ = (s.bit Pg.MON ⟨HDR.PAGE_EVENT.off, 8, 1⟩ ||
        (decide (limit ≤ tj.toInt) && decide (s.getSigned Pg.MON MON.TEMP_TJ < limit))) ∧
      t = { s with regs := t.regs } ∧ OnlyRegs [Pg.MON + MON.TEMP_TJ.off, Pg.MON + HDR.PAGE_EVENT.off] s t)) ∧
  (∀ (mv : List (BitVec 16)) (s : State), s.domIsOff .core = false →
    Answers (.monRailSample mv) s (fun t =>
      (∀ k, k < 12 → mv.length ≤ k →
        t.get Pg.MON (MON.RAIL_MV k) = s.get Pg.MON (MON.RAIL_MV k) ∧
        t.bit Pg.MON (MON.RAIL_LOW k) = s.bit Pg.MON (MON.RAIL_LOW k)) ∧
      (∀ k, k < 12 → k < mv.length → t.get Pg.MON (MON.RAIL_MV k) = (mv.getD k 0).toNat ∧
        t.bit Pg.MON (MON.RAIL_LOW k) = decide ((mv.getD k 0).toNat * 10 < railMin.getD k 0)) ∧
      ((∃ k, k < 12 ∧ k < mv.length ∧ (mv.getD k 0).toNat * 10 < railMin.getD k 0 ∧ s.bit Pg.MON (MON.RAIL_LOW k) = false) →
        t.bit Pg.MON ⟨HDR.PAGE_EVENT.off, 9, 1⟩ = true) ∧
      t = { s with regs := t.regs } ∧ OnlyPages [Pg.MON] s t)) ∧
  (∀ (tj : BitVec 16) (mv : List (BitVec 16)) (s : State), s.domIsOff .core = true →
    ∀ c ∈ [Instr.thermAlert tj, .monRailSample mv], Answers c s (fun t => t = s)) ∧
  (∀ s : State,
    Answers .thermalTrip s (fun t =>
      t.bit Pg.MON MON.THERM_TRIPPED = true ∧ (∀ p, t.bit (Pg.LINE p) LINE1.TX_CTRL_LASER_EN = false) ∧
      (∀ n, n < 4 → t.pin (Pin.siteTx n) = false) ∧
      t = { s with
          regs := t.regs, pins := t.pins, skein := t.skein, lineA := t.lineA, lineB := t.lineB, pcie := t.pcie,
          timers := t.timers, free := t.free, out := t.out })) ∧
  (∀ s : State, s.scan = true →
    Answers .boundaryScan s (fun t => t = { s with scan := false })) ∧
  (∀ s : State, s.scan = false →
    Answers .boundaryScan s (fun t =>
      t.scan = true ∧ (∀ n : Fin 4, t.bit (Pg.SITE n) SITE.STAT_LINK = false) ∧ (∀ p, s.lineOn p = true → t.cdr p = cdrFree) ∧
      (s.fnIs .ply .running = true → t.plySt = PlySt.detect) ∧
      t = { s with
          regs := t.regs, scan := t.scan, clock := t.clock, servo := t.servo, pins := t.pins, skein := t.skein,
          lineA := t.lineA, lineB := t.lineB, pcie := t.pcie, twin := t.twin, timers := t.timers, free := t.free,
          out := t.out, ciph := t.ciph, sched := t.sched, gauge := t.gauge })) ∧
  (∀ (core : Fin 4) (s : State), SMap.get (fun _ => false) s.restarting core.val = true →
    Answers (.hookRestart core) s (fun t =>
      SMap.get (fun _ => false) t.restarting core.val = false ∧ t.bit (Pg.HOOK .ch0) ⟨HDR.PAGE_EVENT.off, 8, 1⟩ = true ∧
      t = { s with regs := t.regs, restarting := t.restarting } ∧ OnlyRegs [Pg.HOOK .ch0 + HDR.PAGE_EVENT.off] s t)) ∧
  (∀ (core : Fin 4) (s : State), SMap.get (fun _ => false) s.restarting core.val = false →
    Answers (.hookRestart core) s (fun t => t = s)))

/-! ### The queue, and what every step keeps -/

/-- A step takes the command at the front of the queue and runs it on the state with the rest of the queue. -/
def Obligations.StepRunsTheFrontCommand : Prop :=
  ∀ (c : Instr) (cs : List Instr) (s : State), s.pending = c :: cs → step s = exec c { s with pending := cs }

/-- With nothing waiting a step is one cycle of `ck_time` (the model's choice, log entry 1): the demand write-backs
that wait are carried out, and once the holder is ready the time counter advances by the increment in force, the
residency counter of the power state may with it, and at the end of 1,024 cycles the alignment instant takes
effect. -/
def Obligations.IdleStepIsOneCycle : Prop :=
  ∀ s : State, s.pending = [] →
    let u := s.writeBacks
    u = { s with mem := { s.mem with data := u.mem.data, flips := u.mem.flips, writeBack := [] } } ∧
    (∀ a, (∀ e ∈ s.mem.writeBack, a < e.1 * 8 ∨ e.1 * 8 + e.2.length ≤ a) → u.memByte a = s.memByte a) ∧
    (∀ e, s.mem.writeBack = [e] → u.memBytes (e.1 * 8) e.2.length = e.2) ∧
    (∀ w, u.flipsAt w = if w ∈ s.mem.writeBack.map (fun e => e.1) then 0 else s.flipsAt w) ∧
    (s.power.ready = false → step s = .next u) ∧
    (s.power.ready = true → 1024 ≤ s.clock.phase + 1 → step s = exec .alignmentInstant u) ∧
    (s.power.ready = true → s.clock.phase + 1 < 1024 →
      ∃ t, step s = .next t ∧
        t.clock = { s.clock with
          cnt := (s.clock.cnt + s.clock.inc) % clockMod, phase := s.clock.phase + 1, cycles := s.clock.cycles + 1 } ∧
        t = { u with regs := t.regs, clock := t.clock } ∧
        OnlyRegs [Pg.HOLD + (residLo s.pstate).off, Pg.HOLD + (residLo s.pstate).off + 4] s t)

/-- Every command answers a next state in every state, and so does every step: no command faults or stops. The
model's choices in it: log entry 4. -/
def Obligations.WellFormedCommandsAnswer : Prop :=
  (∀ (c : Instr) (s : State), ∃ t, exec c s = .next t) ∧ (∀ s : State, ∃ t, step s = .next t)

/-- A command's effect leaves the queue of the commands that wait. -/
def Obligations.CommandsLeaveTheQueue : Prop :=
  ∀ (c : Instr) (s t : State), exec c s = .next t → t.pending = s.pending

/-- R38: A function holds PEND_RUN only in BINDING_OFF, after every step from a state in which that is so. -/
def Obligations.PendRunOnlyInBindingOff : Prop :=
  ∀ s t : State, PendRunOk s → step s = .next t → PendRunOk t

/-- R59, R73: over every step a programmed fuse stays programmed, rollback counters never decrease and the
protection set-up only narrows; a request to widen it is turned away; ROLLBACK_COMMIT programs a type's counter
up to the index of the image running, and no other command programs one. The model's choices in it: log entries
31 and 34. -/
def Obligations.FusesAndProtectionOnlyNarrow : Prop :=
  (∀ s t : State, step s = .next t →
    (∀ n, s.fuse n = true → t.fuse n = true) ∧ (∀ k, s.rollbackCount k ≤ t.rollbackCount k) ∧ Narrower s.fuses t.fuses) ∧
  (∀ (ch : Chan) (tag : Byte) (req : ProtectReq) (s : State), MbxOpen ch s →
    ¬ Narrower s.fuses { s.fuses with
      debug := req.debug, bootSrcAllow := req.bootSrcAllow, ownerKeysLocked := req.ownerKeysLocked, oobFull := req.oobFull,
      userKernels := req.userKernels } →
    Answers (.protectAdvance ch tag req) s (fun t => MbxReply ch tag Sts.notPermitted [] t ∧ t.fuses = s.fuses)) ∧
  (∀ (ch : Chan) (tag : Byte) (type : Fin 4) (i : ImgInfo) (s : State), MbxOpen ch s → s.runningImage type.val = some i →
    Answers (.rollbackCommit ch tag type) s (fun t =>
      MbxReply ch tag Sts.ok [] t ∧ min 128 i.rollback ≤ t.rollbackCount type.val ∧
      ∀ k, k < min 128 i.rollback → t.fuse (4416 + 128 * type.val + k) = true)) ∧
  (∀ (c : Instr) (s t : State), exec c s = .next t → (∀ ch tag type, c ≠ .rollbackCommit ch tag type) →
    (∀ h ∈ s.mbxHeld, ∀ type, h.req ≠ .rollbackCommit type) → ∀ k : Fin 4, t.rollbackCount k.val = s.rollbackCount k.val)

/-- The memory, the registers, the scheduler's nodes and the policers keep their canonical form, and each line port
its six defects, over every step. -/
def Obligations.TablesKeepTheirCanonicalForm : Prop :=
  ∀ s t : State, Coherent s → step s = .next t → Coherent t

/-- The state after reset: every function in OFF with no RUN held, no command waiting, every register at its reset
value, memory with nothing listed, and the tables in their canonical form. The model's choices in it: log
entries 11 and 10. -/
def Obligations.ResetState : Prop :=
  (∀ f : Fn, State.reset.fn f = ⟨.off, false, 0⟩) ∧ State.reset.pending = [] ∧ (∀ a, State.reset.rd a = resetOf a) ∧
  (∀ a, State.reset.memByte a = 0) ∧ State.reset.domOff = [] ∧ State.reset.snap.pending = false ∧
  State.reset.mbxHeld = [] ∧ Coherent State.reset ∧ PendRunOk State.reset
end

