-- ==== Sys2Proof/Laws/SMap.lean ====
section
/-!
SUPPORT. Laws/SMap.lean: the laws of sparse maps: read after write, and that every operation keeps the canonical form.
-/

namespace Sys2Proof.Machine

variable {α : Type}

/-! ### Read after write -/

theorem SMap.find_erase_self (m : SMap α) (k : Nat) : SMap.find (SMap.erase m k) k = none := by
  induction m with
  | nil => rfl
  | cons kv m ih =>
    obtain ⟨k', v⟩ := kv
    by_cases h : k = k'
    · simpa [SMap.erase, h] using h ▸ ih
    · simpa [SMap.erase, SMap.find, h] using ih

theorem SMap.find_erase_ne (m : SMap α) {k j : Nat} (h : j ≠ k) : SMap.find (SMap.erase m k) j = SMap.find m j := by
  induction m with
  | nil => rfl
  | cons kv m ih =>
    obtain ⟨k', v⟩ := kv
    by_cases hk : k = k'
    · have : j ≠ k' := fun e => h (e.trans hk.symm)
      simpa [SMap.erase, SMap.find, hk, this] using hk ▸ ih
    · by_cases hj : j = k'
      · simp [SMap.erase, SMap.find, hk, hj]
      · simpa [SMap.erase, SMap.find, hk, hj] using ih

theorem SMap.find_insert_self (m : SMap α) (k : Nat) (v : α) : SMap.find (SMap.insert m k v) k = some v := by
  induction m with
  | nil => simp [SMap.insert, SMap.find]
  | cons kv m ih =>
    obtain ⟨k', v'⟩ := kv
    by_cases h1 : k < k'
    · simp [SMap.insert, SMap.find, h1]
    · by_cases h2 : k = k'
      · simp [SMap.insert, SMap.find, h2]
      · simpa [SMap.insert, SMap.find, h1, h2] using ih

theorem SMap.find_insert_ne (m : SMap α) {k j : Nat} (v : α) (h : j ≠ k) :
    SMap.find (SMap.insert m k v) j = SMap.find m j := by
  induction m with
  | nil => simp [SMap.insert, SMap.find, h]
  | cons kv m ih =>
    obtain ⟨k', v'⟩ := kv
    by_cases h1 : k < k'
    · simp [SMap.insert, SMap.find, h1, h]
    · by_cases h2 : k = k'
      · subst h2; simp [SMap.insert, SMap.find, h]
      · by_cases hj : j = k'
        · simp [SMap.insert, SMap.find, h1, h2, hj]
        · simpa [SMap.insert, SMap.find, h1, h2, hj] using ih

/-- A key just written reads as written. -/
@[simp] theorem SMap.get_set_self [DecidableEq α] (d : Nat → α) (m : SMap α) (k : Nat) (v : α) :
    SMap.get d (SMap.set d m k v) k = v := by
  unfold SMap.get SMap.set
  split
  · next h => rw [SMap.find_erase_self]; exact h.symm
  · rw [SMap.find_insert_self]; rfl

/-- A write leaves every other key alone. -/
theorem SMap.get_set_ne [DecidableEq α] (d : Nat → α) (m : SMap α) {k j : Nat} (v : α) (h : j ≠ k) :
    SMap.get d (SMap.set d m k v) j = SMap.get d m j := by
  unfold SMap.get SMap.set
  split
  · rw [SMap.find_erase_ne m h]
  · rw [SMap.find_insert_ne m v h]

/-- Read after write, either way. -/
theorem SMap.get_set [DecidableEq α] (d : Nat → α) (m : SMap α) (k j : Nat) (v : α) :
    SMap.get d (SMap.set d m k v) j = if j = k then v else SMap.get d m j := by
  by_cases h : j = k
  · subst h; simp
  · simp [SMap.get_set_ne d m v h, h]

/-- Nothing is listed in the empty map. -/
@[simp] theorem SMap.get_nil (d : Nat → α) (k : Nat) : SMap.get d [] k = d k := rfl

theorem SMap.find_drop (p : Nat → Bool) (m : SMap α) (k : Nat) :
    SMap.find (SMap.drop p m) k = if p k then none else SMap.find m k := by
  induction m with
  | nil => simp [SMap.drop, SMap.find]
  | cons kv m ih =>
    obtain ⟨k', v⟩ := kv
    simp only [SMap.drop, List.filter_cons] at ih ⊢
    by_cases hk : k = k'
    · subst hk
      cases hp : p k
      · simp [SMap.find]
      · simpa [hp] using ih
    · cases hp : p k' <;> simp [SMap.find, hk, ih]

/-- A dropped key reads as unlisted, the others as before. -/
theorem SMap.get_drop (d : Nat → α) (p : Nat → Bool) (m : SMap α) (k : Nat) :
    SMap.get d (SMap.drop p m) k = if p k then d k else SMap.get d m k := by
  unfold SMap.get
  rw [SMap.find_drop]
  split <;> simp

/-! ### The canonical form -/

/-- Keys above a bound are above a lower one. -/
theorem SMap.sortedFrom_weaken {b c : Nat} (m : SMap α) (h : b ≤ c) (hs : SMap.sortedFrom (some c) m = true) :
    SMap.sortedFrom (some b) m = true := by
  cases m with
  | nil => rfl
  | cons kv m =>
    obtain ⟨k, v⟩ := kv
    simp only [SMap.sortedFrom, Bool.and_eq_true, decide_eq_true_eq] at hs ⊢
    exact ⟨by omega, hs.2⟩

theorem SMap.sortedFrom_erase (m : SMap α) (k : Nat) : ∀ b, SMap.sortedFrom b m = true → SMap.sortedFrom b (SMap.erase m k) = true := by
  induction m with
  | nil => intro b h; exact h
  | cons kv m ih =>
    obtain ⟨k', v⟩ := kv
    intro b h
    have hm : SMap.sortedFrom (some k') m = true := by
      cases b <;> simp [SMap.sortedFrom] at h
      · exact h
      · exact h.2
    by_cases hk : k = k'
    · simp only [SMap.erase, hk, if_true]
      cases b with
      | none =>
        have := ih (some k') hm
        rw [hk] at this
        cases hq : SMap.erase m k' with
        | nil => rfl
        | cons q qs =>
          obtain ⟨a, w⟩ := q
          rw [hq] at this
          simp only [SMap.sortedFrom, Bool.and_eq_true] at this ⊢
          exact this.2
      | some b =>
        simp only [SMap.sortedFrom, Bool.and_eq_true, decide_eq_true_eq] at h
        exact SMap.sortedFrom_weaken _ (Nat.le_of_lt h.1) (hk ▸ ih (some k') hm)
    · simp only [SMap.erase, hk, if_false]
      cases b with
      | none => simpa [SMap.sortedFrom] using ih (some k') hm
      | some b =>
        simp only [SMap.sortedFrom, Bool.and_eq_true, decide_eq_true_eq] at h ⊢
        exact ⟨h.1, ih (some k') hm⟩

theorem SMap.sortedFrom_insert (m : SMap α) (k : Nat) (v : α) :
    ∀ b, SMap.sortedFrom b m = true → (∀ x, b = some x → x < k) → SMap.sortedFrom b (SMap.insert m k v) = true := by
  induction m with
  | nil =>
    intro b _ hb
    cases b with
    | none => rfl
    | some b => simpa [SMap.insert, SMap.sortedFrom] using hb b rfl
  | cons kv m ih =>
    obtain ⟨k', v'⟩ := kv
    intro b h hb
    have hm : SMap.sortedFrom (some k') m = true := by
      cases b <;> simp [SMap.sortedFrom] at h
      · exact h
      · exact h.2
    have hk' : ∀ x, b = some x → x < k' := by
      intro x hx; subst hx
      simp only [SMap.sortedFrom, Bool.and_eq_true, decide_eq_true_eq] at h; exact h.1
    by_cases h1 : k < k'
    · cases b with
      | none => simp [SMap.insert, SMap.sortedFrom, h1, hm]
      | some b => simp [SMap.insert, SMap.sortedFrom, h1, hm, hb b rfl]
    · by_cases h2 : k = k'
      · subst h2
        cases b with
        | none => simp [SMap.insert, SMap.sortedFrom, hm]
        | some b => simp [SMap.insert, SMap.sortedFrom, hm, hb b rfl]
      · have := ih (some k') hm (by intro x hx; cases hx; omega)
        cases b with
        | none => simpa [SMap.insert, SMap.sortedFrom, h1, h2] using this
        | some b => simpa [SMap.insert, SMap.sortedFrom, h1, h2, hk' b rfl] using this

theorem SMap.all_erase (p : Nat × α → Bool) (m : SMap α) (k : Nat) (h : m.all p = true) : (SMap.erase m k).all p = true := by
  induction m with
  | nil => rfl
  | cons kv m ih =>
    obtain ⟨k', v⟩ := kv
    simp only [List.all_cons, Bool.and_eq_true] at h
    have hm := ih h.2
    by_cases hk : k = k'
    · simp only [SMap.erase, hk, if_true]; exact hk ▸ hm
    · simp only [SMap.erase, hk, if_false, List.all_cons, Bool.and_eq_true]
      exact ⟨h.1, hm⟩

theorem SMap.all_insert (p : Nat × α → Bool) (m : SMap α) (k : Nat) (v : α) (h : m.all p = true) (hv : p (k, v) = true) :
    (SMap.insert m k v).all p = true := by
  induction m with
  | nil => simpa [SMap.insert] using hv
  | cons kv m ih =>
    obtain ⟨k', v'⟩ := kv
    simp only [List.all_cons, Bool.and_eq_true] at h
    by_cases h1 : k < k'
    · simp only [SMap.insert, h1, if_true, List.all_cons, Bool.and_eq_true]; exact ⟨hv, h.1, h.2⟩
    · by_cases h2 : k = k'
      · subst h2; simp only [SMap.insert, Nat.lt_irrefl, if_false, if_true, List.all_cons, Bool.and_eq_true]; exact ⟨hv, h.2⟩
      · simp only [SMap.insert, h1, h2, if_false, List.all_cons, Bool.and_eq_true]; exact ⟨h.1, ih h.2⟩

/-- A write keeps the canonical form. -/
theorem SMap.wf_set [DecidableEq α] (d : Nat → α) (m : SMap α) (k : Nat) (v : α) (h : SMap.wf d m = true) :
    SMap.wf d (SMap.set d m k v) = true := by
  simp only [SMap.wf, Bool.and_eq_true] at h ⊢
  unfold SMap.set
  split
  · exact ⟨SMap.sortedFrom_erase m k none h.1, SMap.all_erase _ m k h.2⟩
  · next hv =>
    exact ⟨SMap.sortedFrom_insert m k v none h.1 (by intro x hx; cases hx),
      SMap.all_insert _ m k v h.2 (by simpa using hv)⟩

/-- So does a run of writes. -/
theorem SMap.wf_setList [DecidableEq α] (d : Nat → α) (vs : List α) :
    ∀ (m : SMap α) (k : Nat), SMap.wf d m = true → SMap.wf d (SMap.setList d m k vs) = true := by
  induction vs with
  | nil => intro m k h; exact h
  | cons v vs ih => intro m k h; exact ih _ _ (SMap.wf_set d m k v h)

theorem SMap.sortedFrom_filter (p : Nat × α → Bool) (m : SMap α) :
    ∀ b, SMap.sortedFrom b m = true → SMap.sortedFrom b (m.filter p) = true := by
  induction m with
  | nil => intro b h; exact h
  | cons kv m ih =>
    obtain ⟨k', v⟩ := kv
    intro b h
    have hm : SMap.sortedFrom (some k') m = true := by
      cases b <;> simp [SMap.sortedFrom] at h
      · exact h
      · exact h.2
    have ih' := ih (some k') hm
    cases hp : p (k', v) with
    | true =>
      rw [List.filter_cons_of_pos hp]
      cases b with
      | none => simpa [SMap.sortedFrom] using ih'
      | some b =>
        simp only [SMap.sortedFrom, Bool.and_eq_true, decide_eq_true_eq] at h ⊢
        exact ⟨h.1, ih'⟩
    | false =>
      rw [List.filter_cons_of_neg (by simp [hp])]
      cases b with
      | none =>
        cases hq : m.filter p with
        | nil => rfl
        | cons q qs =>
          obtain ⟨a, w⟩ := q
          rw [hq] at ih'
          simp only [SMap.sortedFrom, Bool.and_eq_true] at ih' ⊢
          exact ih'.2
      | some b =>
        simp only [SMap.sortedFrom, Bool.and_eq_true, decide_eq_true_eq] at h
        exact SMap.sortedFrom_weaken _ (Nat.le_of_lt h.1) ih'

/-- Keeping some pairs keeps the canonical form. -/
theorem SMap.wf_filter [DecidableEq α] (d : Nat → α) (p : Nat × α → Bool) (m : SMap α) (h : SMap.wf d m = true) :
    SMap.wf d (m.filter p) = true := by
  simp only [SMap.wf, Bool.and_eq_true] at h ⊢
  refine ⟨SMap.sortedFrom_filter p m none h.1, ?_⟩
  rw [List.all_eq_true] at h ⊢
  intro x hx
  exact h.2 x (List.mem_filter.mp hx).1

/-- So does dropping keys. -/
theorem SMap.wf_drop [DecidableEq α] (d : Nat → α) (p : Nat → Bool) (m : SMap α) (h : SMap.wf d m = true) :
    SMap.wf d (SMap.drop p m) = true := SMap.wf_filter d _ m h

end Sys2Proof.Machine
end

