-- ==== Sys2Proof/Laws/State.lean ====
section
/-!
SUPPORT. Laws/State.lean: read after write for registers and their fields, and what each shared update of State leaves
alone: one lemma per field per update.
-/

namespace Sys2Proof.Machine

/-! ### Registers -/

/-- Read after write of a register. -/
theorem State.rd_wr (s : State) (a b : Nat) (w : Word) : (s.wr a w).rd b = if b = a then w else s.rd b := by
  simp only [State.rd, State.wr]; exact SMap.get_set resetOf s.regs a b w

@[simp] theorem State.rd_wr_self (s : State) (a : Nat) (w : Word) : (s.wr a w).rd a = w := by simp [State.rd_wr]

theorem State.rd_wr_ne (s : State) {a b : Nat} (w : Word) (h : b ≠ a) : (s.wr a w).rd b = s.rd b := by simp [State.rd_wr, h]

/-- A register of a state reads from its register map alone. -/
theorem State.rd_of_regs {s t : State} (h : t.regs = s.regs) (a : Nat) : t.rd a = s.rd a := by simp [State.rd, h]

/-- At reset every register reads its reset value. -/
@[simp] theorem State.rd_reset (a : Nat) : State.reset.rd a = resetOf a := rfl

/-- The register maps of `wr` keep the canonical form. -/
theorem State.wr_regs_wf (s : State) (a : Nat) (w : Word) (h : SMap.wf resetOf s.regs = true) :
    SMap.wf resetOf (s.wr a w).regs = true := SMap.wf_set _ _ _ _ h

/-! ### Fields of a register -/

/-- The bits of a word with a field replaced. -/
theorem Fld.put_toNat (F : Fld) (w : Word) (v : Nat) (hF : F.lo + F.w ≤ 32) :
    (F.put w v).toNat = w.toNat % 2 ^ F.lo + v % 2 ^ F.w * 2 ^ F.lo + w.toNat / 2 ^ (F.lo + F.w) * 2 ^ (F.lo + F.w) := by
  unfold Fld.put
  rw [BitVec.toNat_ofNat]
  apply Nat.mod_eq_of_lt
  have h1 : w.toNat % 2 ^ F.lo < 2 ^ F.lo := Nat.mod_lt _ (Nat.two_pow_pos _)
  have h2 : v % 2 ^ F.w < 2 ^ F.w := Nat.mod_lt _ (Nat.two_pow_pos _)
  have h3 : w.toNat % 2 ^ F.lo + v % 2 ^ F.w * 2 ^ F.lo < 2 ^ (F.lo + F.w) := by
    have : (v % 2 ^ F.w + 1) * 2 ^ F.lo ≤ 2 ^ F.w * 2 ^ F.lo := Nat.mul_le_mul_right _ h2
    rw [Nat.add_mul, Nat.one_mul] at this
    rw [Nat.pow_add, Nat.mul_comm (2 ^ F.lo)]; omega
  have h4 : w.toNat / 2 ^ (F.lo + F.w) < 2 ^ (32 - (F.lo + F.w)) := by
    rw [Nat.div_lt_iff_lt_mul (Nat.two_pow_pos _), ← Nat.pow_add]
    have : 32 - (F.lo + F.w) + (F.lo + F.w) = 32 := by omega
    rw [this]; exact w.isLt
  have h5 : (w.toNat / 2 ^ (F.lo + F.w) + 1) * 2 ^ (F.lo + F.w) ≤ 2 ^ (32 - (F.lo + F.w)) * 2 ^ (F.lo + F.w) :=
    Nat.mul_le_mul_right _ h4
  rw [← Nat.pow_add, (by omega : 32 - (F.lo + F.w) + (F.lo + F.w) = 32), Nat.add_mul, Nat.one_mul] at h5
  omega

/-- A field just put reads as put. -/
theorem Fld.get_put_self (F : Fld) (w : Word) (v : Nat) (hF : F.lo + F.w ≤ 32) : F.get (F.put w v) = v % 2 ^ F.w := by
  unfold Fld.get
  rw [Fld.put_toNat F w v hF]
  have h1 : w.toNat % 2 ^ F.lo < 2 ^ F.lo := Nat.mod_lt _ (Nat.two_pow_pos _)
  have h2 : v % 2 ^ F.w < 2 ^ F.w := Nat.mod_lt _ (Nat.two_pow_pos _)
  generalize w.toNat % 2 ^ F.lo = x at *
  generalize v % 2 ^ F.w = y at *
  generalize w.toNat / 2 ^ (F.lo + F.w) = z
  have e : x + y * 2 ^ F.lo + z * 2 ^ (F.lo + F.w) = x + 2 ^ F.lo * (y + 2 ^ F.w * z) := by
    rw [Nat.pow_add, Nat.mul_add]
    have : z * (2 ^ F.lo * 2 ^ F.w) = 2 ^ F.lo * (2 ^ F.w * z) := by
      rw [Nat.mul_comm z, Nat.mul_assoc]
    rw [this, Nat.mul_comm y]; omega
  rw [e, Nat.add_mul_div_left _ _ (Nat.two_pow_pos _), Nat.div_eq_of_lt h1, Nat.zero_add, Nat.add_mul_mod_self_left,
    Nat.mod_eq_of_lt h2]

/-- Putting one field leaves a field beside it alone. -/
theorem Fld.get_put_ne (F G : Fld) (w : Word) (v : Nat) (hG : G.lo + G.w ≤ 32) (h : F.lo + F.w ≤ G.lo ∨ G.lo + G.w ≤ F.lo) :
    F.get (G.put w v) = F.get w := by
  unfold Fld.get
  rw [Fld.put_toNat G w v hG]
  have h1 : w.toNat % 2 ^ G.lo < 2 ^ G.lo := Nat.mod_lt _ (Nat.two_pow_pos _)
  have h2 : v % 2 ^ G.w < 2 ^ G.w := Nat.mod_lt _ (Nat.two_pow_pos _)
  have h3 : w.toNat % 2 ^ G.lo + v % 2 ^ G.w * 2 ^ G.lo < 2 ^ (G.lo + G.w) := by
    have : (v % 2 ^ G.w + 1) * 2 ^ G.lo ≤ 2 ^ G.w * 2 ^ G.lo := Nat.mul_le_mul_right _ h2
    rw [Nat.add_mul, Nat.one_mul] at this
    rw [Nat.pow_add, Nat.mul_comm (2 ^ G.lo)]; omega
  rcases h with h | h
  · -- the field lies below the one put
    obtain ⟨d, hd⟩ : ∃ d, G.lo = F.lo + F.w + d := ⟨G.lo - (F.lo + F.w), by omega⟩
    have hlow : ∀ n : Nat, n / 2 ^ F.lo % 2 ^ F.w = n % 2 ^ G.lo / 2 ^ F.lo % 2 ^ F.w := by
      intro n
      have e1 : 2 ^ G.lo = 2 ^ F.lo * (2 ^ F.w * 2 ^ d) := by rw [hd, Nat.pow_add, Nat.pow_add, Nat.mul_assoc]
      rw [e1, Nat.mod_mul_right_div_self, Nat.mod_mul_right_mod]
    rw [hlow, hlow w.toNat]
    congr 2
    have e2 : v % 2 ^ G.w * 2 ^ G.lo + w.toNat / 2 ^ (G.lo + G.w) * 2 ^ (G.lo + G.w)
        = 2 ^ G.lo * (v % 2 ^ G.w + w.toNat / 2 ^ (G.lo + G.w) * 2 ^ G.w) := by
      rw [Nat.mul_add, Nat.mul_comm (v % 2 ^ G.w), Nat.pow_add]
      congr 1
      rw [← Nat.mul_assoc, Nat.mul_comm (w.toNat / _), Nat.mul_assoc]
    rw [Nat.add_assoc, e2, Nat.add_mul_mod_self_left, Nat.mod_mod]
  · -- the field lies above it
    obtain ⟨d, hd⟩ : ∃ d, F.lo = G.lo + G.w + d := ⟨F.lo - (G.lo + G.w), by omega⟩
    have hhigh : ∀ n : Nat, n / 2 ^ F.lo = n / 2 ^ (G.lo + G.w) / 2 ^ d := by
      intro n; rw [hd, Nat.pow_add, Nat.div_div_eq_div_mul]
    rw [hhigh, hhigh w.toNat, Nat.add_mul_div_right _ _ (Nat.two_pow_pos _), Nat.div_eq_of_lt h3, Nat.zero_add]

/-- A field set and read again. -/
theorem State.get_set_self (s : State) (b : Nat) (F : Fld) (v : Nat) (hF : F.lo + F.w ≤ 32) :
    (s.set b F v).get b F = v % 2 ^ F.w := by
  unfold State.get State.set
  rw [State.rd_wr_self]; exact Fld.get_put_self F _ v hF

/-- A field of another register is left alone. -/
theorem State.get_set_reg (s : State) (b c : Nat) (F G : Fld) (v : Nat) (h : c + F.off ≠ b + G.off) :
    (s.set b G v).get c F = s.get c F := by
  unfold State.get State.set
  rw [State.rd_wr_ne _ _ h]

/-- A field beside the one set is left alone. -/
theorem State.get_set_ne (s : State) (b c : Nat) (F G : Fld) (v : Nat) (hG : G.lo + G.w ≤ 32)
    (h : F.lo + F.w ≤ G.lo ∨ G.lo + G.w ≤ F.lo) : (s.set b G v).get c F = s.get c F := by
  by_cases hr : c + F.off = b + G.off
  · unfold State.get State.set
    rw [← hr, State.rd_wr_self]; exact Fld.get_put_ne F G _ v hG h
  · exact State.get_set_reg s b c F G v hr

/-- Every other register is left alone by a field set. -/
theorem State.rd_set_ne (s : State) (b : Nat) (F : Fld) (v : Nat) {a : Nat} (h : a ≠ b + F.off) :
    (s.set b F v).rd a = s.rd a := State.rd_wr_ne s _ h

/-! `State.wr` changes `regs` alone. -/

@[simp] theorem State.wr_snapView (s : State) (a : Nat) (w : Word) : (s.wr a w).snapView = s.snapView := rfl
@[simp] theorem State.wr_latches (s : State) (a : Nat) (w : Word) : (s.wr a w).latches = s.latches := rfl
@[simp] theorem State.wr_staging (s : State) (a : Nat) (w : Word) : (s.wr a w).staging = s.staging := rfl
@[simp] theorem State.wr_recLatch (s : State) (a : Nat) (w : Word) : (s.wr a w).recLatch = s.recLatch := rfl
@[simp] theorem State.wr_rdata (s : State) (a : Nat) (w : Word) : (s.wr a w).rdata = s.rdata := rfl
@[simp] theorem State.wr_fns (s : State) (a : Nat) (w : Word) : (s.wr a w).fns = s.fns := rfl
@[simp] theorem State.wr_domOff (s : State) (a : Nat) (w : Word) : (s.wr a w).domOff = s.domOff := rfl
@[simp] theorem State.wr_evtAt (s : State) (a : Nat) (w : Word) : (s.wr a w).evtAt = s.evtAt := rfl
@[simp] theorem State.wr_marker (s : State) (a : Nat) (w : Word) : (s.wr a w).marker = s.marker := rfl
@[simp] theorem State.wr_snap (s : State) (a : Nat) (w : Word) : (s.wr a w).snap = s.snap := rfl
@[simp] theorem State.wr_boot (s : State) (a : Nat) (w : Word) : (s.wr a w).boot = s.boot := rfl
@[simp] theorem State.wr_upd (s : State) (a : Nat) (w : Word) : (s.wr a w).upd = s.upd := rfl
@[simp] theorem State.wr_fuses (s : State) (a : Nat) (w : Word) : (s.wr a w).fuses = s.fuses := rfl
@[simp] theorem State.wr_flash (s : State) (a : Nat) (w : Word) : (s.wr a w).flash = s.flash := rfl
@[simp] theorem State.wr_security (s : State) (a : Nat) (w : Word) : (s.wr a w).security = s.security := rfl
@[simp] theorem State.wr_mbxHeld (s : State) (a : Nat) (w : Word) : (s.wr a w).mbxHeld = s.mbxHeld := rfl
@[simp] theorem State.wr_watchdog (s : State) (a : Nat) (w : Word) : (s.wr a w).watchdog = s.watchdog := rfl
@[simp] theorem State.wr_restarting (s : State) (a : Nat) (w : Word) : (s.wr a w).restarting = s.restarting := rfl
@[simp] theorem State.wr_clock (s : State) (a : Nat) (w : Word) : (s.wr a w).clock = s.clock := rfl
@[simp] theorem State.wr_servo (s : State) (a : Nat) (w : Word) : (s.wr a w).servo = s.servo := rfl
@[simp] theorem State.wr_pins (s : State) (a : Nat) (w : Word) : (s.wr a w).pins = s.pins := rfl
@[simp] theorem State.wr_cls (s : State) (a : Nat) (w : Word) : (s.wr a w).cls = s.cls := rfl
@[simp] theorem State.wr_skein (s : State) (a : Nat) (w : Word) : (s.wr a w).skein = s.skein := rfl
@[simp] theorem State.wr_perSrc (s : State) (a : Nat) (w : Word) : (s.wr a w).perSrc = s.perSrc := rfl
@[simp] theorem State.wr_mem (s : State) (a : Nat) (w : Word) : (s.wr a w).mem = s.mem := rfl
@[simp] theorem State.wr_lineA (s : State) (a : Nat) (w : Word) : (s.wr a w).lineA = s.lineA := rfl
@[simp] theorem State.wr_lineB (s : State) (a : Nat) (w : Word) : (s.wr a w).lineB = s.lineB := rfl
@[simp] theorem State.wr_dual (s : State) (a : Nat) (w : Word) : (s.wr a w).dual = s.dual := rfl
@[simp] theorem State.wr_pcie (s : State) (a : Nat) (w : Word) : (s.wr a w).pcie = s.pcie := rfl
@[simp] theorem State.wr_twin (s : State) (a : Nat) (w : Word) : (s.wr a w).twin = s.twin := rfl
@[simp] theorem State.wr_timers (s : State) (a : Nat) (w : Word) : (s.wr a w).timers = s.timers := rfl
@[simp] theorem State.wr_free (s : State) (a : Nat) (w : Word) : (s.wr a w).free = s.free := rfl
@[simp] theorem State.wr_out (s : State) (a : Nat) (w : Word) : (s.wr a w).out = s.out := rfl
@[simp] theorem State.wr_pending (s : State) (a : Nat) (w : Word) : (s.wr a w).pending = s.pending := rfl
@[simp] theorem State.wr_ciph (s : State) (a : Nat) (w : Word) : (s.wr a w).ciph = s.ciph := rfl
@[simp] theorem State.wr_sched (s : State) (a : Nat) (w : Word) : (s.wr a w).sched = s.sched := rfl
@[simp] theorem State.wr_siteWake (s : State) (a : Nat) (w : Word) : (s.wr a w).siteWake = s.siteWake := rfl
@[simp] theorem State.wr_ndl (s : State) (a : Nat) (w : Word) : (s.wr a w).ndl = s.ndl := rfl
@[simp] theorem State.wr_capture (s : State) (a : Nat) (w : Word) : (s.wr a w).capture = s.capture := rfl
@[simp] theorem State.wr_ndlChunks (s : State) (a : Nat) (w : Word) : (s.wr a w).ndlChunks = s.ndlChunks := rfl
@[simp] theorem State.wr_gauge (s : State) (a : Nat) (w : Word) : (s.wr a w).gauge = s.gauge := rfl
@[simp] theorem State.wr_power (s : State) (a : Nat) (w : Word) : (s.wr a w).power = s.power := rfl

/-! `State.set` changes `regs` alone. -/

@[simp] theorem State.set_snapView (s : State) (b : Nat) (F : Fld) (v : Nat) : (s.set b F v).snapView = s.snapView := by
  simp only [State.set, State.wr_snapView]
@[simp] theorem State.set_latches (s : State) (b : Nat) (F : Fld) (v : Nat) : (s.set b F v).latches = s.latches := by
  simp only [State.set, State.wr_latches]
@[simp] theorem State.set_staging (s : State) (b : Nat) (F : Fld) (v : Nat) : (s.set b F v).staging = s.staging := by
  simp only [State.set, State.wr_staging]
@[simp] theorem State.set_recLatch (s : State) (b : Nat) (F : Fld) (v : Nat) : (s.set b F v).recLatch = s.recLatch := by
  simp only [State.set, State.wr_recLatch]
@[simp] theorem State.set_rdata (s : State) (b : Nat) (F : Fld) (v : Nat) : (s.set b F v).rdata = s.rdata := by
  simp only [State.set, State.wr_rdata]
@[simp] theorem State.set_fns (s : State) (b : Nat) (F : Fld) (v : Nat) : (s.set b F v).fns = s.fns := by
  simp only [State.set, State.wr_fns]
@[simp] theorem State.set_domOff (s : State) (b : Nat) (F : Fld) (v : Nat) : (s.set b F v).domOff = s.domOff := by
  simp only [State.set, State.wr_domOff]
@[simp] theorem State.set_evtAt (s : State) (b : Nat) (F : Fld) (v : Nat) : (s.set b F v).evtAt = s.evtAt := by
  simp only [State.set, State.wr_evtAt]
@[simp] theorem State.set_marker (s : State) (b : Nat) (F : Fld) (v : Nat) : (s.set b F v).marker = s.marker := by
  simp only [State.set, State.wr_marker]
@[simp] theorem State.set_snap (s : State) (b : Nat) (F : Fld) (v : Nat) : (s.set b F v).snap = s.snap := by
  simp only [State.set, State.wr_snap]
@[simp] theorem State.set_boot (s : State) (b : Nat) (F : Fld) (v : Nat) : (s.set b F v).boot = s.boot := by
  simp only [State.set, State.wr_boot]
@[simp] theorem State.set_upd (s : State) (b : Nat) (F : Fld) (v : Nat) : (s.set b F v).upd = s.upd := by
  simp only [State.set, State.wr_upd]
@[simp] theorem State.set_fuses (s : State) (b : Nat) (F : Fld) (v : Nat) : (s.set b F v).fuses = s.fuses := by
  simp only [State.set, State.wr_fuses]
@[simp] theorem State.set_flash (s : State) (b : Nat) (F : Fld) (v : Nat) : (s.set b F v).flash = s.flash := by
  simp only [State.set, State.wr_flash]
@[simp] theorem State.set_security (s : State) (b : Nat) (F : Fld) (v : Nat) : (s.set b F v).security = s.security := by
  simp only [State.set, State.wr_security]
@[simp] theorem State.set_mbxHeld (s : State) (b : Nat) (F : Fld) (v : Nat) : (s.set b F v).mbxHeld = s.mbxHeld := by
  simp only [State.set, State.wr_mbxHeld]
@[simp] theorem State.set_watchdog (s : State) (b : Nat) (F : Fld) (v : Nat) : (s.set b F v).watchdog = s.watchdog := by
  simp only [State.set, State.wr_watchdog]
@[simp] theorem State.set_restarting (s : State) (b : Nat) (F : Fld) (v : Nat) : (s.set b F v).restarting = s.restarting := by
  simp only [State.set, State.wr_restarting]
@[simp] theorem State.set_clock (s : State) (b : Nat) (F : Fld) (v : Nat) : (s.set b F v).clock = s.clock := by
  simp only [State.set, State.wr_clock]
@[simp] theorem State.set_servo (s : State) (b : Nat) (F : Fld) (v : Nat) : (s.set b F v).servo = s.servo := by
  simp only [State.set, State.wr_servo]
@[simp] theorem State.set_pins (s : State) (b : Nat) (F : Fld) (v : Nat) : (s.set b F v).pins = s.pins := by
  simp only [State.set, State.wr_pins]
@[simp] theorem State.set_cls (s : State) (b : Nat) (F : Fld) (v : Nat) : (s.set b F v).cls = s.cls := by
  simp only [State.set, State.wr_cls]
@[simp] theorem State.set_skein (s : State) (b : Nat) (F : Fld) (v : Nat) : (s.set b F v).skein = s.skein := by
  simp only [State.set, State.wr_skein]
@[simp] theorem State.set_perSrc (s : State) (b : Nat) (F : Fld) (v : Nat) : (s.set b F v).perSrc = s.perSrc := by
  simp only [State.set, State.wr_perSrc]
@[simp] theorem State.set_mem (s : State) (b : Nat) (F : Fld) (v : Nat) : (s.set b F v).mem = s.mem := by
  simp only [State.set, State.wr_mem]
@[simp] theorem State.set_lineA (s : State) (b : Nat) (F : Fld) (v : Nat) : (s.set b F v).lineA = s.lineA := by
  simp only [State.set, State.wr_lineA]
@[simp] theorem State.set_lineB (s : State) (b : Nat) (F : Fld) (v : Nat) : (s.set b F v).lineB = s.lineB := by
  simp only [State.set, State.wr_lineB]
@[simp] theorem State.set_dual (s : State) (b : Nat) (F : Fld) (v : Nat) : (s.set b F v).dual = s.dual := by
  simp only [State.set, State.wr_dual]
@[simp] theorem State.set_pcie (s : State) (b : Nat) (F : Fld) (v : Nat) : (s.set b F v).pcie = s.pcie := by
  simp only [State.set, State.wr_pcie]
@[simp] theorem State.set_twin (s : State) (b : Nat) (F : Fld) (v : Nat) : (s.set b F v).twin = s.twin := by
  simp only [State.set, State.wr_twin]
@[simp] theorem State.set_timers (s : State) (b : Nat) (F : Fld) (v : Nat) : (s.set b F v).timers = s.timers := by
  simp only [State.set, State.wr_timers]
@[simp] theorem State.set_free (s : State) (b : Nat) (F : Fld) (v : Nat) : (s.set b F v).free = s.free := by
  simp only [State.set, State.wr_free]
@[simp] theorem State.set_out (s : State) (b : Nat) (F : Fld) (v : Nat) : (s.set b F v).out = s.out := by
  simp only [State.set, State.wr_out]
@[simp] theorem State.set_pending (s : State) (b : Nat) (F : Fld) (v : Nat) : (s.set b F v).pending = s.pending := by
  simp only [State.set, State.wr_pending]
@[simp] theorem State.set_ciph (s : State) (b : Nat) (F : Fld) (v : Nat) : (s.set b F v).ciph = s.ciph := by
  simp only [State.set, State.wr_ciph]
@[simp] theorem State.set_sched (s : State) (b : Nat) (F : Fld) (v : Nat) : (s.set b F v).sched = s.sched := by
  simp only [State.set, State.wr_sched]
@[simp] theorem State.set_siteWake (s : State) (b : Nat) (F : Fld) (v : Nat) : (s.set b F v).siteWake = s.siteWake := by
  simp only [State.set, State.wr_siteWake]
@[simp] theorem State.set_ndl (s : State) (b : Nat) (F : Fld) (v : Nat) : (s.set b F v).ndl = s.ndl := by
  simp only [State.set, State.wr_ndl]
@[simp] theorem State.set_capture (s : State) (b : Nat) (F : Fld) (v : Nat) : (s.set b F v).capture = s.capture := by
  simp only [State.set, State.wr_capture]
@[simp] theorem State.set_ndlChunks (s : State) (b : Nat) (F : Fld) (v : Nat) : (s.set b F v).ndlChunks = s.ndlChunks := by
  simp only [State.set, State.wr_ndlChunks]
@[simp] theorem State.set_gauge (s : State) (b : Nat) (F : Fld) (v : Nat) : (s.set b F v).gauge = s.gauge := by
  simp only [State.set, State.wr_gauge]
@[simp] theorem State.set_power (s : State) (b : Nat) (F : Fld) (v : Nat) : (s.set b F v).power = s.power := by
  simp only [State.set, State.wr_power]

/-! `State.setBit` changes `regs` alone. -/

@[simp] theorem State.setBit_snapView (s : State) (b : Nat) (F : Fld) (v : Bool) : (s.setBit b F v).snapView = s.snapView := by
  simp only [State.setBit, State.set_snapView]
@[simp] theorem State.setBit_latches (s : State) (b : Nat) (F : Fld) (v : Bool) : (s.setBit b F v).latches = s.latches := by
  simp only [State.setBit, State.set_latches]
@[simp] theorem State.setBit_staging (s : State) (b : Nat) (F : Fld) (v : Bool) : (s.setBit b F v).staging = s.staging := by
  simp only [State.setBit, State.set_staging]
@[simp] theorem State.setBit_recLatch (s : State) (b : Nat) (F : Fld) (v : Bool) : (s.setBit b F v).recLatch = s.recLatch := by
  simp only [State.setBit, State.set_recLatch]
@[simp] theorem State.setBit_rdata (s : State) (b : Nat) (F : Fld) (v : Bool) : (s.setBit b F v).rdata = s.rdata := by
  simp only [State.setBit, State.set_rdata]
@[simp] theorem State.setBit_fns (s : State) (b : Nat) (F : Fld) (v : Bool) : (s.setBit b F v).fns = s.fns := by
  simp only [State.setBit, State.set_fns]
@[simp] theorem State.setBit_domOff (s : State) (b : Nat) (F : Fld) (v : Bool) : (s.setBit b F v).domOff = s.domOff := by
  simp only [State.setBit, State.set_domOff]
@[simp] theorem State.setBit_evtAt (s : State) (b : Nat) (F : Fld) (v : Bool) : (s.setBit b F v).evtAt = s.evtAt := by
  simp only [State.setBit, State.set_evtAt]
@[simp] theorem State.setBit_marker (s : State) (b : Nat) (F : Fld) (v : Bool) : (s.setBit b F v).marker = s.marker := by
  simp only [State.setBit, State.set_marker]
@[simp] theorem State.setBit_snap (s : State) (b : Nat) (F : Fld) (v : Bool) : (s.setBit b F v).snap = s.snap := by
  simp only [State.setBit, State.set_snap]
@[simp] theorem State.setBit_boot (s : State) (b : Nat) (F : Fld) (v : Bool) : (s.setBit b F v).boot = s.boot := by
  simp only [State.setBit, State.set_boot]
@[simp] theorem State.setBit_upd (s : State) (b : Nat) (F : Fld) (v : Bool) : (s.setBit b F v).upd = s.upd := by
  simp only [State.setBit, State.set_upd]
@[simp] theorem State.setBit_fuses (s : State) (b : Nat) (F : Fld) (v : Bool) : (s.setBit b F v).fuses = s.fuses := by
  simp only [State.setBit, State.set_fuses]
@[simp] theorem State.setBit_flash (s : State) (b : Nat) (F : Fld) (v : Bool) : (s.setBit b F v).flash = s.flash := by
  simp only [State.setBit, State.set_flash]
@[simp] theorem State.setBit_security (s : State) (b : Nat) (F : Fld) (v : Bool) : (s.setBit b F v).security = s.security := by
  simp only [State.setBit, State.set_security]
@[simp] theorem State.setBit_mbxHeld (s : State) (b : Nat) (F : Fld) (v : Bool) : (s.setBit b F v).mbxHeld = s.mbxHeld := by
  simp only [State.setBit, State.set_mbxHeld]
@[simp] theorem State.setBit_watchdog (s : State) (b : Nat) (F : Fld) (v : Bool) : (s.setBit b F v).watchdog = s.watchdog := by
  simp only [State.setBit, State.set_watchdog]
@[simp] theorem State.setBit_restarting (s : State) (b : Nat) (F : Fld) (v : Bool) : (s.setBit b F v).restarting = s.restarting := by
  simp only [State.setBit, State.set_restarting]
@[simp] theorem State.setBit_clock (s : State) (b : Nat) (F : Fld) (v : Bool) : (s.setBit b F v).clock = s.clock := by
  simp only [State.setBit, State.set_clock]
@[simp] theorem State.setBit_servo (s : State) (b : Nat) (F : Fld) (v : Bool) : (s.setBit b F v).servo = s.servo := by
  simp only [State.setBit, State.set_servo]
@[simp] theorem State.setBit_pins (s : State) (b : Nat) (F : Fld) (v : Bool) : (s.setBit b F v).pins = s.pins := by
  simp only [State.setBit, State.set_pins]
@[simp] theorem State.setBit_cls (s : State) (b : Nat) (F : Fld) (v : Bool) : (s.setBit b F v).cls = s.cls := by
  simp only [State.setBit, State.set_cls]
@[simp] theorem State.setBit_skein (s : State) (b : Nat) (F : Fld) (v : Bool) : (s.setBit b F v).skein = s.skein := by
  simp only [State.setBit, State.set_skein]
@[simp] theorem State.setBit_perSrc (s : State) (b : Nat) (F : Fld) (v : Bool) : (s.setBit b F v).perSrc = s.perSrc := by
  simp only [State.setBit, State.set_perSrc]
@[simp] theorem State.setBit_mem (s : State) (b : Nat) (F : Fld) (v : Bool) : (s.setBit b F v).mem = s.mem := by
  simp only [State.setBit, State.set_mem]
@[simp] theorem State.setBit_lineA (s : State) (b : Nat) (F : Fld) (v : Bool) : (s.setBit b F v).lineA = s.lineA := by
  simp only [State.setBit, State.set_lineA]
@[simp] theorem State.setBit_lineB (s : State) (b : Nat) (F : Fld) (v : Bool) : (s.setBit b F v).lineB = s.lineB := by
  simp only [State.setBit, State.set_lineB]
@[simp] theorem State.setBit_dual (s : State) (b : Nat) (F : Fld) (v : Bool) : (s.setBit b F v).dual = s.dual := by
  simp only [State.setBit, State.set_dual]
@[simp] theorem State.setBit_pcie (s : State) (b : Nat) (F : Fld) (v : Bool) : (s.setBit b F v).pcie = s.pcie := by
  simp only [State.setBit, State.set_pcie]
@[simp] theorem State.setBit_twin (s : State) (b : Nat) (F : Fld) (v : Bool) : (s.setBit b F v).twin = s.twin := by
  simp only [State.setBit, State.set_twin]
@[simp] theorem State.setBit_timers (s : State) (b : Nat) (F : Fld) (v : Bool) : (s.setBit b F v).timers = s.timers := by
  simp only [State.setBit, State.set_timers]
@[simp] theorem State.setBit_free (s : State) (b : Nat) (F : Fld) (v : Bool) : (s.setBit b F v).free = s.free := by
  simp only [State.setBit, State.set_free]
@[simp] theorem State.setBit_out (s : State) (b : Nat) (F : Fld) (v : Bool) : (s.setBit b F v).out = s.out := by
  simp only [State.setBit, State.set_out]
@[simp] theorem State.setBit_pending (s : State) (b : Nat) (F : Fld) (v : Bool) : (s.setBit b F v).pending = s.pending := by
  simp only [State.setBit, State.set_pending]
@[simp] theorem State.setBit_ciph (s : State) (b : Nat) (F : Fld) (v : Bool) : (s.setBit b F v).ciph = s.ciph := by
  simp only [State.setBit, State.set_ciph]
@[simp] theorem State.setBit_sched (s : State) (b : Nat) (F : Fld) (v : Bool) : (s.setBit b F v).sched = s.sched := by
  simp only [State.setBit, State.set_sched]
@[simp] theorem State.setBit_siteWake (s : State) (b : Nat) (F : Fld) (v : Bool) : (s.setBit b F v).siteWake = s.siteWake := by
  simp only [State.setBit, State.set_siteWake]
@[simp] theorem State.setBit_ndl (s : State) (b : Nat) (F : Fld) (v : Bool) : (s.setBit b F v).ndl = s.ndl := by
  simp only [State.setBit, State.set_ndl]
@[simp] theorem State.setBit_capture (s : State) (b : Nat) (F : Fld) (v : Bool) : (s.setBit b F v).capture = s.capture := by
  simp only [State.setBit, State.set_capture]
@[simp] theorem State.setBit_ndlChunks (s : State) (b : Nat) (F : Fld) (v : Bool) : (s.setBit b F v).ndlChunks = s.ndlChunks := by
  simp only [State.setBit, State.set_ndlChunks]
@[simp] theorem State.setBit_gauge (s : State) (b : Nat) (F : Fld) (v : Bool) : (s.setBit b F v).gauge = s.gauge := by
  simp only [State.setBit, State.set_gauge]
@[simp] theorem State.setBit_power (s : State) (b : Nat) (F : Fld) (v : Bool) : (s.setBit b F v).power = s.power := by
  simp only [State.setBit, State.set_power]

/-! `State.set64` changes `regs` alone. -/

@[simp] theorem State.set64_snapView (s : State) (b : Nat) (F : Fld) (v : Nat) : (s.set64 b F v).snapView = s.snapView := by
  simp only [State.set64, State.wr_snapView]
@[simp] theorem State.set64_latches (s : State) (b : Nat) (F : Fld) (v : Nat) : (s.set64 b F v).latches = s.latches := by
  simp only [State.set64, State.wr_latches]
@[simp] theorem State.set64_staging (s : State) (b : Nat) (F : Fld) (v : Nat) : (s.set64 b F v).staging = s.staging := by
  simp only [State.set64, State.wr_staging]
@[simp] theorem State.set64_recLatch (s : State) (b : Nat) (F : Fld) (v : Nat) : (s.set64 b F v).recLatch = s.recLatch := by
  simp only [State.set64, State.wr_recLatch]
@[simp] theorem State.set64_rdata (s : State) (b : Nat) (F : Fld) (v : Nat) : (s.set64 b F v).rdata = s.rdata := by
  simp only [State.set64, State.wr_rdata]
@[simp] theorem State.set64_fns (s : State) (b : Nat) (F : Fld) (v : Nat) : (s.set64 b F v).fns = s.fns := by
  simp only [State.set64, State.wr_fns]
@[simp] theorem State.set64_domOff (s : State) (b : Nat) (F : Fld) (v : Nat) : (s.set64 b F v).domOff = s.domOff := by
  simp only [State.set64, State.wr_domOff]
@[simp] theorem State.set64_evtAt (s : State) (b : Nat) (F : Fld) (v : Nat) : (s.set64 b F v).evtAt = s.evtAt := by
  simp only [State.set64, State.wr_evtAt]
@[simp] theorem State.set64_marker (s : State) (b : Nat) (F : Fld) (v : Nat) : (s.set64 b F v).marker = s.marker := by
  simp only [State.set64, State.wr_marker]
@[simp] theorem State.set64_snap (s : State) (b : Nat) (F : Fld) (v : Nat) : (s.set64 b F v).snap = s.snap := by
  simp only [State.set64, State.wr_snap]
@[simp] theorem State.set64_boot (s : State) (b : Nat) (F : Fld) (v : Nat) : (s.set64 b F v).boot = s.boot := by
  simp only [State.set64, State.wr_boot]
@[simp] theorem State.set64_upd (s : State) (b : Nat) (F : Fld) (v : Nat) : (s.set64 b F v).upd = s.upd := by
  simp only [State.set64, State.wr_upd]
@[simp] theorem State.set64_fuses (s : State) (b : Nat) (F : Fld) (v : Nat) : (s.set64 b F v).fuses = s.fuses := by
  simp only [State.set64, State.wr_fuses]
@[simp] theorem State.set64_flash (s : State) (b : Nat) (F : Fld) (v : Nat) : (s.set64 b F v).flash = s.flash := by
  simp only [State.set64, State.wr_flash]
@[simp] theorem State.set64_security (s : State) (b : Nat) (F : Fld) (v : Nat) : (s.set64 b F v).security = s.security := by
  simp only [State.set64, State.wr_security]
@[simp] theorem State.set64_mbxHeld (s : State) (b : Nat) (F : Fld) (v : Nat) : (s.set64 b F v).mbxHeld = s.mbxHeld := by
  simp only [State.set64, State.wr_mbxHeld]
@[simp] theorem State.set64_watchdog (s : State) (b : Nat) (F : Fld) (v : Nat) : (s.set64 b F v).watchdog = s.watchdog := by
  simp only [State.set64, State.wr_watchdog]
@[simp] theorem State.set64_restarting (s : State) (b : Nat) (F : Fld) (v : Nat) : (s.set64 b F v).restarting = s.restarting := by
  simp only [State.set64, State.wr_restarting]
@[simp] theorem State.set64_clock (s : State) (b : Nat) (F : Fld) (v : Nat) : (s.set64 b F v).clock = s.clock := by
  simp only [State.set64, State.wr_clock]
@[simp] theorem State.set64_servo (s : State) (b : Nat) (F : Fld) (v : Nat) : (s.set64 b F v).servo = s.servo := by
  simp only [State.set64, State.wr_servo]
@[simp] theorem State.set64_pins (s : State) (b : Nat) (F : Fld) (v : Nat) : (s.set64 b F v).pins = s.pins := by
  simp only [State.set64, State.wr_pins]
@[simp] theorem State.set64_cls (s : State) (b : Nat) (F : Fld) (v : Nat) : (s.set64 b F v).cls = s.cls := by
  simp only [State.set64, State.wr_cls]
@[simp] theorem State.set64_skein (s : State) (b : Nat) (F : Fld) (v : Nat) : (s.set64 b F v).skein = s.skein := by
  simp only [State.set64, State.wr_skein]
@[simp] theorem State.set64_perSrc (s : State) (b : Nat) (F : Fld) (v : Nat) : (s.set64 b F v).perSrc = s.perSrc := by
  simp only [State.set64, State.wr_perSrc]
@[simp] theorem State.set64_mem (s : State) (b : Nat) (F : Fld) (v : Nat) : (s.set64 b F v).mem = s.mem := by
  simp only [State.set64, State.wr_mem]
@[simp] theorem State.set64_lineA (s : State) (b : Nat) (F : Fld) (v : Nat) : (s.set64 b F v).lineA = s.lineA := by
  simp only [State.set64, State.wr_lineA]
@[simp] theorem State.set64_lineB (s : State) (b : Nat) (F : Fld) (v : Nat) : (s.set64 b F v).lineB = s.lineB := by
  simp only [State.set64, State.wr_lineB]
@[simp] theorem State.set64_dual (s : State) (b : Nat) (F : Fld) (v : Nat) : (s.set64 b F v).dual = s.dual := by
  simp only [State.set64, State.wr_dual]
@[simp] theorem State.set64_pcie (s : State) (b : Nat) (F : Fld) (v : Nat) : (s.set64 b F v).pcie = s.pcie := by
  simp only [State.set64, State.wr_pcie]
@[simp] theorem State.set64_twin (s : State) (b : Nat) (F : Fld) (v : Nat) : (s.set64 b F v).twin = s.twin := by
  simp only [State.set64, State.wr_twin]
@[simp] theorem State.set64_timers (s : State) (b : Nat) (F : Fld) (v : Nat) : (s.set64 b F v).timers = s.timers := by
  simp only [State.set64, State.wr_timers]
@[simp] theorem State.set64_free (s : State) (b : Nat) (F : Fld) (v : Nat) : (s.set64 b F v).free = s.free := by
  simp only [State.set64, State.wr_free]
@[simp] theorem State.set64_out (s : State) (b : Nat) (F : Fld) (v : Nat) : (s.set64 b F v).out = s.out := by
  simp only [State.set64, State.wr_out]
@[simp] theorem State.set64_pending (s : State) (b : Nat) (F : Fld) (v : Nat) : (s.set64 b F v).pending = s.pending := by
  simp only [State.set64, State.wr_pending]
@[simp] theorem State.set64_ciph (s : State) (b : Nat) (F : Fld) (v : Nat) : (s.set64 b F v).ciph = s.ciph := by
  simp only [State.set64, State.wr_ciph]
@[simp] theorem State.set64_sched (s : State) (b : Nat) (F : Fld) (v : Nat) : (s.set64 b F v).sched = s.sched := by
  simp only [State.set64, State.wr_sched]
@[simp] theorem State.set64_siteWake (s : State) (b : Nat) (F : Fld) (v : Nat) : (s.set64 b F v).siteWake = s.siteWake := by
  simp only [State.set64, State.wr_siteWake]
@[simp] theorem State.set64_ndl (s : State) (b : Nat) (F : Fld) (v : Nat) : (s.set64 b F v).ndl = s.ndl := by
  simp only [State.set64, State.wr_ndl]
@[simp] theorem State.set64_capture (s : State) (b : Nat) (F : Fld) (v : Nat) : (s.set64 b F v).capture = s.capture := by
  simp only [State.set64, State.wr_capture]
@[simp] theorem State.set64_ndlChunks (s : State) (b : Nat) (F : Fld) (v : Nat) : (s.set64 b F v).ndlChunks = s.ndlChunks := by
  simp only [State.set64, State.wr_ndlChunks]
@[simp] theorem State.set64_gauge (s : State) (b : Nat) (F : Fld) (v : Nat) : (s.set64 b F v).gauge = s.gauge := by
  simp only [State.set64, State.wr_gauge]
@[simp] theorem State.set64_power (s : State) (b : Nat) (F : Fld) (v : Nat) : (s.set64 b F v).power = s.power := by
  simp only [State.set64, State.wr_power]

/-! `State.addCnt` changes `regs` alone. -/

@[simp] theorem State.addCnt_snapView (s : State) (b : Nat) (F : Fld) (n : Nat) : (s.addCnt b F n).snapView = s.snapView := by
  simp only [State.addCnt, State.set_snapView]
@[simp] theorem State.addCnt_latches (s : State) (b : Nat) (F : Fld) (n : Nat) : (s.addCnt b F n).latches = s.latches := by
  simp only [State.addCnt, State.set_latches]
@[simp] theorem State.addCnt_staging (s : State) (b : Nat) (F : Fld) (n : Nat) : (s.addCnt b F n).staging = s.staging := by
  simp only [State.addCnt, State.set_staging]
@[simp] theorem State.addCnt_recLatch (s : State) (b : Nat) (F : Fld) (n : Nat) : (s.addCnt b F n).recLatch = s.recLatch := by
  simp only [State.addCnt, State.set_recLatch]
@[simp] theorem State.addCnt_rdata (s : State) (b : Nat) (F : Fld) (n : Nat) : (s.addCnt b F n).rdata = s.rdata := by
  simp only [State.addCnt, State.set_rdata]
@[simp] theorem State.addCnt_fns (s : State) (b : Nat) (F : Fld) (n : Nat) : (s.addCnt b F n).fns = s.fns := by
  simp only [State.addCnt, State.set_fns]
@[simp] theorem State.addCnt_domOff (s : State) (b : Nat) (F : Fld) (n : Nat) : (s.addCnt b F n).domOff = s.domOff := by
  simp only [State.addCnt, State.set_domOff]
@[simp] theorem State.addCnt_evtAt (s : State) (b : Nat) (F : Fld) (n : Nat) : (s.addCnt b F n).evtAt = s.evtAt := by
  simp only [State.addCnt, State.set_evtAt]
@[simp] theorem State.addCnt_marker (s : State) (b : Nat) (F : Fld) (n : Nat) : (s.addCnt b F n).marker = s.marker := by
  simp only [State.addCnt, State.set_marker]
@[simp] theorem State.addCnt_snap (s : State) (b : Nat) (F : Fld) (n : Nat) : (s.addCnt b F n).snap = s.snap := by
  simp only [State.addCnt, State.set_snap]
@[simp] theorem State.addCnt_boot (s : State) (b : Nat) (F : Fld) (n : Nat) : (s.addCnt b F n).boot = s.boot := by
  simp only [State.addCnt, State.set_boot]
@[simp] theorem State.addCnt_upd (s : State) (b : Nat) (F : Fld) (n : Nat) : (s.addCnt b F n).upd = s.upd := by
  simp only [State.addCnt, State.set_upd]
@[simp] theorem State.addCnt_fuses (s : State) (b : Nat) (F : Fld) (n : Nat) : (s.addCnt b F n).fuses = s.fuses := by
  simp only [State.addCnt, State.set_fuses]
@[simp] theorem State.addCnt_flash (s : State) (b : Nat) (F : Fld) (n : Nat) : (s.addCnt b F n).flash = s.flash := by
  simp only [State.addCnt, State.set_flash]
@[simp] theorem State.addCnt_security (s : State) (b : Nat) (F : Fld) (n : Nat) : (s.addCnt b F n).security = s.security := by
  simp only [State.addCnt, State.set_security]
@[simp] theorem State.addCnt_mbxHeld (s : State) (b : Nat) (F : Fld) (n : Nat) : (s.addCnt b F n).mbxHeld = s.mbxHeld := by
  simp only [State.addCnt, State.set_mbxHeld]
@[simp] theorem State.addCnt_watchdog (s : State) (b : Nat) (F : Fld) (n : Nat) : (s.addCnt b F n).watchdog = s.watchdog := by
  simp only [State.addCnt, State.set_watchdog]
@[simp] theorem State.addCnt_restarting (s : State) (b : Nat) (F : Fld) (n : Nat) : (s.addCnt b F n).restarting = s.restarting := by
  simp only [State.addCnt, State.set_restarting]
@[simp] theorem State.addCnt_clock (s : State) (b : Nat) (F : Fld) (n : Nat) : (s.addCnt b F n).clock = s.clock := by
  simp only [State.addCnt, State.set_clock]
@[simp] theorem State.addCnt_servo (s : State) (b : Nat) (F : Fld) (n : Nat) : (s.addCnt b F n).servo = s.servo := by
  simp only [State.addCnt, State.set_servo]
@[simp] theorem State.addCnt_pins (s : State) (b : Nat) (F : Fld) (n : Nat) : (s.addCnt b F n).pins = s.pins := by
  simp only [State.addCnt, State.set_pins]
@[simp] theorem State.addCnt_cls (s : State) (b : Nat) (F : Fld) (n : Nat) : (s.addCnt b F n).cls = s.cls := by
  simp only [State.addCnt, State.set_cls]
@[simp] theorem State.addCnt_skein (s : State) (b : Nat) (F : Fld) (n : Nat) : (s.addCnt b F n).skein = s.skein := by
  simp only [State.addCnt, State.set_skein]
@[simp] theorem State.addCnt_perSrc (s : State) (b : Nat) (F : Fld) (n : Nat) : (s.addCnt b F n).perSrc = s.perSrc := by
  simp only [State.addCnt, State.set_perSrc]
@[simp] theorem State.addCnt_mem (s : State) (b : Nat) (F : Fld) (n : Nat) : (s.addCnt b F n).mem = s.mem := by
  simp only [State.addCnt, State.set_mem]
@[simp] theorem State.addCnt_lineA (s : State) (b : Nat) (F : Fld) (n : Nat) : (s.addCnt b F n).lineA = s.lineA := by
  simp only [State.addCnt, State.set_lineA]
@[simp] theorem State.addCnt_lineB (s : State) (b : Nat) (F : Fld) (n : Nat) : (s.addCnt b F n).lineB = s.lineB := by
  simp only [State.addCnt, State.set_lineB]
@[simp] theorem State.addCnt_dual (s : State) (b : Nat) (F : Fld) (n : Nat) : (s.addCnt b F n).dual = s.dual := by
  simp only [State.addCnt, State.set_dual]
@[simp] theorem State.addCnt_pcie (s : State) (b : Nat) (F : Fld) (n : Nat) : (s.addCnt b F n).pcie = s.pcie := by
  simp only [State.addCnt, State.set_pcie]
@[simp] theorem State.addCnt_twin (s : State) (b : Nat) (F : Fld) (n : Nat) : (s.addCnt b F n).twin = s.twin := by
  simp only [State.addCnt, State.set_twin]
@[simp] theorem State.addCnt_timers (s : State) (b : Nat) (F : Fld) (n : Nat) : (s.addCnt b F n).timers = s.timers := by
  simp only [State.addCnt, State.set_timers]
@[simp] theorem State.addCnt_free (s : State) (b : Nat) (F : Fld) (n : Nat) : (s.addCnt b F n).free = s.free := by
  simp only [State.addCnt, State.set_free]
@[simp] theorem State.addCnt_out (s : State) (b : Nat) (F : Fld) (n : Nat) : (s.addCnt b F n).out = s.out := by
  simp only [State.addCnt, State.set_out]
@[simp] theorem State.addCnt_pending (s : State) (b : Nat) (F : Fld) (n : Nat) : (s.addCnt b F n).pending = s.pending := by
  simp only [State.addCnt, State.set_pending]
@[simp] theorem State.addCnt_ciph (s : State) (b : Nat) (F : Fld) (n : Nat) : (s.addCnt b F n).ciph = s.ciph := by
  simp only [State.addCnt, State.set_ciph]
@[simp] theorem State.addCnt_sched (s : State) (b : Nat) (F : Fld) (n : Nat) : (s.addCnt b F n).sched = s.sched := by
  simp only [State.addCnt, State.set_sched]
@[simp] theorem State.addCnt_siteWake (s : State) (b : Nat) (F : Fld) (n : Nat) : (s.addCnt b F n).siteWake = s.siteWake := by
  simp only [State.addCnt, State.set_siteWake]
@[simp] theorem State.addCnt_ndl (s : State) (b : Nat) (F : Fld) (n : Nat) : (s.addCnt b F n).ndl = s.ndl := by
  simp only [State.addCnt, State.set_ndl]
@[simp] theorem State.addCnt_capture (s : State) (b : Nat) (F : Fld) (n : Nat) : (s.addCnt b F n).capture = s.capture := by
  simp only [State.addCnt, State.set_capture]
@[simp] theorem State.addCnt_ndlChunks (s : State) (b : Nat) (F : Fld) (n : Nat) : (s.addCnt b F n).ndlChunks = s.ndlChunks := by
  simp only [State.addCnt, State.set_ndlChunks]
@[simp] theorem State.addCnt_gauge (s : State) (b : Nat) (F : Fld) (n : Nat) : (s.addCnt b F n).gauge = s.gauge := by
  simp only [State.addCnt, State.set_gauge]
@[simp] theorem State.addCnt_power (s : State) (b : Nat) (F : Fld) (n : Nat) : (s.addCnt b F n).power = s.power := by
  simp only [State.addCnt, State.set_power]

/-! `State.inc` changes `regs` alone. -/

@[simp] theorem State.inc_snapView (s : State) (b : Nat) (F : Fld) : (s.inc b F).snapView = s.snapView := by
  simp only [State.inc, State.addCnt_snapView]
@[simp] theorem State.inc_latches (s : State) (b : Nat) (F : Fld) : (s.inc b F).latches = s.latches := by
  simp only [State.inc, State.addCnt_latches]
@[simp] theorem State.inc_staging (s : State) (b : Nat) (F : Fld) : (s.inc b F).staging = s.staging := by
  simp only [State.inc, State.addCnt_staging]
@[simp] theorem State.inc_recLatch (s : State) (b : Nat) (F : Fld) : (s.inc b F).recLatch = s.recLatch := by
  simp only [State.inc, State.addCnt_recLatch]
@[simp] theorem State.inc_rdata (s : State) (b : Nat) (F : Fld) : (s.inc b F).rdata = s.rdata := by
  simp only [State.inc, State.addCnt_rdata]
@[simp] theorem State.inc_fns (s : State) (b : Nat) (F : Fld) : (s.inc b F).fns = s.fns := by
  simp only [State.inc, State.addCnt_fns]
@[simp] theorem State.inc_domOff (s : State) (b : Nat) (F : Fld) : (s.inc b F).domOff = s.domOff := by
  simp only [State.inc, State.addCnt_domOff]
@[simp] theorem State.inc_evtAt (s : State) (b : Nat) (F : Fld) : (s.inc b F).evtAt = s.evtAt := by
  simp only [State.inc, State.addCnt_evtAt]
@[simp] theorem State.inc_marker (s : State) (b : Nat) (F : Fld) : (s.inc b F).marker = s.marker := by
  simp only [State.inc, State.addCnt_marker]
@[simp] theorem State.inc_snap (s : State) (b : Nat) (F : Fld) : (s.inc b F).snap = s.snap := by
  simp only [State.inc, State.addCnt_snap]
@[simp] theorem State.inc_boot (s : State) (b : Nat) (F : Fld) : (s.inc b F).boot = s.boot := by
  simp only [State.inc, State.addCnt_boot]
@[simp] theorem State.inc_upd (s : State) (b : Nat) (F : Fld) : (s.inc b F).upd = s.upd := by
  simp only [State.inc, State.addCnt_upd]
@[simp] theorem State.inc_fuses (s : State) (b : Nat) (F : Fld) : (s.inc b F).fuses = s.fuses := by
  simp only [State.inc, State.addCnt_fuses]
@[simp] theorem State.inc_flash (s : State) (b : Nat) (F : Fld) : (s.inc b F).flash = s.flash := by
  simp only [State.inc, State.addCnt_flash]
@[simp] theorem State.inc_security (s : State) (b : Nat) (F : Fld) : (s.inc b F).security = s.security := by
  simp only [State.inc, State.addCnt_security]
@[simp] theorem State.inc_mbxHeld (s : State) (b : Nat) (F : Fld) : (s.inc b F).mbxHeld = s.mbxHeld := by
  simp only [State.inc, State.addCnt_mbxHeld]
@[simp] theorem State.inc_watchdog (s : State) (b : Nat) (F : Fld) : (s.inc b F).watchdog = s.watchdog := by
  simp only [State.inc, State.addCnt_watchdog]
@[simp] theorem State.inc_restarting (s : State) (b : Nat) (F : Fld) : (s.inc b F).restarting = s.restarting := by
  simp only [State.inc, State.addCnt_restarting]
@[simp] theorem State.inc_clock (s : State) (b : Nat) (F : Fld) : (s.inc b F).clock = s.clock := by
  simp only [State.inc, State.addCnt_clock]
@[simp] theorem State.inc_servo (s : State) (b : Nat) (F : Fld) : (s.inc b F).servo = s.servo := by
  simp only [State.inc, State.addCnt_servo]
@[simp] theorem State.inc_pins (s : State) (b : Nat) (F : Fld) : (s.inc b F).pins = s.pins := by
  simp only [State.inc, State.addCnt_pins]
@[simp] theorem State.inc_cls (s : State) (b : Nat) (F : Fld) : (s.inc b F).cls = s.cls := by
  simp only [State.inc, State.addCnt_cls]
@[simp] theorem State.inc_skein (s : State) (b : Nat) (F : Fld) : (s.inc b F).skein = s.skein := by
  simp only [State.inc, State.addCnt_skein]
@[simp] theorem State.inc_perSrc (s : State) (b : Nat) (F : Fld) : (s.inc b F).perSrc = s.perSrc := by
  simp only [State.inc, State.addCnt_perSrc]
@[simp] theorem State.inc_mem (s : State) (b : Nat) (F : Fld) : (s.inc b F).mem = s.mem := by
  simp only [State.inc, State.addCnt_mem]
@[simp] theorem State.inc_lineA (s : State) (b : Nat) (F : Fld) : (s.inc b F).lineA = s.lineA := by
  simp only [State.inc, State.addCnt_lineA]
@[simp] theorem State.inc_lineB (s : State) (b : Nat) (F : Fld) : (s.inc b F).lineB = s.lineB := by
  simp only [State.inc, State.addCnt_lineB]
@[simp] theorem State.inc_dual (s : State) (b : Nat) (F : Fld) : (s.inc b F).dual = s.dual := by
  simp only [State.inc, State.addCnt_dual]
@[simp] theorem State.inc_pcie (s : State) (b : Nat) (F : Fld) : (s.inc b F).pcie = s.pcie := by
  simp only [State.inc, State.addCnt_pcie]
@[simp] theorem State.inc_twin (s : State) (b : Nat) (F : Fld) : (s.inc b F).twin = s.twin := by
  simp only [State.inc, State.addCnt_twin]
@[simp] theorem State.inc_timers (s : State) (b : Nat) (F : Fld) : (s.inc b F).timers = s.timers := by
  simp only [State.inc, State.addCnt_timers]
@[simp] theorem State.inc_free (s : State) (b : Nat) (F : Fld) : (s.inc b F).free = s.free := by
  simp only [State.inc, State.addCnt_free]
@[simp] theorem State.inc_out (s : State) (b : Nat) (F : Fld) : (s.inc b F).out = s.out := by
  simp only [State.inc, State.addCnt_out]
@[simp] theorem State.inc_pending (s : State) (b : Nat) (F : Fld) : (s.inc b F).pending = s.pending := by
  simp only [State.inc, State.addCnt_pending]
@[simp] theorem State.inc_ciph (s : State) (b : Nat) (F : Fld) : (s.inc b F).ciph = s.ciph := by
  simp only [State.inc, State.addCnt_ciph]
@[simp] theorem State.inc_sched (s : State) (b : Nat) (F : Fld) : (s.inc b F).sched = s.sched := by
  simp only [State.inc, State.addCnt_sched]
@[simp] theorem State.inc_siteWake (s : State) (b : Nat) (F : Fld) : (s.inc b F).siteWake = s.siteWake := by
  simp only [State.inc, State.addCnt_siteWake]
@[simp] theorem State.inc_ndl (s : State) (b : Nat) (F : Fld) : (s.inc b F).ndl = s.ndl := by
  simp only [State.inc, State.addCnt_ndl]
@[simp] theorem State.inc_capture (s : State) (b : Nat) (F : Fld) : (s.inc b F).capture = s.capture := by
  simp only [State.inc, State.addCnt_capture]
@[simp] theorem State.inc_ndlChunks (s : State) (b : Nat) (F : Fld) : (s.inc b F).ndlChunks = s.ndlChunks := by
  simp only [State.inc, State.addCnt_ndlChunks]
@[simp] theorem State.inc_gauge (s : State) (b : Nat) (F : Fld) : (s.inc b F).gauge = s.gauge := by
  simp only [State.inc, State.addCnt_gauge]
@[simp] theorem State.inc_power (s : State) (b : Nat) (F : Fld) : (s.inc b F).power = s.power := by
  simp only [State.inc, State.addCnt_power]

/-! `State.add64` changes `regs` alone. -/

@[simp] theorem State.add64_snapView (s : State) (b : Nat) (F : Fld) (n : Nat) : (s.add64 b F n).snapView = s.snapView := by
  simp only [State.add64, State.set64_snapView]
@[simp] theorem State.add64_latches (s : State) (b : Nat) (F : Fld) (n : Nat) : (s.add64 b F n).latches = s.latches := by
  simp only [State.add64, State.set64_latches]
@[simp] theorem State.add64_staging (s : State) (b : Nat) (F : Fld) (n : Nat) : (s.add64 b F n).staging = s.staging := by
  simp only [State.add64, State.set64_staging]
@[simp] theorem State.add64_recLatch (s : State) (b : Nat) (F : Fld) (n : Nat) : (s.add64 b F n).recLatch = s.recLatch := by
  simp only [State.add64, State.set64_recLatch]
@[simp] theorem State.add64_rdata (s : State) (b : Nat) (F : Fld) (n : Nat) : (s.add64 b F n).rdata = s.rdata := by
  simp only [State.add64, State.set64_rdata]
@[simp] theorem State.add64_fns (s : State) (b : Nat) (F : Fld) (n : Nat) : (s.add64 b F n).fns = s.fns := by
  simp only [State.add64, State.set64_fns]
@[simp] theorem State.add64_domOff (s : State) (b : Nat) (F : Fld) (n : Nat) : (s.add64 b F n).domOff = s.domOff := by
  simp only [State.add64, State.set64_domOff]
@[simp] theorem State.add64_evtAt (s : State) (b : Nat) (F : Fld) (n : Nat) : (s.add64 b F n).evtAt = s.evtAt := by
  simp only [State.add64, State.set64_evtAt]
@[simp] theorem State.add64_marker (s : State) (b : Nat) (F : Fld) (n : Nat) : (s.add64 b F n).marker = s.marker := by
  simp only [State.add64, State.set64_marker]
@[simp] theorem State.add64_snap (s : State) (b : Nat) (F : Fld) (n : Nat) : (s.add64 b F n).snap = s.snap := by
  simp only [State.add64, State.set64_snap]
@[simp] theorem State.add64_boot (s : State) (b : Nat) (F : Fld) (n : Nat) : (s.add64 b F n).boot = s.boot := by
  simp only [State.add64, State.set64_boot]
@[simp] theorem State.add64_upd (s : State) (b : Nat) (F : Fld) (n : Nat) : (s.add64 b F n).upd = s.upd := by
  simp only [State.add64, State.set64_upd]
@[simp] theorem State.add64_fuses (s : State) (b : Nat) (F : Fld) (n : Nat) : (s.add64 b F n).fuses = s.fuses := by
  simp only [State.add64, State.set64_fuses]
@[simp] theorem State.add64_flash (s : State) (b : Nat) (F : Fld) (n : Nat) : (s.add64 b F n).flash = s.flash := by
  simp only [State.add64, State.set64_flash]
@[simp] theorem State.add64_security (s : State) (b : Nat) (F : Fld) (n : Nat) : (s.add64 b F n).security = s.security := by
  simp only [State.add64, State.set64_security]
@[simp] theorem State.add64_mbxHeld (s : State) (b : Nat) (F : Fld) (n : Nat) : (s.add64 b F n).mbxHeld = s.mbxHeld := by
  simp only [State.add64, State.set64_mbxHeld]
@[simp] theorem State.add64_watchdog (s : State) (b : Nat) (F : Fld) (n : Nat) : (s.add64 b F n).watchdog = s.watchdog := by
  simp only [State.add64, State.set64_watchdog]
@[simp] theorem State.add64_restarting (s : State) (b : Nat) (F : Fld) (n : Nat) : (s.add64 b F n).restarting = s.restarting := by
  simp only [State.add64, State.set64_restarting]
@[simp] theorem State.add64_clock (s : State) (b : Nat) (F : Fld) (n : Nat) : (s.add64 b F n).clock = s.clock := by
  simp only [State.add64, State.set64_clock]
@[simp] theorem State.add64_servo (s : State) (b : Nat) (F : Fld) (n : Nat) : (s.add64 b F n).servo = s.servo := by
  simp only [State.add64, State.set64_servo]
@[simp] theorem State.add64_pins (s : State) (b : Nat) (F : Fld) (n : Nat) : (s.add64 b F n).pins = s.pins := by
  simp only [State.add64, State.set64_pins]
@[simp] theorem State.add64_cls (s : State) (b : Nat) (F : Fld) (n : Nat) : (s.add64 b F n).cls = s.cls := by
  simp only [State.add64, State.set64_cls]
@[simp] theorem State.add64_skein (s : State) (b : Nat) (F : Fld) (n : Nat) : (s.add64 b F n).skein = s.skein := by
  simp only [State.add64, State.set64_skein]
@[simp] theorem State.add64_perSrc (s : State) (b : Nat) (F : Fld) (n : Nat) : (s.add64 b F n).perSrc = s.perSrc := by
  simp only [State.add64, State.set64_perSrc]
@[simp] theorem State.add64_mem (s : State) (b : Nat) (F : Fld) (n : Nat) : (s.add64 b F n).mem = s.mem := by
  simp only [State.add64, State.set64_mem]
@[simp] theorem State.add64_lineA (s : State) (b : Nat) (F : Fld) (n : Nat) : (s.add64 b F n).lineA = s.lineA := by
  simp only [State.add64, State.set64_lineA]
@[simp] theorem State.add64_lineB (s : State) (b : Nat) (F : Fld) (n : Nat) : (s.add64 b F n).lineB = s.lineB := by
  simp only [State.add64, State.set64_lineB]
@[simp] theorem State.add64_dual (s : State) (b : Nat) (F : Fld) (n : Nat) : (s.add64 b F n).dual = s.dual := by
  simp only [State.add64, State.set64_dual]
@[simp] theorem State.add64_pcie (s : State) (b : Nat) (F : Fld) (n : Nat) : (s.add64 b F n).pcie = s.pcie := by
  simp only [State.add64, State.set64_pcie]
@[simp] theorem State.add64_twin (s : State) (b : Nat) (F : Fld) (n : Nat) : (s.add64 b F n).twin = s.twin := by
  simp only [State.add64, State.set64_twin]
@[simp] theorem State.add64_timers (s : State) (b : Nat) (F : Fld) (n : Nat) : (s.add64 b F n).timers = s.timers := by
  simp only [State.add64, State.set64_timers]
@[simp] theorem State.add64_free (s : State) (b : Nat) (F : Fld) (n : Nat) : (s.add64 b F n).free = s.free := by
  simp only [State.add64, State.set64_free]
@[simp] theorem State.add64_out (s : State) (b : Nat) (F : Fld) (n : Nat) : (s.add64 b F n).out = s.out := by
  simp only [State.add64, State.set64_out]
@[simp] theorem State.add64_pending (s : State) (b : Nat) (F : Fld) (n : Nat) : (s.add64 b F n).pending = s.pending := by
  simp only [State.add64, State.set64_pending]
@[simp] theorem State.add64_ciph (s : State) (b : Nat) (F : Fld) (n : Nat) : (s.add64 b F n).ciph = s.ciph := by
  simp only [State.add64, State.set64_ciph]
@[simp] theorem State.add64_sched (s : State) (b : Nat) (F : Fld) (n : Nat) : (s.add64 b F n).sched = s.sched := by
  simp only [State.add64, State.set64_sched]
@[simp] theorem State.add64_siteWake (s : State) (b : Nat) (F : Fld) (n : Nat) : (s.add64 b F n).siteWake = s.siteWake := by
  simp only [State.add64, State.set64_siteWake]
@[simp] theorem State.add64_ndl (s : State) (b : Nat) (F : Fld) (n : Nat) : (s.add64 b F n).ndl = s.ndl := by
  simp only [State.add64, State.set64_ndl]
@[simp] theorem State.add64_capture (s : State) (b : Nat) (F : Fld) (n : Nat) : (s.add64 b F n).capture = s.capture := by
  simp only [State.add64, State.set64_capture]
@[simp] theorem State.add64_ndlChunks (s : State) (b : Nat) (F : Fld) (n : Nat) : (s.add64 b F n).ndlChunks = s.ndlChunks := by
  simp only [State.add64, State.set64_ndlChunks]
@[simp] theorem State.add64_gauge (s : State) (b : Nat) (F : Fld) (n : Nat) : (s.add64 b F n).gauge = s.gauge := by
  simp only [State.add64, State.set64_gauge]
@[simp] theorem State.add64_power (s : State) (b : Nat) (F : Fld) (n : Nat) : (s.add64 b F n).power = s.power := by
  simp only [State.add64, State.set64_power]

/-! `State.evt` changes `regs` alone. -/

@[simp] theorem State.evt_snapView (s : State) (b k : Nat) : (s.evt b k).snapView = s.snapView := by
  simp only [State.evt, State.set_snapView]
@[simp] theorem State.evt_latches (s : State) (b k : Nat) : (s.evt b k).latches = s.latches := by
  simp only [State.evt, State.set_latches]
@[simp] theorem State.evt_staging (s : State) (b k : Nat) : (s.evt b k).staging = s.staging := by
  simp only [State.evt, State.set_staging]
@[simp] theorem State.evt_recLatch (s : State) (b k : Nat) : (s.evt b k).recLatch = s.recLatch := by
  simp only [State.evt, State.set_recLatch]
@[simp] theorem State.evt_rdata (s : State) (b k : Nat) : (s.evt b k).rdata = s.rdata := by
  simp only [State.evt, State.set_rdata]
@[simp] theorem State.evt_fns (s : State) (b k : Nat) : (s.evt b k).fns = s.fns := by
  simp only [State.evt, State.set_fns]
@[simp] theorem State.evt_domOff (s : State) (b k : Nat) : (s.evt b k).domOff = s.domOff := by
  simp only [State.evt, State.set_domOff]
@[simp] theorem State.evt_evtAt (s : State) (b k : Nat) : (s.evt b k).evtAt = s.evtAt := by
  simp only [State.evt, State.set_evtAt]
@[simp] theorem State.evt_marker (s : State) (b k : Nat) : (s.evt b k).marker = s.marker := by
  simp only [State.evt, State.set_marker]
@[simp] theorem State.evt_snap (s : State) (b k : Nat) : (s.evt b k).snap = s.snap := by
  simp only [State.evt, State.set_snap]
@[simp] theorem State.evt_boot (s : State) (b k : Nat) : (s.evt b k).boot = s.boot := by
  simp only [State.evt, State.set_boot]
@[simp] theorem State.evt_upd (s : State) (b k : Nat) : (s.evt b k).upd = s.upd := by
  simp only [State.evt, State.set_upd]
@[simp] theorem State.evt_fuses (s : State) (b k : Nat) : (s.evt b k).fuses = s.fuses := by
  simp only [State.evt, State.set_fuses]
@[simp] theorem State.evt_flash (s : State) (b k : Nat) : (s.evt b k).flash = s.flash := by
  simp only [State.evt, State.set_flash]
@[simp] theorem State.evt_security (s : State) (b k : Nat) : (s.evt b k).security = s.security := by
  simp only [State.evt, State.set_security]
@[simp] theorem State.evt_mbxHeld (s : State) (b k : Nat) : (s.evt b k).mbxHeld = s.mbxHeld := by
  simp only [State.evt, State.set_mbxHeld]
@[simp] theorem State.evt_watchdog (s : State) (b k : Nat) : (s.evt b k).watchdog = s.watchdog := by
  simp only [State.evt, State.set_watchdog]
@[simp] theorem State.evt_restarting (s : State) (b k : Nat) : (s.evt b k).restarting = s.restarting := by
  simp only [State.evt, State.set_restarting]
@[simp] theorem State.evt_clock (s : State) (b k : Nat) : (s.evt b k).clock = s.clock := by
  simp only [State.evt, State.set_clock]
@[simp] theorem State.evt_servo (s : State) (b k : Nat) : (s.evt b k).servo = s.servo := by
  simp only [State.evt, State.set_servo]
@[simp] theorem State.evt_pins (s : State) (b k : Nat) : (s.evt b k).pins = s.pins := by
  simp only [State.evt, State.set_pins]
@[simp] theorem State.evt_cls (s : State) (b k : Nat) : (s.evt b k).cls = s.cls := by
  simp only [State.evt, State.set_cls]
@[simp] theorem State.evt_skein (s : State) (b k : Nat) : (s.evt b k).skein = s.skein := by
  simp only [State.evt, State.set_skein]
@[simp] theorem State.evt_perSrc (s : State) (b k : Nat) : (s.evt b k).perSrc = s.perSrc := by
  simp only [State.evt, State.set_perSrc]
@[simp] theorem State.evt_mem (s : State) (b k : Nat) : (s.evt b k).mem = s.mem := by
  simp only [State.evt, State.set_mem]
@[simp] theorem State.evt_lineA (s : State) (b k : Nat) : (s.evt b k).lineA = s.lineA := by
  simp only [State.evt, State.set_lineA]
@[simp] theorem State.evt_lineB (s : State) (b k : Nat) : (s.evt b k).lineB = s.lineB := by
  simp only [State.evt, State.set_lineB]
@[simp] theorem State.evt_dual (s : State) (b k : Nat) : (s.evt b k).dual = s.dual := by
  simp only [State.evt, State.set_dual]
@[simp] theorem State.evt_pcie (s : State) (b k : Nat) : (s.evt b k).pcie = s.pcie := by
  simp only [State.evt, State.set_pcie]
@[simp] theorem State.evt_twin (s : State) (b k : Nat) : (s.evt b k).twin = s.twin := by
  simp only [State.evt, State.set_twin]
@[simp] theorem State.evt_timers (s : State) (b k : Nat) : (s.evt b k).timers = s.timers := by
  simp only [State.evt, State.set_timers]
@[simp] theorem State.evt_free (s : State) (b k : Nat) : (s.evt b k).free = s.free := by
  simp only [State.evt, State.set_free]
@[simp] theorem State.evt_out (s : State) (b k : Nat) : (s.evt b k).out = s.out := by
  simp only [State.evt, State.set_out]
@[simp] theorem State.evt_pending (s : State) (b k : Nat) : (s.evt b k).pending = s.pending := by
  simp only [State.evt, State.set_pending]
@[simp] theorem State.evt_ciph (s : State) (b k : Nat) : (s.evt b k).ciph = s.ciph := by
  simp only [State.evt, State.set_ciph]
@[simp] theorem State.evt_sched (s : State) (b k : Nat) : (s.evt b k).sched = s.sched := by
  simp only [State.evt, State.set_sched]
@[simp] theorem State.evt_siteWake (s : State) (b k : Nat) : (s.evt b k).siteWake = s.siteWake := by
  simp only [State.evt, State.set_siteWake]
@[simp] theorem State.evt_ndl (s : State) (b k : Nat) : (s.evt b k).ndl = s.ndl := by
  simp only [State.evt, State.set_ndl]
@[simp] theorem State.evt_capture (s : State) (b k : Nat) : (s.evt b k).capture = s.capture := by
  simp only [State.evt, State.set_capture]
@[simp] theorem State.evt_ndlChunks (s : State) (b k : Nat) : (s.evt b k).ndlChunks = s.ndlChunks := by
  simp only [State.evt, State.set_ndlChunks]
@[simp] theorem State.evt_gauge (s : State) (b k : Nat) : (s.evt b k).gauge = s.gauge := by
  simp only [State.evt, State.set_gauge]
@[simp] theorem State.evt_power (s : State) (b k : Nat) : (s.evt b k).power = s.power := by
  simp only [State.evt, State.set_power]

/-! `State.emit` changes `out` alone. -/

@[simp] theorem State.emit_regs (s : State) (e : Emission) : (s.emit e).regs = s.regs := rfl
@[simp] theorem State.emit_snapView (s : State) (e : Emission) : (s.emit e).snapView = s.snapView := rfl
@[simp] theorem State.emit_latches (s : State) (e : Emission) : (s.emit e).latches = s.latches := rfl
@[simp] theorem State.emit_staging (s : State) (e : Emission) : (s.emit e).staging = s.staging := rfl
@[simp] theorem State.emit_recLatch (s : State) (e : Emission) : (s.emit e).recLatch = s.recLatch := rfl
@[simp] theorem State.emit_rdata (s : State) (e : Emission) : (s.emit e).rdata = s.rdata := rfl
@[simp] theorem State.emit_fns (s : State) (e : Emission) : (s.emit e).fns = s.fns := rfl
@[simp] theorem State.emit_domOff (s : State) (e : Emission) : (s.emit e).domOff = s.domOff := rfl
@[simp] theorem State.emit_evtAt (s : State) (e : Emission) : (s.emit e).evtAt = s.evtAt := rfl
@[simp] theorem State.emit_marker (s : State) (e : Emission) : (s.emit e).marker = s.marker := rfl
@[simp] theorem State.emit_snap (s : State) (e : Emission) : (s.emit e).snap = s.snap := rfl
@[simp] theorem State.emit_boot (s : State) (e : Emission) : (s.emit e).boot = s.boot := rfl
@[simp] theorem State.emit_upd (s : State) (e : Emission) : (s.emit e).upd = s.upd := rfl
@[simp] theorem State.emit_fuses (s : State) (e : Emission) : (s.emit e).fuses = s.fuses := rfl
@[simp] theorem State.emit_flash (s : State) (e : Emission) : (s.emit e).flash = s.flash := rfl
@[simp] theorem State.emit_security (s : State) (e : Emission) : (s.emit e).security = s.security := rfl
@[simp] theorem State.emit_mbxHeld (s : State) (e : Emission) : (s.emit e).mbxHeld = s.mbxHeld := rfl
@[simp] theorem State.emit_watchdog (s : State) (e : Emission) : (s.emit e).watchdog = s.watchdog := rfl
@[simp] theorem State.emit_restarting (s : State) (e : Emission) : (s.emit e).restarting = s.restarting := rfl
@[simp] theorem State.emit_clock (s : State) (e : Emission) : (s.emit e).clock = s.clock := rfl
@[simp] theorem State.emit_servo (s : State) (e : Emission) : (s.emit e).servo = s.servo := rfl
@[simp] theorem State.emit_pins (s : State) (e : Emission) : (s.emit e).pins = s.pins := rfl
@[simp] theorem State.emit_cls (s : State) (e : Emission) : (s.emit e).cls = s.cls := rfl
@[simp] theorem State.emit_skein (s : State) (e : Emission) : (s.emit e).skein = s.skein := rfl
@[simp] theorem State.emit_perSrc (s : State) (e : Emission) : (s.emit e).perSrc = s.perSrc := rfl
@[simp] theorem State.emit_mem (s : State) (e : Emission) : (s.emit e).mem = s.mem := rfl
@[simp] theorem State.emit_lineA (s : State) (e : Emission) : (s.emit e).lineA = s.lineA := rfl
@[simp] theorem State.emit_lineB (s : State) (e : Emission) : (s.emit e).lineB = s.lineB := rfl
@[simp] theorem State.emit_dual (s : State) (e : Emission) : (s.emit e).dual = s.dual := rfl
@[simp] theorem State.emit_pcie (s : State) (e : Emission) : (s.emit e).pcie = s.pcie := rfl
@[simp] theorem State.emit_twin (s : State) (e : Emission) : (s.emit e).twin = s.twin := rfl
@[simp] theorem State.emit_timers (s : State) (e : Emission) : (s.emit e).timers = s.timers := rfl
@[simp] theorem State.emit_free (s : State) (e : Emission) : (s.emit e).free = s.free := rfl
@[simp] theorem State.emit_pending (s : State) (e : Emission) : (s.emit e).pending = s.pending := rfl
@[simp] theorem State.emit_ciph (s : State) (e : Emission) : (s.emit e).ciph = s.ciph := rfl
@[simp] theorem State.emit_sched (s : State) (e : Emission) : (s.emit e).sched = s.sched := rfl
@[simp] theorem State.emit_siteWake (s : State) (e : Emission) : (s.emit e).siteWake = s.siteWake := rfl
@[simp] theorem State.emit_ndl (s : State) (e : Emission) : (s.emit e).ndl = s.ndl := rfl
@[simp] theorem State.emit_capture (s : State) (e : Emission) : (s.emit e).capture = s.capture := rfl
@[simp] theorem State.emit_ndlChunks (s : State) (e : Emission) : (s.emit e).ndlChunks = s.ndlChunks := rfl
@[simp] theorem State.emit_gauge (s : State) (e : Emission) : (s.emit e).gauge = s.gauge := rfl
@[simp] theorem State.emit_power (s : State) (e : Emission) : (s.emit e).power = s.power := rfl

/-! `State.emits` changes `out` alone. -/

@[simp] theorem State.emits_regs (s : State) (es : List Emission) : (s.emits es).regs = s.regs := rfl
@[simp] theorem State.emits_snapView (s : State) (es : List Emission) : (s.emits es).snapView = s.snapView := rfl
@[simp] theorem State.emits_latches (s : State) (es : List Emission) : (s.emits es).latches = s.latches := rfl
@[simp] theorem State.emits_staging (s : State) (es : List Emission) : (s.emits es).staging = s.staging := rfl
@[simp] theorem State.emits_recLatch (s : State) (es : List Emission) : (s.emits es).recLatch = s.recLatch := rfl
@[simp] theorem State.emits_rdata (s : State) (es : List Emission) : (s.emits es).rdata = s.rdata := rfl
@[simp] theorem State.emits_fns (s : State) (es : List Emission) : (s.emits es).fns = s.fns := rfl
@[simp] theorem State.emits_domOff (s : State) (es : List Emission) : (s.emits es).domOff = s.domOff := rfl
@[simp] theorem State.emits_evtAt (s : State) (es : List Emission) : (s.emits es).evtAt = s.evtAt := rfl
@[simp] theorem State.emits_marker (s : State) (es : List Emission) : (s.emits es).marker = s.marker := rfl
@[simp] theorem State.emits_snap (s : State) (es : List Emission) : (s.emits es).snap = s.snap := rfl
@[simp] theorem State.emits_boot (s : State) (es : List Emission) : (s.emits es).boot = s.boot := rfl
@[simp] theorem State.emits_upd (s : State) (es : List Emission) : (s.emits es).upd = s.upd := rfl
@[simp] theorem State.emits_fuses (s : State) (es : List Emission) : (s.emits es).fuses = s.fuses := rfl
@[simp] theorem State.emits_flash (s : State) (es : List Emission) : (s.emits es).flash = s.flash := rfl
@[simp] theorem State.emits_security (s : State) (es : List Emission) : (s.emits es).security = s.security := rfl
@[simp] theorem State.emits_mbxHeld (s : State) (es : List Emission) : (s.emits es).mbxHeld = s.mbxHeld := rfl
@[simp] theorem State.emits_watchdog (s : State) (es : List Emission) : (s.emits es).watchdog = s.watchdog := rfl
@[simp] theorem State.emits_restarting (s : State) (es : List Emission) : (s.emits es).restarting = s.restarting := rfl
@[simp] theorem State.emits_clock (s : State) (es : List Emission) : (s.emits es).clock = s.clock := rfl
@[simp] theorem State.emits_servo (s : State) (es : List Emission) : (s.emits es).servo = s.servo := rfl
@[simp] theorem State.emits_pins (s : State) (es : List Emission) : (s.emits es).pins = s.pins := rfl
@[simp] theorem State.emits_cls (s : State) (es : List Emission) : (s.emits es).cls = s.cls := rfl
@[simp] theorem State.emits_skein (s : State) (es : List Emission) : (s.emits es).skein = s.skein := rfl
@[simp] theorem State.emits_perSrc (s : State) (es : List Emission) : (s.emits es).perSrc = s.perSrc := rfl
@[simp] theorem State.emits_mem (s : State) (es : List Emission) : (s.emits es).mem = s.mem := rfl
@[simp] theorem State.emits_lineA (s : State) (es : List Emission) : (s.emits es).lineA = s.lineA := rfl
@[simp] theorem State.emits_lineB (s : State) (es : List Emission) : (s.emits es).lineB = s.lineB := rfl
@[simp] theorem State.emits_dual (s : State) (es : List Emission) : (s.emits es).dual = s.dual := rfl
@[simp] theorem State.emits_pcie (s : State) (es : List Emission) : (s.emits es).pcie = s.pcie := rfl
@[simp] theorem State.emits_twin (s : State) (es : List Emission) : (s.emits es).twin = s.twin := rfl
@[simp] theorem State.emits_timers (s : State) (es : List Emission) : (s.emits es).timers = s.timers := rfl
@[simp] theorem State.emits_free (s : State) (es : List Emission) : (s.emits es).free = s.free := rfl
@[simp] theorem State.emits_pending (s : State) (es : List Emission) : (s.emits es).pending = s.pending := rfl
@[simp] theorem State.emits_ciph (s : State) (es : List Emission) : (s.emits es).ciph = s.ciph := rfl
@[simp] theorem State.emits_sched (s : State) (es : List Emission) : (s.emits es).sched = s.sched := rfl
@[simp] theorem State.emits_siteWake (s : State) (es : List Emission) : (s.emits es).siteWake = s.siteWake := rfl
@[simp] theorem State.emits_ndl (s : State) (es : List Emission) : (s.emits es).ndl = s.ndl := rfl
@[simp] theorem State.emits_capture (s : State) (es : List Emission) : (s.emits es).capture = s.capture := rfl
@[simp] theorem State.emits_ndlChunks (s : State) (es : List Emission) : (s.emits es).ndlChunks = s.ndlChunks := rfl
@[simp] theorem State.emits_gauge (s : State) (es : List Emission) : (s.emits es).gauge = s.gauge := rfl
@[simp] theorem State.emits_power (s : State) (es : List Emission) : (s.emits es).power = s.power := rfl

/-! `State.startTimer` changes `timers` alone. -/

@[simp] theorem State.startTimer_regs (s : State) (n d : Nat) : (s.startTimer n d).regs = s.regs := rfl
@[simp] theorem State.startTimer_snapView (s : State) (n d : Nat) : (s.startTimer n d).snapView = s.snapView := rfl
@[simp] theorem State.startTimer_latches (s : State) (n d : Nat) : (s.startTimer n d).latches = s.latches := rfl
@[simp] theorem State.startTimer_staging (s : State) (n d : Nat) : (s.startTimer n d).staging = s.staging := rfl
@[simp] theorem State.startTimer_recLatch (s : State) (n d : Nat) : (s.startTimer n d).recLatch = s.recLatch := rfl
@[simp] theorem State.startTimer_rdata (s : State) (n d : Nat) : (s.startTimer n d).rdata = s.rdata := rfl
@[simp] theorem State.startTimer_fns (s : State) (n d : Nat) : (s.startTimer n d).fns = s.fns := rfl
@[simp] theorem State.startTimer_domOff (s : State) (n d : Nat) : (s.startTimer n d).domOff = s.domOff := rfl
@[simp] theorem State.startTimer_evtAt (s : State) (n d : Nat) : (s.startTimer n d).evtAt = s.evtAt := rfl
@[simp] theorem State.startTimer_marker (s : State) (n d : Nat) : (s.startTimer n d).marker = s.marker := rfl
@[simp] theorem State.startTimer_snap (s : State) (n d : Nat) : (s.startTimer n d).snap = s.snap := rfl
@[simp] theorem State.startTimer_boot (s : State) (n d : Nat) : (s.startTimer n d).boot = s.boot := rfl
@[simp] theorem State.startTimer_upd (s : State) (n d : Nat) : (s.startTimer n d).upd = s.upd := rfl
@[simp] theorem State.startTimer_fuses (s : State) (n d : Nat) : (s.startTimer n d).fuses = s.fuses := rfl
@[simp] theorem State.startTimer_flash (s : State) (n d : Nat) : (s.startTimer n d).flash = s.flash := rfl
@[simp] theorem State.startTimer_security (s : State) (n d : Nat) : (s.startTimer n d).security = s.security := rfl
@[simp] theorem State.startTimer_mbxHeld (s : State) (n d : Nat) : (s.startTimer n d).mbxHeld = s.mbxHeld := rfl
@[simp] theorem State.startTimer_watchdog (s : State) (n d : Nat) : (s.startTimer n d).watchdog = s.watchdog := rfl
@[simp] theorem State.startTimer_restarting (s : State) (n d : Nat) : (s.startTimer n d).restarting = s.restarting := rfl
@[simp] theorem State.startTimer_clock (s : State) (n d : Nat) : (s.startTimer n d).clock = s.clock := rfl
@[simp] theorem State.startTimer_servo (s : State) (n d : Nat) : (s.startTimer n d).servo = s.servo := rfl
@[simp] theorem State.startTimer_pins (s : State) (n d : Nat) : (s.startTimer n d).pins = s.pins := rfl
@[simp] theorem State.startTimer_cls (s : State) (n d : Nat) : (s.startTimer n d).cls = s.cls := rfl
@[simp] theorem State.startTimer_skein (s : State) (n d : Nat) : (s.startTimer n d).skein = s.skein := rfl
@[simp] theorem State.startTimer_perSrc (s : State) (n d : Nat) : (s.startTimer n d).perSrc = s.perSrc := rfl
@[simp] theorem State.startTimer_mem (s : State) (n d : Nat) : (s.startTimer n d).mem = s.mem := rfl
@[simp] theorem State.startTimer_lineA (s : State) (n d : Nat) : (s.startTimer n d).lineA = s.lineA := rfl
@[simp] theorem State.startTimer_lineB (s : State) (n d : Nat) : (s.startTimer n d).lineB = s.lineB := rfl
@[simp] theorem State.startTimer_dual (s : State) (n d : Nat) : (s.startTimer n d).dual = s.dual := rfl
@[simp] theorem State.startTimer_pcie (s : State) (n d : Nat) : (s.startTimer n d).pcie = s.pcie := rfl
@[simp] theorem State.startTimer_twin (s : State) (n d : Nat) : (s.startTimer n d).twin = s.twin := rfl
@[simp] theorem State.startTimer_free (s : State) (n d : Nat) : (s.startTimer n d).free = s.free := rfl
@[simp] theorem State.startTimer_out (s : State) (n d : Nat) : (s.startTimer n d).out = s.out := rfl
@[simp] theorem State.startTimer_pending (s : State) (n d : Nat) : (s.startTimer n d).pending = s.pending := rfl
@[simp] theorem State.startTimer_ciph (s : State) (n d : Nat) : (s.startTimer n d).ciph = s.ciph := rfl
@[simp] theorem State.startTimer_sched (s : State) (n d : Nat) : (s.startTimer n d).sched = s.sched := rfl
@[simp] theorem State.startTimer_siteWake (s : State) (n d : Nat) : (s.startTimer n d).siteWake = s.siteWake := rfl
@[simp] theorem State.startTimer_ndl (s : State) (n d : Nat) : (s.startTimer n d).ndl = s.ndl := rfl
@[simp] theorem State.startTimer_capture (s : State) (n d : Nat) : (s.startTimer n d).capture = s.capture := rfl
@[simp] theorem State.startTimer_ndlChunks (s : State) (n d : Nat) : (s.startTimer n d).ndlChunks = s.ndlChunks := rfl
@[simp] theorem State.startTimer_gauge (s : State) (n d : Nat) : (s.startTimer n d).gauge = s.gauge := rfl
@[simp] theorem State.startTimer_power (s : State) (n d : Nat) : (s.startTimer n d).power = s.power := rfl

/-! `State.stopTimer` changes `timers` alone. -/

@[simp] theorem State.stopTimer_regs (s : State) (n : Nat) : (s.stopTimer n).regs = s.regs := rfl
@[simp] theorem State.stopTimer_snapView (s : State) (n : Nat) : (s.stopTimer n).snapView = s.snapView := rfl
@[simp] theorem State.stopTimer_latches (s : State) (n : Nat) : (s.stopTimer n).latches = s.latches := rfl
@[simp] theorem State.stopTimer_staging (s : State) (n : Nat) : (s.stopTimer n).staging = s.staging := rfl
@[simp] theorem State.stopTimer_recLatch (s : State) (n : Nat) : (s.stopTimer n).recLatch = s.recLatch := rfl
@[simp] theorem State.stopTimer_rdata (s : State) (n : Nat) : (s.stopTimer n).rdata = s.rdata := rfl
@[simp] theorem State.stopTimer_fns (s : State) (n : Nat) : (s.stopTimer n).fns = s.fns := rfl
@[simp] theorem State.stopTimer_domOff (s : State) (n : Nat) : (s.stopTimer n).domOff = s.domOff := rfl
@[simp] theorem State.stopTimer_evtAt (s : State) (n : Nat) : (s.stopTimer n).evtAt = s.evtAt := rfl
@[simp] theorem State.stopTimer_marker (s : State) (n : Nat) : (s.stopTimer n).marker = s.marker := rfl
@[simp] theorem State.stopTimer_snap (s : State) (n : Nat) : (s.stopTimer n).snap = s.snap := rfl
@[simp] theorem State.stopTimer_boot (s : State) (n : Nat) : (s.stopTimer n).boot = s.boot := rfl
@[simp] theorem State.stopTimer_upd (s : State) (n : Nat) : (s.stopTimer n).upd = s.upd := rfl
@[simp] theorem State.stopTimer_fuses (s : State) (n : Nat) : (s.stopTimer n).fuses = s.fuses := rfl
@[simp] theorem State.stopTimer_flash (s : State) (n : Nat) : (s.stopTimer n).flash = s.flash := rfl
@[simp] theorem State.stopTimer_security (s : State) (n : Nat) : (s.stopTimer n).security = s.security := rfl
@[simp] theorem State.stopTimer_mbxHeld (s : State) (n : Nat) : (s.stopTimer n).mbxHeld = s.mbxHeld := rfl
@[simp] theorem State.stopTimer_watchdog (s : State) (n : Nat) : (s.stopTimer n).watchdog = s.watchdog := rfl
@[simp] theorem State.stopTimer_restarting (s : State) (n : Nat) : (s.stopTimer n).restarting = s.restarting := rfl
@[simp] theorem State.stopTimer_clock (s : State) (n : Nat) : (s.stopTimer n).clock = s.clock := rfl
@[simp] theorem State.stopTimer_servo (s : State) (n : Nat) : (s.stopTimer n).servo = s.servo := rfl
@[simp] theorem State.stopTimer_pins (s : State) (n : Nat) : (s.stopTimer n).pins = s.pins := rfl
@[simp] theorem State.stopTimer_cls (s : State) (n : Nat) : (s.stopTimer n).cls = s.cls := rfl
@[simp] theorem State.stopTimer_skein (s : State) (n : Nat) : (s.stopTimer n).skein = s.skein := rfl
@[simp] theorem State.stopTimer_perSrc (s : State) (n : Nat) : (s.stopTimer n).perSrc = s.perSrc := rfl
@[simp] theorem State.stopTimer_mem (s : State) (n : Nat) : (s.stopTimer n).mem = s.mem := rfl
@[simp] theorem State.stopTimer_lineA (s : State) (n : Nat) : (s.stopTimer n).lineA = s.lineA := rfl
@[simp] theorem State.stopTimer_lineB (s : State) (n : Nat) : (s.stopTimer n).lineB = s.lineB := rfl
@[simp] theorem State.stopTimer_dual (s : State) (n : Nat) : (s.stopTimer n).dual = s.dual := rfl
@[simp] theorem State.stopTimer_pcie (s : State) (n : Nat) : (s.stopTimer n).pcie = s.pcie := rfl
@[simp] theorem State.stopTimer_twin (s : State) (n : Nat) : (s.stopTimer n).twin = s.twin := rfl
@[simp] theorem State.stopTimer_free (s : State) (n : Nat) : (s.stopTimer n).free = s.free := rfl
@[simp] theorem State.stopTimer_out (s : State) (n : Nat) : (s.stopTimer n).out = s.out := rfl
@[simp] theorem State.stopTimer_pending (s : State) (n : Nat) : (s.stopTimer n).pending = s.pending := rfl
@[simp] theorem State.stopTimer_ciph (s : State) (n : Nat) : (s.stopTimer n).ciph = s.ciph := rfl
@[simp] theorem State.stopTimer_sched (s : State) (n : Nat) : (s.stopTimer n).sched = s.sched := rfl
@[simp] theorem State.stopTimer_siteWake (s : State) (n : Nat) : (s.stopTimer n).siteWake = s.siteWake := rfl
@[simp] theorem State.stopTimer_ndl (s : State) (n : Nat) : (s.stopTimer n).ndl = s.ndl := rfl
@[simp] theorem State.stopTimer_capture (s : State) (n : Nat) : (s.stopTimer n).capture = s.capture := rfl
@[simp] theorem State.stopTimer_ndlChunks (s : State) (n : Nat) : (s.stopTimer n).ndlChunks = s.ndlChunks := rfl
@[simp] theorem State.stopTimer_gauge (s : State) (n : Nat) : (s.stopTimer n).gauge = s.gauge := rfl
@[simp] theorem State.stopTimer_power (s : State) (n : Nat) : (s.stopTimer n).power = s.power := rfl

/-! `State.setPin` changes `pins` alone. -/

@[simp] theorem State.setPin_regs (s : State) (n : Nat) (v : Bool) : (s.setPin n v).regs = s.regs := rfl
@[simp] theorem State.setPin_snapView (s : State) (n : Nat) (v : Bool) : (s.setPin n v).snapView = s.snapView := rfl
@[simp] theorem State.setPin_latches (s : State) (n : Nat) (v : Bool) : (s.setPin n v).latches = s.latches := rfl
@[simp] theorem State.setPin_staging (s : State) (n : Nat) (v : Bool) : (s.setPin n v).staging = s.staging := rfl
@[simp] theorem State.setPin_recLatch (s : State) (n : Nat) (v : Bool) : (s.setPin n v).recLatch = s.recLatch := rfl
@[simp] theorem State.setPin_rdata (s : State) (n : Nat) (v : Bool) : (s.setPin n v).rdata = s.rdata := rfl
@[simp] theorem State.setPin_fns (s : State) (n : Nat) (v : Bool) : (s.setPin n v).fns = s.fns := rfl
@[simp] theorem State.setPin_domOff (s : State) (n : Nat) (v : Bool) : (s.setPin n v).domOff = s.domOff := rfl
@[simp] theorem State.setPin_evtAt (s : State) (n : Nat) (v : Bool) : (s.setPin n v).evtAt = s.evtAt := rfl
@[simp] theorem State.setPin_marker (s : State) (n : Nat) (v : Bool) : (s.setPin n v).marker = s.marker := rfl
@[simp] theorem State.setPin_snap (s : State) (n : Nat) (v : Bool) : (s.setPin n v).snap = s.snap := rfl
@[simp] theorem State.setPin_boot (s : State) (n : Nat) (v : Bool) : (s.setPin n v).boot = s.boot := rfl
@[simp] theorem State.setPin_upd (s : State) (n : Nat) (v : Bool) : (s.setPin n v).upd = s.upd := rfl
@[simp] theorem State.setPin_fuses (s : State) (n : Nat) (v : Bool) : (s.setPin n v).fuses = s.fuses := rfl
@[simp] theorem State.setPin_flash (s : State) (n : Nat) (v : Bool) : (s.setPin n v).flash = s.flash := rfl
@[simp] theorem State.setPin_security (s : State) (n : Nat) (v : Bool) : (s.setPin n v).security = s.security := rfl
@[simp] theorem State.setPin_mbxHeld (s : State) (n : Nat) (v : Bool) : (s.setPin n v).mbxHeld = s.mbxHeld := rfl
@[simp] theorem State.setPin_watchdog (s : State) (n : Nat) (v : Bool) : (s.setPin n v).watchdog = s.watchdog := rfl
@[simp] theorem State.setPin_restarting (s : State) (n : Nat) (v : Bool) : (s.setPin n v).restarting = s.restarting := rfl
@[simp] theorem State.setPin_clock (s : State) (n : Nat) (v : Bool) : (s.setPin n v).clock = s.clock := rfl
@[simp] theorem State.setPin_servo (s : State) (n : Nat) (v : Bool) : (s.setPin n v).servo = s.servo := rfl
@[simp] theorem State.setPin_cls (s : State) (n : Nat) (v : Bool) : (s.setPin n v).cls = s.cls := rfl
@[simp] theorem State.setPin_skein (s : State) (n : Nat) (v : Bool) : (s.setPin n v).skein = s.skein := rfl
@[simp] theorem State.setPin_perSrc (s : State) (n : Nat) (v : Bool) : (s.setPin n v).perSrc = s.perSrc := rfl
@[simp] theorem State.setPin_mem (s : State) (n : Nat) (v : Bool) : (s.setPin n v).mem = s.mem := rfl
@[simp] theorem State.setPin_lineA (s : State) (n : Nat) (v : Bool) : (s.setPin n v).lineA = s.lineA := rfl
@[simp] theorem State.setPin_lineB (s : State) (n : Nat) (v : Bool) : (s.setPin n v).lineB = s.lineB := rfl
@[simp] theorem State.setPin_dual (s : State) (n : Nat) (v : Bool) : (s.setPin n v).dual = s.dual := rfl
@[simp] theorem State.setPin_pcie (s : State) (n : Nat) (v : Bool) : (s.setPin n v).pcie = s.pcie := rfl
@[simp] theorem State.setPin_twin (s : State) (n : Nat) (v : Bool) : (s.setPin n v).twin = s.twin := rfl
@[simp] theorem State.setPin_timers (s : State) (n : Nat) (v : Bool) : (s.setPin n v).timers = s.timers := rfl
@[simp] theorem State.setPin_free (s : State) (n : Nat) (v : Bool) : (s.setPin n v).free = s.free := rfl
@[simp] theorem State.setPin_out (s : State) (n : Nat) (v : Bool) : (s.setPin n v).out = s.out := rfl
@[simp] theorem State.setPin_pending (s : State) (n : Nat) (v : Bool) : (s.setPin n v).pending = s.pending := rfl
@[simp] theorem State.setPin_ciph (s : State) (n : Nat) (v : Bool) : (s.setPin n v).ciph = s.ciph := rfl
@[simp] theorem State.setPin_sched (s : State) (n : Nat) (v : Bool) : (s.setPin n v).sched = s.sched := rfl
@[simp] theorem State.setPin_siteWake (s : State) (n : Nat) (v : Bool) : (s.setPin n v).siteWake = s.siteWake := rfl
@[simp] theorem State.setPin_ndl (s : State) (n : Nat) (v : Bool) : (s.setPin n v).ndl = s.ndl := rfl
@[simp] theorem State.setPin_capture (s : State) (n : Nat) (v : Bool) : (s.setPin n v).capture = s.capture := rfl
@[simp] theorem State.setPin_ndlChunks (s : State) (n : Nat) (v : Bool) : (s.setPin n v).ndlChunks = s.ndlChunks := rfl
@[simp] theorem State.setPin_gauge (s : State) (n : Nat) (v : Bool) : (s.setPin n v).gauge = s.gauge := rfl
@[simp] theorem State.setPin_power (s : State) (n : Nat) (v : Bool) : (s.setPin n v).power = s.power := rfl

/-! `State.takeFree` changes `free` alone. -/

@[simp] theorem State.takeFree_regs (s : State) : (s.takeFree).regs = s.regs := rfl
@[simp] theorem State.takeFree_snapView (s : State) : (s.takeFree).snapView = s.snapView := rfl
@[simp] theorem State.takeFree_latches (s : State) : (s.takeFree).latches = s.latches := rfl
@[simp] theorem State.takeFree_staging (s : State) : (s.takeFree).staging = s.staging := rfl
@[simp] theorem State.takeFree_recLatch (s : State) : (s.takeFree).recLatch = s.recLatch := rfl
@[simp] theorem State.takeFree_rdata (s : State) : (s.takeFree).rdata = s.rdata := rfl
@[simp] theorem State.takeFree_fns (s : State) : (s.takeFree).fns = s.fns := rfl
@[simp] theorem State.takeFree_domOff (s : State) : (s.takeFree).domOff = s.domOff := rfl
@[simp] theorem State.takeFree_evtAt (s : State) : (s.takeFree).evtAt = s.evtAt := rfl
@[simp] theorem State.takeFree_marker (s : State) : (s.takeFree).marker = s.marker := rfl
@[simp] theorem State.takeFree_snap (s : State) : (s.takeFree).snap = s.snap := rfl
@[simp] theorem State.takeFree_boot (s : State) : (s.takeFree).boot = s.boot := rfl
@[simp] theorem State.takeFree_upd (s : State) : (s.takeFree).upd = s.upd := rfl
@[simp] theorem State.takeFree_fuses (s : State) : (s.takeFree).fuses = s.fuses := rfl
@[simp] theorem State.takeFree_flash (s : State) : (s.takeFree).flash = s.flash := rfl
@[simp] theorem State.takeFree_security (s : State) : (s.takeFree).security = s.security := rfl
@[simp] theorem State.takeFree_mbxHeld (s : State) : (s.takeFree).mbxHeld = s.mbxHeld := rfl
@[simp] theorem State.takeFree_watchdog (s : State) : (s.takeFree).watchdog = s.watchdog := rfl
@[simp] theorem State.takeFree_restarting (s : State) : (s.takeFree).restarting = s.restarting := rfl
@[simp] theorem State.takeFree_clock (s : State) : (s.takeFree).clock = s.clock := rfl
@[simp] theorem State.takeFree_servo (s : State) : (s.takeFree).servo = s.servo := rfl
@[simp] theorem State.takeFree_pins (s : State) : (s.takeFree).pins = s.pins := rfl
@[simp] theorem State.takeFree_cls (s : State) : (s.takeFree).cls = s.cls := rfl
@[simp] theorem State.takeFree_skein (s : State) : (s.takeFree).skein = s.skein := rfl
@[simp] theorem State.takeFree_perSrc (s : State) : (s.takeFree).perSrc = s.perSrc := rfl
@[simp] theorem State.takeFree_mem (s : State) : (s.takeFree).mem = s.mem := rfl
@[simp] theorem State.takeFree_lineA (s : State) : (s.takeFree).lineA = s.lineA := rfl
@[simp] theorem State.takeFree_lineB (s : State) : (s.takeFree).lineB = s.lineB := rfl
@[simp] theorem State.takeFree_dual (s : State) : (s.takeFree).dual = s.dual := rfl
@[simp] theorem State.takeFree_pcie (s : State) : (s.takeFree).pcie = s.pcie := rfl
@[simp] theorem State.takeFree_twin (s : State) : (s.takeFree).twin = s.twin := rfl
@[simp] theorem State.takeFree_timers (s : State) : (s.takeFree).timers = s.timers := rfl
@[simp] theorem State.takeFree_out (s : State) : (s.takeFree).out = s.out := rfl
@[simp] theorem State.takeFree_pending (s : State) : (s.takeFree).pending = s.pending := rfl
@[simp] theorem State.takeFree_ciph (s : State) : (s.takeFree).ciph = s.ciph := rfl
@[simp] theorem State.takeFree_sched (s : State) : (s.takeFree).sched = s.sched := rfl
@[simp] theorem State.takeFree_siteWake (s : State) : (s.takeFree).siteWake = s.siteWake := rfl
@[simp] theorem State.takeFree_ndl (s : State) : (s.takeFree).ndl = s.ndl := rfl
@[simp] theorem State.takeFree_capture (s : State) : (s.takeFree).capture = s.capture := rfl
@[simp] theorem State.takeFree_ndlChunks (s : State) : (s.takeFree).ndlChunks = s.ndlChunks := rfl
@[simp] theorem State.takeFree_gauge (s : State) : (s.takeFree).gauge = s.gauge := rfl
@[simp] theorem State.takeFree_power (s : State) : (s.takeFree).power = s.power := rfl

/-! `State.setFnRec` changes `fns` alone. -/

@[simp] theorem State.setFnRec_regs (s : State) (f : Fn) (r : FnRec) : (s.setFnRec f r).regs = s.regs := rfl
@[simp] theorem State.setFnRec_snapView (s : State) (f : Fn) (r : FnRec) : (s.setFnRec f r).snapView = s.snapView := rfl
@[simp] theorem State.setFnRec_latches (s : State) (f : Fn) (r : FnRec) : (s.setFnRec f r).latches = s.latches := rfl
@[simp] theorem State.setFnRec_staging (s : State) (f : Fn) (r : FnRec) : (s.setFnRec f r).staging = s.staging := rfl
@[simp] theorem State.setFnRec_recLatch (s : State) (f : Fn) (r : FnRec) : (s.setFnRec f r).recLatch = s.recLatch := rfl
@[simp] theorem State.setFnRec_rdata (s : State) (f : Fn) (r : FnRec) : (s.setFnRec f r).rdata = s.rdata := rfl
@[simp] theorem State.setFnRec_domOff (s : State) (f : Fn) (r : FnRec) : (s.setFnRec f r).domOff = s.domOff := rfl
@[simp] theorem State.setFnRec_evtAt (s : State) (f : Fn) (r : FnRec) : (s.setFnRec f r).evtAt = s.evtAt := rfl
@[simp] theorem State.setFnRec_marker (s : State) (f : Fn) (r : FnRec) : (s.setFnRec f r).marker = s.marker := rfl
@[simp] theorem State.setFnRec_snap (s : State) (f : Fn) (r : FnRec) : (s.setFnRec f r).snap = s.snap := rfl
@[simp] theorem State.setFnRec_boot (s : State) (f : Fn) (r : FnRec) : (s.setFnRec f r).boot = s.boot := rfl
@[simp] theorem State.setFnRec_upd (s : State) (f : Fn) (r : FnRec) : (s.setFnRec f r).upd = s.upd := rfl
@[simp] theorem State.setFnRec_fuses (s : State) (f : Fn) (r : FnRec) : (s.setFnRec f r).fuses = s.fuses := rfl
@[simp] theorem State.setFnRec_flash (s : State) (f : Fn) (r : FnRec) : (s.setFnRec f r).flash = s.flash := rfl
@[simp] theorem State.setFnRec_security (s : State) (f : Fn) (r : FnRec) : (s.setFnRec f r).security = s.security := rfl
@[simp] theorem State.setFnRec_mbxHeld (s : State) (f : Fn) (r : FnRec) : (s.setFnRec f r).mbxHeld = s.mbxHeld := rfl
@[simp] theorem State.setFnRec_watchdog (s : State) (f : Fn) (r : FnRec) : (s.setFnRec f r).watchdog = s.watchdog := rfl
@[simp] theorem State.setFnRec_restarting (s : State) (f : Fn) (r : FnRec) : (s.setFnRec f r).restarting = s.restarting := rfl
@[simp] theorem State.setFnRec_clock (s : State) (f : Fn) (r : FnRec) : (s.setFnRec f r).clock = s.clock := rfl
@[simp] theorem State.setFnRec_servo (s : State) (f : Fn) (r : FnRec) : (s.setFnRec f r).servo = s.servo := rfl
@[simp] theorem State.setFnRec_pins (s : State) (f : Fn) (r : FnRec) : (s.setFnRec f r).pins = s.pins := rfl
@[simp] theorem State.setFnRec_cls (s : State) (f : Fn) (r : FnRec) : (s.setFnRec f r).cls = s.cls := rfl
@[simp] theorem State.setFnRec_skein (s : State) (f : Fn) (r : FnRec) : (s.setFnRec f r).skein = s.skein := rfl
@[simp] theorem State.setFnRec_perSrc (s : State) (f : Fn) (r : FnRec) : (s.setFnRec f r).perSrc = s.perSrc := rfl
@[simp] theorem State.setFnRec_mem (s : State) (f : Fn) (r : FnRec) : (s.setFnRec f r).mem = s.mem := rfl
@[simp] theorem State.setFnRec_lineA (s : State) (f : Fn) (r : FnRec) : (s.setFnRec f r).lineA = s.lineA := rfl
@[simp] theorem State.setFnRec_lineB (s : State) (f : Fn) (r : FnRec) : (s.setFnRec f r).lineB = s.lineB := rfl
@[simp] theorem State.setFnRec_dual (s : State) (f : Fn) (r : FnRec) : (s.setFnRec f r).dual = s.dual := rfl
@[simp] theorem State.setFnRec_pcie (s : State) (f : Fn) (r : FnRec) : (s.setFnRec f r).pcie = s.pcie := rfl
@[simp] theorem State.setFnRec_twin (s : State) (f : Fn) (r : FnRec) : (s.setFnRec f r).twin = s.twin := rfl
@[simp] theorem State.setFnRec_timers (s : State) (f : Fn) (r : FnRec) : (s.setFnRec f r).timers = s.timers := rfl
@[simp] theorem State.setFnRec_free (s : State) (f : Fn) (r : FnRec) : (s.setFnRec f r).free = s.free := rfl
@[simp] theorem State.setFnRec_out (s : State) (f : Fn) (r : FnRec) : (s.setFnRec f r).out = s.out := rfl
@[simp] theorem State.setFnRec_pending (s : State) (f : Fn) (r : FnRec) : (s.setFnRec f r).pending = s.pending := rfl
@[simp] theorem State.setFnRec_ciph (s : State) (f : Fn) (r : FnRec) : (s.setFnRec f r).ciph = s.ciph := rfl
@[simp] theorem State.setFnRec_sched (s : State) (f : Fn) (r : FnRec) : (s.setFnRec f r).sched = s.sched := rfl
@[simp] theorem State.setFnRec_siteWake (s : State) (f : Fn) (r : FnRec) : (s.setFnRec f r).siteWake = s.siteWake := rfl
@[simp] theorem State.setFnRec_ndl (s : State) (f : Fn) (r : FnRec) : (s.setFnRec f r).ndl = s.ndl := rfl
@[simp] theorem State.setFnRec_capture (s : State) (f : Fn) (r : FnRec) : (s.setFnRec f r).capture = s.capture := rfl
@[simp] theorem State.setFnRec_ndlChunks (s : State) (f : Fn) (r : FnRec) : (s.setFnRec f r).ndlChunks = s.ndlChunks := rfl
@[simp] theorem State.setFnRec_gauge (s : State) (f : Fn) (r : FnRec) : (s.setFnRec f r).gauge = s.gauge := rfl
@[simp] theorem State.setFnRec_power (s : State) (f : Fn) (r : FnRec) : (s.setFnRec f r).power = s.power := rfl

/-! `State.reject` changes `regs` alone. -/

@[simp] theorem State.reject_snapView (s : State) (b : Nat) (src : Source) (r : Reason) (w : Bool) (off : Nat) : (s.reject b src r w off).snapView = s.snapView := by
  unfold State.reject; rw [State.evt_snapView, State.wr_snapView]
@[simp] theorem State.reject_latches (s : State) (b : Nat) (src : Source) (r : Reason) (w : Bool) (off : Nat) : (s.reject b src r w off).latches = s.latches := by
  unfold State.reject; rw [State.evt_latches, State.wr_latches]
@[simp] theorem State.reject_staging (s : State) (b : Nat) (src : Source) (r : Reason) (w : Bool) (off : Nat) : (s.reject b src r w off).staging = s.staging := by
  unfold State.reject; rw [State.evt_staging, State.wr_staging]
@[simp] theorem State.reject_recLatch (s : State) (b : Nat) (src : Source) (r : Reason) (w : Bool) (off : Nat) : (s.reject b src r w off).recLatch = s.recLatch := by
  unfold State.reject; rw [State.evt_recLatch, State.wr_recLatch]
@[simp] theorem State.reject_rdata (s : State) (b : Nat) (src : Source) (r : Reason) (w : Bool) (off : Nat) : (s.reject b src r w off).rdata = s.rdata := by
  unfold State.reject; rw [State.evt_rdata, State.wr_rdata]
@[simp] theorem State.reject_fns (s : State) (b : Nat) (src : Source) (r : Reason) (w : Bool) (off : Nat) : (s.reject b src r w off).fns = s.fns := by
  unfold State.reject; rw [State.evt_fns, State.wr_fns]
@[simp] theorem State.reject_domOff (s : State) (b : Nat) (src : Source) (r : Reason) (w : Bool) (off : Nat) : (s.reject b src r w off).domOff = s.domOff := by
  unfold State.reject; rw [State.evt_domOff, State.wr_domOff]
@[simp] theorem State.reject_evtAt (s : State) (b : Nat) (src : Source) (r : Reason) (w : Bool) (off : Nat) : (s.reject b src r w off).evtAt = s.evtAt := by
  unfold State.reject; rw [State.evt_evtAt, State.wr_evtAt]
@[simp] theorem State.reject_marker (s : State) (b : Nat) (src : Source) (r : Reason) (w : Bool) (off : Nat) : (s.reject b src r w off).marker = s.marker := by
  unfold State.reject; rw [State.evt_marker, State.wr_marker]
@[simp] theorem State.reject_snap (s : State) (b : Nat) (src : Source) (r : Reason) (w : Bool) (off : Nat) : (s.reject b src r w off).snap = s.snap := by
  unfold State.reject; rw [State.evt_snap, State.wr_snap]
@[simp] theorem State.reject_boot (s : State) (b : Nat) (src : Source) (r : Reason) (w : Bool) (off : Nat) : (s.reject b src r w off).boot = s.boot := by
  unfold State.reject; rw [State.evt_boot, State.wr_boot]
@[simp] theorem State.reject_upd (s : State) (b : Nat) (src : Source) (r : Reason) (w : Bool) (off : Nat) : (s.reject b src r w off).upd = s.upd := by
  unfold State.reject; rw [State.evt_upd, State.wr_upd]
@[simp] theorem State.reject_fuses (s : State) (b : Nat) (src : Source) (r : Reason) (w : Bool) (off : Nat) : (s.reject b src r w off).fuses = s.fuses := by
  unfold State.reject; rw [State.evt_fuses, State.wr_fuses]
@[simp] theorem State.reject_flash (s : State) (b : Nat) (src : Source) (r : Reason) (w : Bool) (off : Nat) : (s.reject b src r w off).flash = s.flash := by
  unfold State.reject; rw [State.evt_flash, State.wr_flash]
@[simp] theorem State.reject_security (s : State) (b : Nat) (src : Source) (r : Reason) (w : Bool) (off : Nat) : (s.reject b src r w off).security = s.security := by
  unfold State.reject; rw [State.evt_security, State.wr_security]
@[simp] theorem State.reject_mbxHeld (s : State) (b : Nat) (src : Source) (r : Reason) (w : Bool) (off : Nat) : (s.reject b src r w off).mbxHeld = s.mbxHeld := by
  unfold State.reject; rw [State.evt_mbxHeld, State.wr_mbxHeld]
@[simp] theorem State.reject_watchdog (s : State) (b : Nat) (src : Source) (r : Reason) (w : Bool) (off : Nat) : (s.reject b src r w off).watchdog = s.watchdog := by
  unfold State.reject; rw [State.evt_watchdog, State.wr_watchdog]
@[simp] theorem State.reject_restarting (s : State) (b : Nat) (src : Source) (r : Reason) (w : Bool) (off : Nat) : (s.reject b src r w off).restarting = s.restarting := by
  unfold State.reject; rw [State.evt_restarting, State.wr_restarting]
@[simp] theorem State.reject_clock (s : State) (b : Nat) (src : Source) (r : Reason) (w : Bool) (off : Nat) : (s.reject b src r w off).clock = s.clock := by
  unfold State.reject; rw [State.evt_clock, State.wr_clock]
@[simp] theorem State.reject_servo (s : State) (b : Nat) (src : Source) (r : Reason) (w : Bool) (off : Nat) : (s.reject b src r w off).servo = s.servo := by
  unfold State.reject; rw [State.evt_servo, State.wr_servo]
@[simp] theorem State.reject_pins (s : State) (b : Nat) (src : Source) (r : Reason) (w : Bool) (off : Nat) : (s.reject b src r w off).pins = s.pins := by
  unfold State.reject; rw [State.evt_pins, State.wr_pins]
@[simp] theorem State.reject_cls (s : State) (b : Nat) (src : Source) (r : Reason) (w : Bool) (off : Nat) : (s.reject b src r w off).cls = s.cls := by
  unfold State.reject; rw [State.evt_cls, State.wr_cls]
@[simp] theorem State.reject_skein (s : State) (b : Nat) (src : Source) (r : Reason) (w : Bool) (off : Nat) : (s.reject b src r w off).skein = s.skein := by
  unfold State.reject; rw [State.evt_skein, State.wr_skein]
@[simp] theorem State.reject_perSrc (s : State) (b : Nat) (src : Source) (r : Reason) (w : Bool) (off : Nat) : (s.reject b src r w off).perSrc = s.perSrc := by
  unfold State.reject; rw [State.evt_perSrc, State.wr_perSrc]
@[simp] theorem State.reject_mem (s : State) (b : Nat) (src : Source) (r : Reason) (w : Bool) (off : Nat) : (s.reject b src r w off).mem = s.mem := by
  unfold State.reject; rw [State.evt_mem, State.wr_mem]
@[simp] theorem State.reject_lineA (s : State) (b : Nat) (src : Source) (r : Reason) (w : Bool) (off : Nat) : (s.reject b src r w off).lineA = s.lineA := by
  unfold State.reject; rw [State.evt_lineA, State.wr_lineA]
@[simp] theorem State.reject_lineB (s : State) (b : Nat) (src : Source) (r : Reason) (w : Bool) (off : Nat) : (s.reject b src r w off).lineB = s.lineB := by
  unfold State.reject; rw [State.evt_lineB, State.wr_lineB]
@[simp] theorem State.reject_dual (s : State) (b : Nat) (src : Source) (r : Reason) (w : Bool) (off : Nat) : (s.reject b src r w off).dual = s.dual := by
  unfold State.reject; rw [State.evt_dual, State.wr_dual]
@[simp] theorem State.reject_pcie (s : State) (b : Nat) (src : Source) (r : Reason) (w : Bool) (off : Nat) : (s.reject b src r w off).pcie = s.pcie := by
  unfold State.reject; rw [State.evt_pcie, State.wr_pcie]
@[simp] theorem State.reject_twin (s : State) (b : Nat) (src : Source) (r : Reason) (w : Bool) (off : Nat) : (s.reject b src r w off).twin = s.twin := by
  unfold State.reject; rw [State.evt_twin, State.wr_twin]
@[simp] theorem State.reject_timers (s : State) (b : Nat) (src : Source) (r : Reason) (w : Bool) (off : Nat) : (s.reject b src r w off).timers = s.timers := by
  unfold State.reject; rw [State.evt_timers, State.wr_timers]
@[simp] theorem State.reject_free (s : State) (b : Nat) (src : Source) (r : Reason) (w : Bool) (off : Nat) : (s.reject b src r w off).free = s.free := by
  unfold State.reject; rw [State.evt_free, State.wr_free]
@[simp] theorem State.reject_out (s : State) (b : Nat) (src : Source) (r : Reason) (w : Bool) (off : Nat) : (s.reject b src r w off).out = s.out := by
  unfold State.reject; rw [State.evt_out, State.wr_out]
@[simp] theorem State.reject_pending (s : State) (b : Nat) (src : Source) (r : Reason) (w : Bool) (off : Nat) : (s.reject b src r w off).pending = s.pending := by
  unfold State.reject; rw [State.evt_pending, State.wr_pending]
@[simp] theorem State.reject_ciph (s : State) (b : Nat) (src : Source) (r : Reason) (w : Bool) (off : Nat) : (s.reject b src r w off).ciph = s.ciph := by
  unfold State.reject; rw [State.evt_ciph, State.wr_ciph]
@[simp] theorem State.reject_sched (s : State) (b : Nat) (src : Source) (r : Reason) (w : Bool) (off : Nat) : (s.reject b src r w off).sched = s.sched := by
  unfold State.reject; rw [State.evt_sched, State.wr_sched]
@[simp] theorem State.reject_siteWake (s : State) (b : Nat) (src : Source) (r : Reason) (w : Bool) (off : Nat) : (s.reject b src r w off).siteWake = s.siteWake := by
  unfold State.reject; rw [State.evt_siteWake, State.wr_siteWake]
@[simp] theorem State.reject_ndl (s : State) (b : Nat) (src : Source) (r : Reason) (w : Bool) (off : Nat) : (s.reject b src r w off).ndl = s.ndl := by
  unfold State.reject; rw [State.evt_ndl, State.wr_ndl]
@[simp] theorem State.reject_capture (s : State) (b : Nat) (src : Source) (r : Reason) (w : Bool) (off : Nat) : (s.reject b src r w off).capture = s.capture := by
  unfold State.reject; rw [State.evt_capture, State.wr_capture]
@[simp] theorem State.reject_ndlChunks (s : State) (b : Nat) (src : Source) (r : Reason) (w : Bool) (off : Nat) : (s.reject b src r w off).ndlChunks = s.ndlChunks := by
  unfold State.reject; rw [State.evt_ndlChunks, State.wr_ndlChunks]
@[simp] theorem State.reject_gauge (s : State) (b : Nat) (src : Source) (r : Reason) (w : Bool) (off : Nat) : (s.reject b src r w off).gauge = s.gauge := by
  unfold State.reject; rw [State.evt_gauge, State.wr_gauge]
@[simp] theorem State.reject_power (s : State) (b : Nat) (src : Source) (r : Reason) (w : Bool) (off : Nat) : (s.reject b src r w off).power = s.power := by
  unfold State.reject; rw [State.evt_power, State.wr_power]
end Sys2Proof.Machine
end

