-- ==== Sys2Proof/Laws/Memory.lean ====
section
/-!
SUPPORT. Laws/Memory.lean: the laws of LPDDR5X (R390 to R399): read after write, and that every memory operation keeps the
canonical form.
-/

namespace Sys2Proof.Machine

/-! ### Runs of keys -/

/-- What a run of keys written reads as afterwards. -/
theorem SMap.get_setList {α : Type} [DecidableEq α] (d : Nat → α) (vs : List α) :
    ∀ (m : SMap α) (k j : Nat), SMap.get d (SMap.setList d m k vs) j =
      if k ≤ j ∧ j < k + vs.length then vs.getD (j - k) (d j) else SMap.get d m j := by
  induction vs with
  | nil =>
    intro m k j
    have h : ¬ (k ≤ j ∧ j < k + ([] : List α).length) := by simp only [List.length_nil]; omega
    simp only [SMap.setList, if_neg h]
  | cons v vs ih =>
    intro m k j
    simp only [SMap.setList, ih, SMap.get_set, List.length_cons]
    by_cases h : j = k
    · subst h
      have h1 : ¬ (j + 1 ≤ j ∧ j < j + 1 + vs.length) := by omega
      have h2 : j ≤ j ∧ j < j + (vs.length + 1) := by omega
      rw [if_neg h1, if_pos rfl, if_pos h2]
      simp
    · by_cases h1 : k + 1 ≤ j ∧ j < k + 1 + vs.length
      · have h2 : k ≤ j ∧ j < k + (vs.length + 1) := by omega
        rw [if_pos h1, if_pos h2]
        obtain ⟨n, rfl⟩ : ∃ n, j = k + 1 + n := ⟨j - (k + 1), by omega⟩
        have h3 : k + 1 + n - k = n + 1 := by omega
        have h4 : k + 1 + n - (k + 1) = n := by omega
        rw [h3, h4]; rfl
      · have h2 : ¬ (k ≤ j ∧ j < k + (vs.length + 1)) := by omega
        rw [if_neg h1, if_neg h2, if_neg h]

/-! ### Read after write -/

/-- A byte after bytes have been stored: the stored byte, or what it was. -/
theorem State.memByte_memPut (s : State) (a : Nat) (bs : List Byte) (x : Nat) :
    (s.memPut a bs).memByte x = if a ≤ x ∧ x < a + bs.length then bs.getD (x - a) 0 else s.memByte x :=
  SMap.get_setList _ bs _ _ _

/-- Errors of LPDDR5X recorded leave its contents. -/
@[simp] theorem State.mem_memErr (s : State) (w type source : Nat) : (s.memErr w type source).mem = s.mem := by
  unfold State.memErr; rw [State.wr_mem, State.set64_mem]

/-! ### What leaves the bytes of memory alone (R396 to R404) -/

/-- Steps that each leave the bytes of memory leave them together. -/
theorem State.data_foldl {β : Type} (f : State → β → State) (h : ∀ t x, (f t x).mem.data = t.mem.data) :
    ∀ (l : List β) (t : State), (l.foldl f t).mem.data = t.mem.data := by
  intro l
  induction l with
  | nil => intro t; rfl
  | cons x l ih => intro t; rw [List.foldl_cons, ih, h]

theorem State.ite_mem {c : Prop} [Decidable c] {a b s : State} (ha : a.mem = s.mem) (hb : b.mem = s.mem) :
    (if c then a else b).mem = s.mem := by
  split
  · exact ha
  · exact hb

theorem State.ite_data {c : Prop} [Decidable c] {a b s : State} (ha : a.mem.data = s.mem.data) (hb : b.mem.data = s.mem.data) :
    (if c then a else b).mem.data = s.mem.data := by
  split
  · exact ha
  · exact hb

/-- States of one memory have one list of bytes. -/
theorem State.data_of_mem {a s : State} (h : a.mem = s.mem) : a.mem.data = s.mem.data := congrArg Mem.data h

theorem State.setFlips_data (s : State) (w n : Nat) : (s.setFlips w n).mem.data = s.mem.data := rfl

theorem State.setPoison_data (s : State) (p : SMap Bool) :
    ({ s with mem := { s.mem with poison := p } } : State).mem.data = s.mem.data := rfl

theorem State.setCorrected_data (s : State) (p : SMap Nat) :
    ({ s with mem := { s.mem with corrected := p } } : State).mem.data = s.mem.data := rfl

theorem State.setWriteBack_data (s : State) (p : List (Nat × List Byte)) :
    ({ s with mem := { s.mem with writeBack := p } } : State).mem.data = s.mem.data := rfl

theorem State.setBad_data (s : State) (a i : Nat) (b : Bool) : (s.setBad a i b).mem.data = s.mem.data := rfl

theorem State.poisonBuf_data (s : State) (p i : Nat) : (s.poisonBuf p i).mem.data = s.mem.data := rfl

theorem State.setPool_data (s : State) (p : Nat) (x : PoolSt) : (s.setPool p x).mem.data = s.mem.data := rfl

theorem State.setMem_data (s : State) (m : Mem) (h : m.data = s.mem.data) : ({ s with mem := m } : State).mem.data = s.mem.data := h

theorem State.evtMs_mem (s : State) (b k : Nat) : (s.evtMs b k).mem = s.mem := by
  unfold State.evtMs
  exact State.ite_mem ((State.evt_mem _ _ _).trans rfl) rfl

theorem State.setPoolFree_mem (s : State) (p n : Nat) : (s.setPoolFree p n).mem = s.mem := by
  unfold State.setPoolFree
  exact State.ite_mem ((State.set_mem _ _ _ _).trans (State.set_mem _ _ _ _)) (State.set_mem _ _ _ _)

theorem State.holdBuf_data (s : State) (p i : Nat) : (s.holdBuf p i).mem.data = s.mem.data := by
  unfold State.holdBuf
  exact State.ite_data ((State.data_of_mem (State.setPoolFree_mem _ _ _)).trans (State.setPool_data _ _ _)) rfl

theorem State.holdBufs_data (s : State) (p : Nat) (idx : List Nat) : (s.holdBufs p idx).mem.data = s.mem.data := by
  unfold State.holdBufs
  exact State.data_foldl _ (fun t i => State.holdBuf_data t p i) idx s

theorem State.poisonTags_data (s : State) (p i : Nat) : (s.poisonTags p i).mem.data = s.mem.data := by
  unfold State.poisonTags
  refine (State.holdBufs_data _ _ _).trans ?_
  refine State.data_foldl _ ?_ _ s
  intro _ _
  exact State.setBad_data _ _ _ _

theorem State.poisonPool_data (s : State) (lpddr : Bool) (addr p : Nat) :
    (s.poisonPool lpddr addr p).mem.data = s.mem.data := by
  unfold State.poisonPool
  exact State.ite_data (State.ite_data (State.poisonBuf_data _ _ _) (State.poisonTags_data _ _ _)) rfl

theorem State.poisonWord_data (s : State) (lpddr : Bool) (addr : Nat) :
    (s.poisonWord lpddr addr).mem.data = s.mem.data := by
  unfold State.poisonWord
  exact State.data_foldl _ (fun t p => State.poisonPool_data t lpddr addr p) _ s

theorem State.darnStart_data (s : State) (row : Nat) (auto : Bool) : (s.darnStart row auto).mem.data = s.mem.data := by
  unfold State.darnStart
  exact (State.data_of_mem (State.set_mem _ _ _ _)).trans ((State.data_of_mem (State.set_mem _ _ _ _)).trans
    (State.setMem_data s (s.mem.startCopy row auto) rfl))

theorem State.autoDarn_data (s : State) (row : Nat) : (s.autoDarn row).mem.data = s.mem.data := by
  unfold State.autoDarn
  exact State.ite_data rfl (State.ite_data (State.data_of_mem ((State.evt_mem _ _ _).trans (State.inc_mem _ _ _)))
    (State.ite_data rfl (State.ite_data rfl (State.darnStart_data s row true))))

theorem State.wordCorrected_data (s : State) (w bits source : Nat) :
    (s.wordCorrected w bits source).mem.data = s.mem.data := by
  unfold State.wordCorrected
  have h : (((s.inc Pg.MEM (MEM1.CE (s.arrayRow (w / 256) % 16))).evtMs Pg.MEM 8).memErr w bits source).mem.data
      = s.mem.data :=
    State.data_of_mem ((State.mem_memErr _ _ _ _).trans ((State.evtMs_mem _ _ _).trans (State.inc_mem _ _ _)))
  exact State.ite_data ((State.autoDarn_data _ _).trans ((State.setCorrected_data _ _).trans h))
    ((State.setCorrected_data _ _).trans h)

theorem State.wordLost_data (s : State) (w source : Nat) : (s.wordLost w source).mem.data = s.mem.data := by
  unfold State.wordLost
  exact (State.autoDarn_data _ _).trans ((State.poisonWord_data _ _ _).trans ((State.setFlips_data _ _ _).trans
    ((State.setPoison_data _ _).trans (State.data_of_mem
      ((State.mem_memErr _ _ _ _).trans ((State.evt_mem _ _ _).trans (State.inc_mem _ _ _)))))))

theorem State.holdBack_data (s : State) (w : Nat) : (s.holdBack w).mem.data = s.mem.data := by
  unfold State.holdBack
  exact State.ite_data rfl rfl

/-- A word read leaves the bytes of memory. -/
theorem State.wordRead_data (s : State) (w source : Nat) : (s.wordRead w source).mem.data = s.mem.data := by
  unfold State.wordRead
  have h : (if s.flipsAt w = 0 then s else (s.wordCorrected w (s.flipsAt w) source).holdBack w).mem.data = s.mem.data :=
    State.ite_data rfl ((State.holdBack_data _ _).trans (State.wordCorrected_data _ _ _ _))
  exact State.ite_data (State.wordLost_data s w source)
    (State.ite_data (State.data_of_mem ((State.mem_memErr _ _ _ _).trans (State.inc_mem _ _ _)) |>.trans h) h)

/-- What a write does to a word beside its bytes leaves them. -/
theorem State.wordWritten_data (s : State) (w source : Nat) (whole : Bool) :
    (s.wordWritten w source whole).mem.data = s.mem.data := by
  unfold State.wordWritten
  have h : ∀ (n : Nat) (t : State), t.mem.data = s.mem.data → (if 3 ≤ n then t.wordLost w source else if n = 0 then t
      else (t.wordCorrected w n source).setFlips w 0).mem.data = s.mem.data := fun n t ht =>
    State.ite_data ((State.wordLost_data t w source).trans ht)
      (State.ite_data ht ((State.setFlips_data _ _ _).trans
        ((State.wordCorrected_data t w n source).trans ht)))
  have g := State.setWriteBack_data s (s.mem.writeBack.filter (fun e => !decide (e.1 = w)))
  exact State.ite_data ((State.setFlips_data _ _ _).trans ((State.setPoison_data _ _).trans g))
    (State.ite_data ((State.data_of_mem (State.inc_mem _ _ _)).trans (h _ _ g)) (h _ _ g))

/-- A read of LPDDR5X leaves its bytes, whatever it finds. -/
theorem State.memRead_data (s : State) (a n source : Nat) : (s.memRead a n source).2.2.mem.data = s.mem.data := by
  unfold State.memRead
  exact State.data_foldl _ (fun t w => State.wordRead_data t w source) _ s

/-- A write of LPDDR5X stores its bytes: poison, errors and counters are all that it changes besides. -/
theorem State.memWrite_data (s : State) (a : Nat) (bs : List Byte) (source : Nat) :
    (s.memWrite a bs source).mem.data = (s.memPut a bs).mem.data := by
  unfold State.memWrite
  exact State.data_foldl _ (fun t w => State.wordWritten_data t w source _) _ _

/-- A byte after a write: the written byte, or what it was. -/
theorem State.memByte_memWrite (s : State) (a : Nat) (bs : List Byte) (source x : Nat) :
    (s.memWrite a bs source).memByte x = if a ≤ x ∧ x < a + bs.length then bs.getD (x - a) 0 else s.memByte x := by
  have h : (s.memWrite a bs source).memByte x = (s.memPut a bs).memByte x := by
    simp only [State.memByte, State.memWrite_data]
  rw [h, State.memByte_memPut]

/-- A byte after a read is what it was. -/
theorem State.memByte_memRead (s : State) (a n source x : Nat) : (s.memRead a n source).2.2.memByte x = s.memByte x := by
  simp only [State.memByte, State.memRead_data]

/-! ### The canonical form -/

/-- At reset memory is in its canonical form. -/
theorem Memory.wf_reset : Memory.wf State.reset = true := rfl

theorem Memory.wf_memPut (s : State) (a : Nat) (bs : List Byte) (h : Memory.wf s = true) : Memory.wf (s.memPut a bs) = true :=
  SMap.wf_setList _ bs _ _ h

theorem Memory.wf_memWrite (s : State) (a : Nat) (bs : List Byte) (source : Nat) (h : Memory.wf s = true) :
    Memory.wf (s.memWrite a bs source) = true := by
  have := Memory.wf_memPut s a bs h
  simpa only [Memory.wf, State.memWrite_data] using this

theorem Memory.wf_memRead (s : State) (a n source : Nat) (h : Memory.wf s = true) :
    Memory.wf (s.memRead a n source).2.2 = true := by
  simpa only [Memory.wf, State.memRead_data] using h

theorem Memory.wf_wordRead (s : State) (w source : Nat) (h : Memory.wf s = true) : Memory.wf (s.wordRead w source) = true := by
  simpa only [Memory.wf, State.wordRead_data] using h

/-- The demand write-backs keep the canonical form. -/
theorem Memory.wf_writeBacks (s : State) (h : Memory.wf s = true) : Memory.wf s.writeBacks = true := by
  have go : ∀ (l : List (Nat × List Byte)) (t : State), Memory.wf t = true →
      Memory.wf (l.foldl (fun s e => (s.memPut (e.1 * 8) e.2).setFlips e.1 0) t) = true := by
    intro l
    induction l with
    | nil => intro t ht; exact ht
    | cons e l ih =>
      intro t ht
      exact ih _ (Memory.wf_memPut t (e.1 * 8) e.2 ht)
  exact go _ _ h

/-- Two states with the same memory are both in the canonical form or neither. -/
theorem Memory.wf_of_mem {s t : State} (h : t.mem = s.mem) : Memory.wf t = Memory.wf s := by simp only [Memory.wf, h]

end Sys2Proof.Machine
end

