-- ==== Sys2Proof/Laws/Read.lean ====
section
/-!
SUPPORT. Laws/Read.lean: what reading a register, a field or a bit gives after each shared update of State, and what
timers and pins read after theirs.
-/

namespace Sys2Proof.Machine

/-! ### States with the same registers -/

theorem State.get_of_regs {s t : State} (h : t.regs = s.regs) (b : Nat) (F : Fld) : t.get b F = s.get b F := by
  simp only [State.get, State.rd_of_regs h]

theorem State.bit_of_regs {s t : State} (h : t.regs = s.regs) (b : Nat) (F : Fld) : t.bit b F = s.bit b F := by
  simp only [State.bit, State.get_of_regs h]

/-- A state put together field by field reads as the state its registers come from. -/
@[simp] theorem State.rd_mk (x : State) f2 f3 f4 f5 f6 f7 f8 f9 f10 f11 f12 f13 f14 f15 f16 f17 f18 f19 f20 f21 f22 f23 f24 f25 f26 f27 f28 f29 f30 f31 f32 f33 f34 f35 f36 f37 f38 f39 f40 f41 f42 f43 f44 f45 (a : Nat) :
    (State.mk x.regs f2 f3 f4 f5 f6 f7 f8 f9 f10 f11 f12 f13 f14 f15 f16 f17 f18 f19 f20 f21 f22 f23 f24 f25 f26 f27 f28 f29 f30 f31 f32 f33 f34 f35 f36 f37 f38 f39 f40 f41 f42 f43 f44 f45).rd a = x.rd a := rfl
@[simp] theorem State.get_mk (x : State) f2 f3 f4 f5 f6 f7 f8 f9 f10 f11 f12 f13 f14 f15 f16 f17 f18 f19 f20 f21 f22 f23 f24 f25 f26 f27 f28 f29 f30 f31 f32 f33 f34 f35 f36 f37 f38 f39 f40 f41 f42 f43 f44 f45 (b : Nat) (F : Fld) :
    (State.mk x.regs f2 f3 f4 f5 f6 f7 f8 f9 f10 f11 f12 f13 f14 f15 f16 f17 f18 f19 f20 f21 f22 f23 f24 f25 f26 f27 f28 f29 f30 f31 f32 f33 f34 f35 f36 f37 f38 f39 f40 f41 f42 f43 f44 f45).get b F = x.get b F := rfl
@[simp] theorem State.bit_mk (x : State) f2 f3 f4 f5 f6 f7 f8 f9 f10 f11 f12 f13 f14 f15 f16 f17 f18 f19 f20 f21 f22 f23 f24 f25 f26 f27 f28 f29 f30 f31 f32 f33 f34 f35 f36 f37 f38 f39 f40 f41 f42 f43 f44 f45 (b : Nat) (F : Fld) :
    (State.mk x.regs f2 f3 f4 f5 f6 f7 f8 f9 f10 f11 f12 f13 f14 f15 f16 f17 f18 f19 f20 f21 f22 f23 f24 f25 f26 f27 f28 f29 f30 f31 f32 f33 f34 f35 f36 f37 f38 f39 f40 f41 f42 f43 f44 f45).bit b F = x.bit b F := rfl

/-! ### Updates that leave the registers alone -/

@[simp] theorem State.rd_startTimer (s : State) (t ns : Nat) (a : Nat) : (s.startTimer t ns).rd a = s.rd a := rfl
@[simp] theorem State.get_startTimer (s : State) (t ns : Nat) (b : Nat) (F : Fld) : (s.startTimer t ns).get b F = s.get b F := rfl
@[simp] theorem State.bit_startTimer (s : State) (t ns : Nat) (b : Nat) (F : Fld) : (s.startTimer t ns).bit b F = s.bit b F := rfl
@[simp] theorem State.rd_stopTimer (s : State) (t : Nat) (a : Nat) : (s.stopTimer t).rd a = s.rd a := rfl
@[simp] theorem State.get_stopTimer (s : State) (t : Nat) (b : Nat) (F : Fld) : (s.stopTimer t).get b F = s.get b F := rfl
@[simp] theorem State.bit_stopTimer (s : State) (t : Nat) (b : Nat) (F : Fld) : (s.stopTimer t).bit b F = s.bit b F := rfl
@[simp] theorem State.rd_emit (s : State) (e : Emission) (a : Nat) : (s.emit e).rd a = s.rd a := rfl
@[simp] theorem State.get_emit (s : State) (e : Emission) (b : Nat) (F : Fld) : (s.emit e).get b F = s.get b F := rfl
@[simp] theorem State.bit_emit (s : State) (e : Emission) (b : Nat) (F : Fld) : (s.emit e).bit b F = s.bit b F := rfl
@[simp] theorem State.rd_emits (s : State) (es : List Emission) (a : Nat) : (s.emits es).rd a = s.rd a := rfl
@[simp] theorem State.get_emits (s : State) (es : List Emission) (b : Nat) (F : Fld) : (s.emits es).get b F = s.get b F := rfl
@[simp] theorem State.bit_emits (s : State) (es : List Emission) (b : Nat) (F : Fld) : (s.emits es).bit b F = s.bit b F := rfl
@[simp] theorem State.rd_setPin (s : State) (n : Nat) (v : Bool) (a : Nat) : (s.setPin n v).rd a = s.rd a := rfl
@[simp] theorem State.get_setPin (s : State) (n : Nat) (v : Bool) (b : Nat) (F : Fld) : (s.setPin n v).get b F = s.get b F := rfl
@[simp] theorem State.bit_setPin (s : State) (n : Nat) (v : Bool) (b : Nat) (F : Fld) : (s.setPin n v).bit b F = s.bit b F := rfl
@[simp] theorem State.rd_takeFree (s : State) (a : Nat) : (s.takeFree).rd a = s.rd a := rfl
@[simp] theorem State.get_takeFree (s : State) (b : Nat) (F : Fld) : (s.takeFree).get b F = s.get b F := rfl
@[simp] theorem State.bit_takeFree (s : State) (b : Nat) (F : Fld) : (s.takeFree).bit b F = s.bit b F := rfl
@[simp] theorem State.rd_setFnRec (s : State) (f : Fn) (r : FnRec) (a : Nat) : (s.setFnRec f r).rd a = s.rd a := rfl
@[simp] theorem State.get_setFnRec (s : State) (f : Fn) (r : FnRec) (b : Nat) (F : Fld) : (s.setFnRec f r).get b F = s.get b F := rfl
@[simp] theorem State.bit_setFnRec (s : State) (f : Fn) (r : FnRec) (b : Nat) (F : Fld) : (s.setFnRec f r).bit b F = s.bit b F := rfl

/-! ### Updates of a register -/

/-- A one-bit field set to 1 reads set. -/
theorem State.bit_set_one (s : State) (b : Nat) (F : Fld) (hF : F.lo + F.w ≤ 32) (hw : 0 < F.w) :
    (s.set b F 1).bit b F = true := by
  have h1 : 1 % 2 ^ F.w = 1 := Nat.mod_eq_of_lt (Nat.one_lt_two_pow (by omega))
  simp [State.bit, State.get_set_self s b F 1 hF, h1]

/-- A field set to 0 reads clear. -/
theorem State.bit_set_zero (s : State) (b : Nat) (F : Fld) (hF : F.lo + F.w ≤ 32) : (s.set b F 0).bit b F = false := by
  simp [State.bit, State.get_set_self s b F 0 hF]

/-- A bit of another register is left alone by a field set. -/
theorem State.bit_set_reg (s : State) (b c : Nat) (F G : Fld) (v : Nat) (h : c + F.off ≠ b + G.off) :
    (s.set b G v).bit c F = s.bit c F := by simp only [State.bit, State.get_set_reg s b c F G v h]

/-- A bit beside the field set is left alone. -/
theorem State.bit_set_ne (s : State) (b c : Nat) (F G : Fld) (v : Nat) (hG : G.lo + G.w ≤ 32)
    (h : F.lo + F.w ≤ G.lo ∨ G.lo + G.w ≤ F.lo) : (s.set b G v).bit c F = s.bit c F := by
  simp only [State.bit, State.get_set_ne s b c F G v hG h]

/-- A 32-bit counter after `n` more events (R125). -/
theorem State.get_addCnt_self (s : State) (b : Nat) (F : Fld) (n : Nat) (h : F.lo = 0 ∧ F.w = 32) :
    (s.addCnt b F n).get b F = satAdd32 (s.get b F) n := by
  have hlt : satAdd32 (s.get b F) n < 2 ^ 32 := by unfold satAdd32; omega
  unfold State.addCnt
  rw [State.get_set_self _ _ _ _ (by omega), h.2, Nat.mod_eq_of_lt hlt]

/-- A counter advanced leaves the fields of other registers alone. -/
theorem State.get_addCnt_reg (s : State) (b c : Nat) (F G : Fld) (n : Nat) (h : c + F.off ≠ b + G.off) :
    (s.addCnt b G n).get c F = s.get c F := State.get_set_reg _ _ _ _ _ _ h

/-- An event bit set leaves the fields of other registers alone. -/
theorem State.get_evt_reg (s : State) (b c : Nat) (F : Fld) (n : Nat) (h : c + F.off ≠ b + HDR.PAGE_EVENT.off) :
    (s.evt b n).get c F = s.get c F := State.get_set_reg _ _ _ _ _ _ h

/-- An event bit set reads set. -/
theorem State.bit_evt_self (s : State) (b n : Nat) (h : n < 32) : (s.evt b n).bit b ⟨HDR.PAGE_EVENT.off, n, 1⟩ = true :=
  State.bit_set_one _ _ _ (by simp; omega) (by simp)

/-- Registers that an event bit, a counter and a pair leave alone. -/
theorem State.rd_evt_ne (s : State) (b n : Nat) {a : Nat} (h : a ≠ b + HDR.PAGE_EVENT.off) : (s.evt b n).rd a = s.rd a :=
  State.rd_set_ne _ _ _ _ h

theorem State.rd_addCnt_ne (s : State) (b : Nat) (F : Fld) (n : Nat) {a : Nat} (h : a ≠ b + F.off) :
    (s.addCnt b F n).rd a = s.rd a := State.rd_set_ne _ _ _ _ h

theorem State.rd_set64_ne (s : State) (b : Nat) (F : Fld) (v : Nat) {a : Nat} (h : a ≠ b + F.off) (h' : a ≠ b + F.off + 4) :
    (s.set64 b F v).rd a = s.rd a := by
  unfold State.set64; rw [State.rd_wr_ne _ _ h', State.rd_wr_ne _ _ h]

/-- A pair set reads as set, modulo its width. -/
theorem State.get64_set64_self (s : State) (b : Nat) (F : Fld) (v : Nat) : (s.set64 b F v).get64 b F = v % 2 ^ 64 := by
  unfold State.get64 State.set64
  rw [State.rd_wr_ne _ _ (by omega), State.rd_wr_self, State.rd_wr_self, BitVec.toNat_ofNat, BitVec.toNat_ofNat]
  omega

/-- A pair set leaves the fields of other registers alone. -/
theorem State.get_set64_reg (s : State) (b c : Nat) (F G : Fld) (v : Nat) (h : c + F.off ≠ b + G.off)
    (h' : c + F.off ≠ b + G.off + 4) : (s.set64 b G v).get c F = s.get c F := by
  simp only [State.get, State.rd_set64_ne s b G v h h']

/-! ### Timers and pins -/

/-- A timer after another was started or stopped. -/
theorem State.running_startTimer (s : State) (t u ns : Nat) : (s.startTimer t ns).running u = if u = t then true else s.running u := by
  unfold State.running State.startTimer; simp only [SMap.get_set]; split <;> rfl

theorem State.running_stopTimer (s : State) (t u : Nat) : (s.stopTimer t).running u = if u = t then false else s.running u := by
  unfold State.running State.stopTimer; simp only [SMap.get_set]; split <;> rfl

theorem State.timer_startTimer (s : State) (t u ns : Nat) :
    SMap.get noTimer (s.startTimer t ns).timers u = if u = t then some ns else SMap.get noTimer s.timers u := by
  unfold State.startTimer; exact SMap.get_set noTimer s.timers t u (some ns)

theorem State.timer_stopTimer (s : State) (t u : Nat) :
    SMap.get noTimer (s.stopTimer t).timers u = if u = t then none else SMap.get noTimer s.timers u := by
  unfold State.stopTimer; exact SMap.get_set noTimer s.timers t u none

/-- A pin after one was driven. -/
theorem State.pin_setPin (s : State) (m n : Nat) (v : Bool) : (s.setPin n v).pin m = if m = n then v else s.pin m := by
  unfold State.pin State.setPin; exact SMap.get_set _ _ _ _ _

/-- A function's record after one was replaced. -/
theorem State.fn_setFnRec (s : State) (f g : Fn) (r : FnRec) :
    (s.setFnRec f r).fn g = if g.num = f.num then r else s.fn g := by
  unfold State.fn State.setFnRec; exact SMap.get_set _ _ _ _ _

end Sys2Proof.Machine
end

