-- ==== Sys2Proof/Tests/Slice0.lean ====
section
/-!
SUPPORT. Tests/Slice0.lean: tests of the model, and for the hypotheses of every statement a state and operands that meet them.

The states are built from `w`, in which firmware and the holder are ready.  A test's expected result is read from the rules its
docstring names.
-/

set_option maxRecDepth 10000
set_option linter.unusedVariables false
set_option Elab.async false

namespace Sys2Proof.Tests

open Sys2Proof Sys2Proof.Machine

/-! ### States and messages the tests are built from -/

/-- Firmware is ready, the holder too, every feature is in force, and nothing is held. -/
def w : State :=
  { (State.reset.set Pg.DEV DEV.BOOT_STAT_STAGE Stg.fwReady).wr (Pg.DEV + 0x170) 0x1FFFFF with
    power := { State.reset.power with ready := true } }

/-- Samples of a healthy noise source. -/
def good : List Bool := (List.range 1024).map (fun k => decide (k % 2 = 0))

/-- LPDDR5X is trained. -/
def trained (s : State) : State := { s with boot := { s.boot with memTrained := true } }

/-- A ToD sentence with second 12 and a right checksum. -/
def todOk : List Byte :=
  let b := "LBTOD,12,37,0,L,A,5".toList.map ascii
  let x := (todXor b).toNat
  [ascii '$'] ++ b ++ [ascii '*', hexDigit (x / 16), hexDigit (x % 16), 13, 10]

/-- A function in a state. -/
def on (f : Fn) (x : FState) (s : State) : State := s.setFnRec f ⟨x, false, 0⟩

/-- A timer that runs. -/
def tm (t : Nat) (s : State) : State := s.startTimer t 5

/-- A line port's parts replaced. -/
def dn (f : Down → Down) (s : State) : State := s.setDown .portA (f (s.down .portA))
def mo (f : Modem → Modem) (s : State) : State := s.setModem .portA (f (s.modem .portA))
def up (f : Up → Up) (s : State) : State := s.setUp .portA (f (s.up .portA))
def rg (f : Reg → Reg) (s : State) : State := s.setRg .portA (f (s.rg .portA))
def st (x : Nat) (s : State) : State := s.set (Pg.LFR .portA) LFR2.REG_STAT_STATE x
/-- The block and the register at an offset. -/
def bl (a : Nat) : Block := (blockOf a).getD ⟨0, 0, 0, 0, 0, [], [], false, .core⟩
def row (a : Nat) : RegRow := (rowOf a).getD ⟨0, 0, 0, 0, 0, 0, 0, 0, 0, 0, .any, false, false⟩
/-- A time message with its CRC. -/
def tmsg (b : List Byte) : List Byte := b ++ leBytes 4 (Crypto.crc32 b)
def tref : List Byte := tmsg (beBytes 1 1 ++ List.replicate 11 0 ++ beBytes 8 77 ++ beBytes 4 5 ++ List.replicate 20 0)
def stamped (rtd : Option Int) : State :=
  w.setTport .portA ⟨[(0, some 5000000)], rtd, 0, none, 0, none⟩
/-- A key that the neutral point is, which verifies the neutral signature of anything: its digest's bits in vendor slot 0. -/
def pk : List Byte := 1 :: List.replicate 56 0
def keyBits : List Nat :=
    [1280, 1282, 1283, 1285, 1288, 1296, 1298, 1299, 1301, 1303, 1305, 1307, 1308, 1310, 1312, 1313, 1318, 1320, 1325, 1330] ++
    [1332, 1333, 1334, 1338, 1339, 1340, 1342, 1343, 1344, 1346, 1347, 1350, 1352, 1354, 1355, 1357, 1361, 1366, 1370, 1371] ++
    [1374, 1377, 1378, 1381, 1382, 1383, 1384, 1388, 1391, 1392, 1402, 1408, 1411, 1414, 1420, 1423, 1424, 1426, 1430, 1431] ++
    [1433, 1434, 1436, 1437, 1439, 1445, 1447, 1452, 1454, 1455, 1456, 1457, 1458, 1459, 1461, 1462, 1464, 1466, 1467, 1469] ++
    [1471, 1472, 1476, 1477, 1478, 1479, 1480, 1481, 1482, 1483, 1484, 1488, 1491, 1492, 1493, 1498, 1499, 1502, 1504, 1505] ++
    [1506, 1507, 1508, 1511, 1515, 1516, 1519, 1521, 1523, 1524, 1525, 1526, 1528, 1530, 1531, 1532, 1533, 1535, 1538, 1539] ++
    [1540, 1541, 1542, 1544, 1548, 1551, 1556, 1559, 1560, 1561, 1568, 1569, 1571, 1573, 1574, 1576, 1578, 1579, 1580, 1581] ++
    [1582, 1583, 1588, 1589, 1590, 1593, 1595, 1596, 1598, 1599, 1600, 1601, 1602, 1603, 1604, 1605, 1606, 1614, 1616, 1618] ++
    [1620, 1622, 1624, 1627, 1628, 1629, 1631, 1632, 1636, 1637, 1640, 1646, 1648, 1649, 1655, 1657, 1659, 1660, 1663, 1664] ++
    [1665, 1667, 1668, 1670, 1671, 1672, 1673, 1674, 1679, 1680, 1681, 1684, 1686, 1687, 1688, 1689, 1690, 1695, 1696, 1697] ++
    [1699, 1701, 1703, 1706, 1709, 1711, 1715, 1716, 1720, 1721, 1727, 1728, 1729, 1733, 1734, 1735, 1736, 1737, 1738, 1742] ++
    [1743, 1746, 1748, 1749, 1750, 1753, 1754, 1755, 1758, 1760, 1761, 1762, 1766, 1767, 1770, 1771, 1772, 1773, 1774, 1775] ++
    [1776, 1779, 1782, 1785, 1787, 1789]
def keyed (s : State) : State := { s with fuses := { s.fuses with bits := keyBits.map (fun k => (k, true)) } }
/-- A firmware image signed with it: header, SHAKE256 of its body, key, signature, and the body 7. -/
def img : List Byte :=
    [76, 66, 73, 77, 1, 0, 64, 1, 1, 0, 2, 0, 5, 0, 0, 0, 1, 0, 0, 0, 0, 0, 0, 0, 0, 0, 0, 0, 0, 0] ++
    [0, 0, 0, 0, 0, 0, 0, 0, 0, 0, 0, 0, 0, 0, 0, 0, 0, 0, 0, 0, 0, 0, 0, 0, 0, 0, 0, 0, 0, 0] ++
    [0, 0, 0, 0, 184, 10, 226, 77, 158, 177, 83, 118, 159, 82, 85, 221, 9, 172, 55, 35, 73, 170, 37, 113, 174, 105, 84, 63, 166, 167] ++
    [168, 55, 83, 45, 6, 242, 121, 239, 177, 148, 254, 83, 115, 226, 235, 152, 53, 81, 1, 22, 249, 133, 55, 149, 32, 65, 73, 149, 139, 182] ++
    [121, 161, 38, 70, 50, 161, 44, 240, 1, 0, 0, 0, 0, 0, 0, 0, 0, 0, 0, 0, 0, 0, 0, 0, 0, 0, 0, 0, 0, 0] ++
    [0, 0, 0, 0, 0, 0, 0, 0, 0, 0, 0, 0, 0, 0, 0, 0, 0, 0, 0, 0, 0, 0, 0, 0, 0, 0, 0, 0, 0, 0] ++
    [0, 0, 0, 0, 0, 0, 0, 0, 0, 0, 0, 0, 1, 0, 0, 0, 0, 0, 0, 0, 0, 0, 0, 0, 0, 0, 0, 0, 0, 0] ++
    [0, 0, 0, 0, 0, 0, 0, 0, 0, 0, 0, 0, 0, 0, 0, 0, 0, 0, 0, 0, 0, 0, 0, 0, 0, 0, 0, 0, 0, 0] ++
    [0, 0, 0, 0, 0, 0, 0, 0, 0, 0, 0, 0, 0, 0, 0, 0, 0, 0, 0, 0, 0, 0, 0, 0, 0, 0, 0, 0, 0, 0] ++
    [0, 0, 0, 0, 0, 0, 0, 0, 0, 0, 0, 0, 0, 0, 0, 0, 0, 0, 0, 0, 0, 0, 0, 0, 0, 0, 0, 0, 0, 0] ++
    [0, 0, 0, 0, 0, 0, 0, 0, 0, 0, 0, 0, 0, 0, 0, 0, 0, 0, 0, 0, 7]
def flashOf (a : Nat) (bs : List Byte) : SMap Byte := bs.zipIdx.map (fun x => (a + x.2, x.1))
def inBank (b : Bank) (s : State) : State := { s with flash := flashOf (bankBase b) img }
def stage (x : Nat) (s : State) : State := s.set Pg.DEV DEV.BOOT_STAT_STAGE x
/-- A certificate chain of three elements, the first with the identity key. -/
def certs : List Byte := [0x30, 57] ++ w.identityKey ++ [0x30, 1, 9, 0x30, 0]
def withCerts (s : State) : State := { s with flash := flashOf 0x10000 certs }
/-- Channel 1 may issue every command. -/
def w1 : State := { w with fuses := { w.fuses with oobFull := true } }

theorem imageCheck_of_fuses {s s' : State} (h : s.fuses = s'.fuses) (t : Nat) (b : List Byte) :
    s.imageCheck t b = s'.imageCheck t b := by
  cases s; cases s'; simp only at h; subst h; rfl
/-- Recovery over channel 1, with chunks of the image received. -/
def onOob (have_ : List Byte) : State :=
  let s := trained (stage Stg.recovery (keyed (w.set Pg.DEV DEV.BOOT_STAT_BOOT_SRC 2)))
  { s with boot := { s.boot with chunks := have_ } }
/-- Port A's line function in RUNNING; its clock recovery and alignment states. -/
def ln (s : State) : State := on (.line .portA) .running s
def cd (x : Nat) (s : State) : State := s.set (Pg.LINE .portA) LINE0.RX_STAT_CDR x
def al (x : Nat) (s : State) : State := s.set (Pg.LFR .portA) LFR0.DS_STAT_ALIGN x
def pre (f tree : Nat) : List Byte :=
  let b := (beBytes 16 (2 * 2 ^ 124 + 3 * 2 ^ 120 + f * 2 ^ 68 + tree * 2 ^ 52)).take 14
  b ++ beBytes 2 (crc16 b)
def sync (place f : Nat) : SyncObs := ⟨place, 0, 0, 0, 0, 0, [], some (pre f 7)⟩
/-- A header body without runs. -/
def hbody : List Byte := tmsg ([0, 0, 3, 4] ++ List.replicate 24 0 ++ [0, 0, 0, 0x3F, 0xFF, 0xFF] ++ List.replicate 58 0)
def area (k : Nat) (bs : List Byte) : CtrlArea :=
  ⟨5, 0, [(0, bs.length, some bs, 10, 20)], if k = 0 then some (0, bs.length) else none,
    if k = 1 then some (0, bs.length) else none, if k = 2 then some (0, bs.length) else none⟩
def withArea (k : Nat) (bs : List Byte) (s : State) : State := dn (fun d => { d with ctrls := [area k bs] }) s
def smsg (t : Byte) : List Byte := tmsg (t :: List.replicate 59 0)
def gsec (s : State) : State := (s.takeSection .portA CtrlArea.grant (fun a => { a with grant := none })).2
def msec (s : State) : State := (s.takeSection .portA CtrlArea.mgmt (fun a => { a with mgmt := none })).2
def tsec (s : State) : State := (s.takeSection .portA CtrlArea.time (fun a => { a with time := none })).2
/-- The FEH with these upper 51 bits, and its 8 bytes. -/
def feh (x : Nat) : Nat := x * 8192 + fehCheck x
def fehBytes (x : Nat) : List Byte := beBytes 8 (feh x)
def strm (x : Stream) (s : State) : State := al 2 (s.setStream .portA 2 x)
def strm0 : Stream := { Stream.off with on := true }
/-- A grant map of one entry, and a grant. -/
def gmap (e : Nat) : List Byte := tmsg (beBytes 2 1 ++ [0, 0] ++ beBytes 8 e)
def discE : Nat := 0x3FFF * 2 ^ 50 + 100 * 2 ^ 38 + 400 * 2 ^ 25 + 2 ^ 19
def gr (s : State) : Grant := s.mkGrant .portA 5 0 discE
def brst (s : State) : Burst := ⟨gr s, [1, 2], none, 2, 1, 0, [], none, [], [], none⟩
/-- A downstream short message to every terminal, and a tunnel message. -/
def sm (type seq : Byte) (b : List Byte) : List Byte :=
  let m := [type, seq, 0x0F, 0xFF] ++ b
  tmsg (m ++ List.replicate (60 - m.length) 0)
def tl (type seq : Byte) (b : List Byte) : List Byte := [type, seq] ++ beBytes 2 b.length ++ b
/-- A customer kernel of one instruction, signed with the same key. -/
def kbody : List Byte := [0x4E, 0x44, 0x4C, 0x4B] ++ List.replicate 12 0 ++ [1, 0, 0, 0] ++ List.replicate 60 0
def kimg : List Byte :=
  [76, 66, 73, 77, 1, 0, 64, 1, 3, 0, 2, 0, 5, 0, 0, 0, 80, 0, 0, 0, 0x40] ++ List.replicate 43 0 ++
    [13, 40, 135, 155, 92, 197, 248, 184, 139, 134, 179, 146, 125, 219, 63, 171, 238, 204, 123, 59, 62, 96, 40, 33, 211, 255, 83, 86, 58, 137, 231, 199] ++
    [124, 152, 75, 54, 13, 140, 153, 230, 134, 23, 179, 109, 7, 230, 251, 60, 30, 126, 162, 254, 171, 247, 20, 18, 89, 44, 19, 28, 95, 149, 156, 149] ++ (img.drop 0x80).take 0xC0 ++ kbody
/-- Engine 3: its parts replaced; in RUNNING; in a run; its page's bit set. -/
def nd (f : Ndl → Ndl) (s : State) : State := s.setEng 3 (f (s.eng 3))
def nr (s : State) : State := (on (.ndl 3) .running s).set (Pg.NDL 3) NDL.RUNSTAT_BUSY 1
/-- Engine 3 under the cover of engine 5 in a live reload. -/
def covered (ph : Fin 8 → ReloadPhase) (s : State) : State :=
  let k : NKernel := ⟨1, 0, [0], [], [], [], 0, 0, 0, 0, 0⟩
  { on (.ndl 5) .running ((s.setEng 5 { s.eng 5 with kernel := some k }).setEng 3 { s.eng 3 with kernel := some k }) with
    reload := ⟨ph 3, false, []⟩ }
/-- Pointer 2 of engine 3 at an address. -/
def pt (a : Nat) (s : State) : State := nd (fun x => { x with p := x.p.set 2 (BitVec.ofNat 24 a) }) s
def ea : NEa := ⟨2, .plain⟩
def custom (s : State) : State := s.set (Pg.NDL 6) NDL.CFG_ROLE 1
def cl (f : Cls → Cls) (s : State) : State := { s with cls := f s.cls }
def gg (f : GaugeSt → GaugeSt) (s : State) : State := s.setGauge .portA (f (s.gaugeOf .portA))
/-- A frame of 60 bytes; one with the IPv4 header of a UDP datagram. -/
def eth : List Byte := List.replicate 12 2 ++ [0x88, 0xB5] ++ List.replicate 46 0
def ip4 : List Byte :=
  List.replicate 12 2 ++ [8, 0, 0x45, 0, 0, 46, 0, 0, 0, 0, 64, 17, 0, 0, 10, 0, 0, 1, 10, 0, 0, 2, 0, 7, 0, 9, 0, 26, 0, 0] ++
    List.replicate 18 0
def fr (ingress : Nat) (b : List Byte) : Pkt := ⟨ingress, b, 0, false, 0, [], 0, none, false, []⟩
def waits (k : Pkt) (s : State) : State := s.setInq k.ingress [k]
/-- A flow table entry, staged. -/
def ent : List Byte := 0x80 :: List.replicate 63 0
def staged (s : State) : State := s.wr (Pg.CLS + (CLS0.FT_ENTRY 0).off) 0x80
def cached (s : State) : State := cl (fun c => { c with cache := [((s.ftCands (entryKey ent)).getD 1 0, ent)] }) s
/-- A frame on its way to a queue, and as it stands in one. -/
def cp (q : Nat) : CPkt := ⟨fr 3 eth, q, none, 1, none, 0, 0, 0⟩
def qf (q : Nat) : QFrame := ⟨cp q, 0, 0, 0, false, none, false⟩
/-- Queue 5 with a frame, enabled up to an egress; and the egress's lane with one. -/
def node (x : Nat) : Node := ⟨2 ^ 31 + x, 0, 0, 0xFFFFFFFF, 0, 0, 0, 0xFFFFFFFF, 0, 1, 0, 0, 0, 0⟩
def queued (e : Nat) (f : QFrame) (s : State) : State :=
  (((((s.setNode (nodeKey Lvl.queue 5) (node 0)).setNode (nodeKey Lvl.group 0) (node 0)).setNode (nodeKey Lvl.tenant 0)
    (node e)).setNode (nodeKey Lvl.cls (e * 16)) (node 0)).setNode (nodeKey Lvl.egress e) (node 0)).setQueue 5 [f]
def laned (e : Nat) (f : QFrame) (s : State) : State := (s.setNode (nodeKey Lvl.egress e) (node 0)).setLane e [f]
def plyUp (s : State) : State := (on .ply .running s).set Pg.PLY PLY.LINK_STATE 4
def siteUp (s : State) : State := (on (.site 1) .running s).set (Pg.SITE 1) SITE.STAT_LINK 1
def pick133 (s : State) : Option (Pick × State) := s.pickNext 133 s.clock.cnt (fun q f => s.egressTakes 133 q f)
def pick130 (s : State) : Option (Pick × State) := s.pickNext 130 s.clock.cnt (fun q f => s.egressTakes 130 q f)
def pk0 (e : Nat) : Pick := ⟨none, e, qf 5, []⟩
def spoiled : QFrame := { qf 5 with c := { cp 5 with pkt := { fr 3 eth with poison := true } } }
def patSel (e : Nat) (s : State) : State := s.set Pg.PATTERN PATTERN.SEL e
/-- Pool 3, enabled, with 16 buffers of which `used` are allocated. -/
def pooled (used : SMap (Option (Nat × Nat))) (s : State) : State :=
  (((s.set Pg.SKEIN (SKEIN.POOL_CTRL_EN 3) 1).set Pg.SKEIN (SKEIN.POOL_COUNT 3) 16).set Pg.SKEIN (SKEIN.POOL_FREE 3)
    (16 - used.length)).setPool 3 ⟨false, false, used, []⟩
/-- Every producer allocates from pool 3. -/
def produce (s : State) : State :=
  (List.range 5).foldl (fun s k => (s.set Pg.SKEIN (SKEIN.PROD_EVEN k) 3).set Pg.SKEIN (SKEIN.PROD_ODD k) 3) s
def scrubOn (pos : Nat) (s : State) : State := (s.set Pg.MEM MEM0.SCRUB_EN 1).set Pg.MEM MEM0.SCRUB_POS pos
/-- PF1 in RUNNING with endpoints 10 to 29 and event queues 10 to 29, and endpoint 15 and event queue 15 in a state. -/
def pf1Up (s : State) : State :=
  ((on .pf1 .running s).setFnHost 1 { s.fnHost 1 with qbase := 10, qcount := 20, win := 0x50000000, msixEn := true, fnMask := false }).setEqRange
    1 ⟨10, 20, 0, false⟩
def ep0 : Ep := { epReset 0 with ctrl := 0xE0000000 }
def e15 (e : Ep) (s : State) : State := (pf1Up s).setEp 15 e
def q15 (e : Eq) (s : State) : State := (pf1Up s).setEq 15 e
def desc (len flags : Byte) : List Byte := List.replicate 8 0 ++ [len, 0, flags, 0] ++ List.replicate 20 0
def send0 : Send := ⟨15, 0, 1, none, none, none, false, false, 60, false, 0⟩
def sel (src : Source) (a : Nat) (k : Nat) (s : State) : State := s.setSrcReg a src (BitVec.ofNat 32 k)
def epSel (s : State) : State := sel .pf1 (Pg.HQ + HQ0.EP_SEL.off) 5 s
def eqSel (src : Source) (k : Nat) (s : State) : State := sel src (Pg.MARK + MARK0.EQ_SEL.off) k s
def stageEp (ws : List Word) (s : State) : State := s.setStaged (Pg.HQ + (HQ0.EP_DATA 0).off) .pf1 ws
def stageEq (src : Source) (ws : List Word) (s : State) : State := s.setStaged (Pg.MARK + (MARK0.EQ_DATA 0).off) src ws
def mk (f : Marker → Marker) (s : State) : State := { s with marker := f s.marker }
/-- The event bit of a source set. -/
def evd (key : Nat) (s : State) : State :=
  (s.set (key / 32 * 0x1000) ⟨HDR.PAGE_EVENT.off, key % 32, 1⟩ 1).set (key / 32 * 0x1000) ⟨HDR.PAGE_EVENT_MASK.off, key % 32, 1⟩ 0
def held (r : MRec) (s : State) : State := evd r.key (mk (fun m => { m with flight := [r] }) s)
/-- A look-aside job: op, key slot 12, 16 bytes of data. -/
def job (op : Byte) : LaJob := ⟨.hook 0, [op, 12, 0, 16, 9, 0, 0, 0, 0, 0, 0, 0, 16, 0, 0, 0] ++ List.replicate 48 0 ++ List.replicate 32 0x80⟩
def ci (f : Ciph → Ciph) (s : State) : State := { s with ciph := f s.ciph }
def laHeld (f : Nat) (s : State) : State := (s.set Pg.CIPH CIPH0.LA_LOCK_HELD 1).set Pg.CIPH CIPH0.LA_LOCK_HOLDER f
def jobs (js : List LaJob) (s : State) : State := ci (fun c => { c with laFw := js, slots := [(12, some (List.replicate 32 1))] }) s
def buf8 : Option (List (Nat × Nat × Nat)) × State := (jobs [job 1] (produce (pooled [] w))).allocFrame 8 16
/-- A frame for site port 1, with its FCS. -/
def siteFr (b : List Byte) : List Byte := b ++ leBytes 4 (Crypto.crc32 b)
def ply (st : Nat) (s : State) : State := (on .ply .running s).set Pg.PLY PLY.LINK_STATE st
def role (r : Nat) (s : State) : State := s.set Pg.PLY PLY.TKO_STAT_ROLE r
/-- A power state; an attempt at one, and the blocks still to ask. -/
def pst (x : Nat) (s : State) : State := s.set Pg.PWR PWR.STATE_CURRENT x
def tries (target : Nat) (ask : List Nat) (s : State) : State :=
  { (s.set Pg.PWR PWR.STATE_BUSY 1).set Pg.PWR PWR.STATE_TARGET target with power := { s.power with ask := ask } }
def pw (f : Power → Power) (s : State) : State := { s with power := f s.power }
def holdBit (f : Fld) (x : Nat) (s : State) : State := s.set Pg.HOLD f x
def watched (s : State) : State :=
  ((s.set Pg.MARK (MARK1.WATCH_EN 3) 1).set Pg.MARK (MARK1.WATCH_PAGE 3) 1).set Pg.MARK (MARK1.WATCH_BIT 3) 9
/-- Engine 3 moves from outside its memory, where a word is poisoned. -/
def moveHit : State :=
  { nd (fun x => { x with moves := [⟨0x100, 0x800000, 1, 0⟩] }) (nr w) with mem := { w.mem with poison := [((nr w).extBase 3 / 8, true)] } }

/-! ### Images that verify

The neutral point verifies the neutral signature of every message, so no scalar multiplication need be evaluated. -/

theorem mul_zero_point (n k : Nat) : Crypto.Pt.mul n k Crypto.Pt.zero = Crypto.Pt.zero := by
  have h : Crypto.Pt.add Crypto.Pt.zero Crypto.Pt.zero = Crypto.Pt.zero := by decide +kernel
  induction n generalizing k with
  | zero => rfl
  | succ n ih => unfold Crypto.Pt.mul; simp only [h, ih, ite_self]

theorem mul_by_zero (n : Nat) (q : Crypto.Pt) : Crypto.Pt.mul n 0 q = Crypto.Pt.zero := by
  induction n generalizing q with
  | zero => rfl
  | succ n ih => unfold Crypto.Pt.mul; simp only [Nat.zero_div, ih]; rfl

theorem neutral_decodes : Crypto.Pt.decode pk = some Crypto.Pt.zero := by decide +kernel

theorem neutral_verifies (msg : List Byte) : Crypto.ed448Verify pk msg (pk ++ List.replicate 57 0) = true := by
  have h2 : (pk ++ List.replicate 57 0).take 57 = pk := by decide +kernel
  have h3 : leNat ((pk ++ List.replicate 57 0).drop 57) = 0 := by decide +kernel
  have h4 : (pk ++ List.replicate 57 0).length = 114 := by decide +kernel
  have h5 : Crypto.Pt.add Crypto.Pt.zero Crypto.Pt.zero = Crypto.Pt.zero := by decide +kernel
  have h6 : decide (0 < Crypto.l448) = true := by decide +kernel
  have h7 : Crypto.Pt.same Crypto.Pt.zero Crypto.Pt.zero = true := by decide +kernel
  unfold Crypto.ed448Verify
  rw [h2, neutral_decodes]
  simp only [h3, h4, h6, mul_by_zero, mul_zero_point, h5, h7, decide_true, Bool.and_true]

theorem key_matches : (keyed w).keyMatches 0 pk = true := by decide +kernel

theorem slot_usable : (keyed w).keySlotUsable 0 = true := by decide +kernel

theorem find_above (m : SMap Bool) (b k : Nat) (h : m.all (fun kv => decide (kv.1 < b)) = true) (hk : b ≤ k) :
    SMap.find m k = none := by
  induction m with
  | nil => rfl
  | cons kv m ih =>
    simp only [List.all_cons, Bool.and_eq_true, decide_eq_true_eq] at h
    have hne : ¬ k = kv.1 := by omega
    simp only [SMap.find, if_neg hne]
    exact ih h.2

theorem no_rollback (k : Nat) : (keyed w).rollbackCount k = 0 := by
  have hall : (keyed w).fuses.bits.all (fun kv => decide (kv.1 < 4416)) = true := by decide +kernel
  have hf : ∀ n, 4416 ≤ n → SMap.get (fun _ => false) (keyed w).fuses.bits n = false := by
    intro n hn
    unfold SMap.get
    rw [find_above _ _ _ hall hn]; rfl
  unfold State.rollbackCount
  have : (List.range 128).filter (fun i => SMap.get (fun _ => false) (keyed w).fuses.bits (4416 + 128 * k + i)) = [] := by
    apply List.filter_eq_nil_iff.mpr
    intro i _
    rw [hf _ (by omega)]; exact Bool.false_ne_true
  rw [this]; rfl

/-- A header passes when each of its checks does (R68). -/
theorem header_ok {s : State} {type slot : Nat} {h key sig : List Byte}
    (h1 : ¬ (h.length < 0x140 ∨ (h.take 4) ≠ [0x4C, 0x42, 0x49, 0x4D] ∨ hdrField h 4 2 ≠ 1 ∨ hdrField h 6 2 ≠ 0x140
      ∨ hdrType h ≠ type ∨ type = 0 ∨ 4 < type))
    (h3 : hdrSlot h = slot) (h2 : s.keySlotUsable slot = true) (hs : slot < 4) (hu : s.fuses.userKernels = true)
    (h4 : (h.drop 0x80).take 57 = key) (h5 : (h.drop 0xC0).take 114 = sig)
    (hk : s.keyMatches slot key = true) (hv : ∀ msg, Crypto.ed448Verify key msg sig = true)
    (h6 : s.rollbackCount (type - 1) = 0) : s.headerCheck type h = none := by
  unfold State.headerCheck
  rw [if_neg h1, h3, h4, h5, hk, hv, h6, h2, hu, if_neg (by simp; omega), if_neg (by decide), if_neg (by decide),
    if_neg (Nat.not_lt_zero _)]

theorem image_ok {s : State} {type : Nat} {image : List Byte} (h : s.headerCheck type (image.take 0x140) = none)
    (hb : bodyCheck (image.take 0x140) ((image.drop 0x140).take (hdrBodyLength image)) = none) :
    s.imageCheck type image = none := by
  unfold State.imageCheck; rw [h]; exact hb

theorem user_kernels : (keyed w).fuses.userKernels = true := by decide +kernel

theorem img_head : (keyed w).headerCheck 1 (img.take 0x140) = none :=
  header_ok (by decide +kernel) (by decide +kernel) slot_usable (by decide) user_kernels (by decide +kernel)
    (by decide +kernel) key_matches neutral_verifies (no_rollback 0)

theorem kimg_head : (keyed w).headerCheck 3 (kimg.take 0x140) = none :=
  header_ok (by decide +kernel) (by decide +kernel) slot_usable (by decide) user_kernels (by decide +kernel)
    (by decide +kernel) key_matches neutral_verifies (no_rollback 2)

theorem img_body : bodyCheck (img.take 0x140) ((img.drop 0x140).take (hdrBodyLength img)) = none := by decide +kernel

theorem kimg_body : bodyCheck (kimg.take 0x140) ((kimg.drop 0x140).take (hdrBodyLength kimg)) = none := by decide +kernel

/-- The image verifies under the fuses that hold its key (R68). -/
theorem test_image_verifies : (keyed w).imageCheck 1 img = none := image_ok img_head img_body

/-- The kernel image verifies under the same fuses (R190). -/
theorem test_kernel_verifies : (keyed w).imageCheck 3 kimg = none := image_ok kimg_head kimg_body

theorem follow_ok {s : State} {off : Nat} (type : Nat) (h : s.flashMagic off = false) : s.followCheck type off = none := by
  unfold State.followCheck; rw [h]; rfl

theorem bank_ok {s : State} {b : Bank} (h2 : s.flashMagic (s.bankSecond b) = false) (h3 : s.flashMagic (s.bankThird b) = false)
    (h : s.imageCheck 1 (s.flashImage (bankBase b)) = none) : s.bankCheck b = none := by
  unfold State.bankCheck; rw [h, follow_ok 2 h2, follow_ok 4 h3]

theorem inBank_fuses (b : Bank) (s : State) : (inBank b s).fuses = s.fuses := rfl

theorem bank_verifies : (inBank w.bootedBank.other (keyed w)).bankCheck w.bootedBank.other = none := by
  have h : (inBank w.bootedBank.other (keyed w)).flashImage (bankBase w.bootedBank.other) = img := by decide +kernel
  have h2 : (inBank w.bootedBank.other (keyed w)).flashMagic
      ((inBank w.bootedBank.other (keyed w)).bankSecond w.bootedBank.other) = false := by decide +kernel
  have h3 : (inBank w.bootedBank.other (keyed w)).flashMagic
      ((inBank w.bootedBank.other (keyed w)).bankThird w.bootedBank.other) = false := by decide +kernel
  exact bank_ok h2 h3 (h ▸ (imageCheck_of_fuses (inBank_fuses _ _) 1 img).trans test_image_verifies)

theorem job_key : (jobs [job 1] (produce (pooled [] w))).deriveKey (job 1).slot (job 1).label =
    some (Crypto.shake256 32 (List.replicate 32 1 ++ List.replicate 32 0x80 ++ [0x00, 0x20])) := by
  have h : (jobs [job 1] (produce (pooled [] w))).rootSlot (job 1).slot = some (List.replicate 32 1) := by decide +kernel
  have l : (job 1).label = List.replicate 32 0x80 := by decide +kernel
  unfold State.deriveKey
  rw [if_neg (by decide +kernel), h, l]
  rfl

/-! ### Well-formed commands, and terms that are none -/

/-- Command registers: one term for each check that fails it, and one that passes. -/
theorem test_registerCommands_illFormed :
    ([.msecRead .pf0 2, .msecWrite .pf0 1, .laLockAcquire .pf0 2, .laLockRelease .pf0 1, .ftInsert .pf0 2, .ftDelete .pf0 1,
      .ftModify .pf0 1, .ftQuery .pf0 1, .ftRead .pf0 1, .ruleWrite .pf0 0x20000, .ruleRead .pf0 0x10000,
      .ruleInvalidate .pf0 0x10000, .hushRequest .pf0 0, .hushRelease .pf0 1, .epRead .pf0 2, .epWrite .pf0 1,
      .eqRead .pf0 2, .eqWrite .pf0 1, .grpRead .pf0 2, .grpWrite .pf0 1, .remap .pf0 0x80000000,
      .darnQuery .pf0 0x40000000, .txmonArm .pf0 .portA 4, .txmonCancel .pf0 .portA 1, .nodeRead .pf0 2, .nodeWrite .pf0 1,
      .polRead .pf0 2, .polWrite .pf0 1, .patternCommit .pf0 2, .patternAbort .pf0 1, .poolEnable .pf0 3 0,
      .poolDisable .pf0 3 0x80000000, .allocInvalidate .pf0 .portA 3 0x80000000] : List Instr).all
      (fun c => !c.wellFormed) = true := by decide

theorem test_registerCommands_wellFormed :
    ([.msecRead .pf0 1, .msecWrite .pf0 2, .laLockAcquire .pf0 1, .laLockRelease .pf0 2, .ftInsert .pf0 1, .ftDelete .pf0 2,
      .ftModify .pf0 3, .ftQuery .pf0 4, .ftRead .pf0 5, .ruleWrite .pf0 0x10000, .ruleRead .pf0 0x20000,
      .ruleInvalidate .pf0 0x30000, .hushRequest .pf0 1, .hushRelease .pf0 0, .epRead .pf0 1, .epWrite .pf0 2,
      .eqRead .pf0 1, .eqWrite .pf0 2, .grpRead .pf0 1, .grpWrite .pf0 2, .remap .pf0 0x40000000,
      .darnQuery .pf0 0x80000000, .txmonArm .pf0 .portA 1, .txmonCancel .pf0 .portA 4, .nodeRead .pf0 1, .nodeWrite .pf0 2,
      .polRead .pf0 1, .polWrite .pf0 2, .patternCommit .pf0 1, .patternAbort .pf0 2, .poolEnable .pf0 3 0x80000000,
      .poolDisable .pf0 3 0, .allocInvalidate .pf0 .portA 3 0] : List Instr).all (fun c => c.wellFormed) = true := by decide

/-- Messages of another TYPE or length. -/
theorem test_messages_illFormed :
    ([.treeParams .portA (smsg 2), .assignAddr .portA (smsg 1), .rangingResult .portA (smsg 1), .proveChallenge .portA (smsg 1),
      .proveResult .portA (smsg 1), .profileAssign .portA (smsg 1), .allocAssign .portA (smsg 1), .keyUse .portA (smsg 1),
      .msgMute .portA (smsg 1), .msgUnmute .portA (smsg 1), .deregister .portA (smsg 1), .msgDoze .portA (smsg 1),
      .msgAck .portA (smsg 1), .treeParams .portA [1], .dsProfileDesc .portA (tl 0x41 1 []), .usProfileDesc .portA (tl 0x40 1 []),
      .distortionReport .portA (tl 0x40 1 []), .keyOffer .portA [0x43, 1, 0, 1], .timeRef .portA []] : List Instr).all
      (fun c => !c.wellFormed) = true := by decide +kernel

theorem test_messages_wellFormed :
    ([.treeParams .portA (smsg 1), .assignAddr .portA (smsg 2), .rangingResult .portA (smsg 3), .proveChallenge .portA (smsg 4),
      .proveResult .portA (smsg 5), .profileAssign .portA (smsg 6), .allocAssign .portA (smsg 7), .keyUse .portA (smsg 8),
      .msgMute .portA (smsg 9), .msgUnmute .portA (smsg 10), .deregister .portA (smsg 11), .msgDoze .portA (smsg 12),
      .msgAck .portA (smsg 13), .dsProfileDesc .portA (tl 0x40 1 []), .usProfileDesc .portA (tl 0x41 1 []),
      .distortionReport .portA (tl 0x42 1 []), .keyOffer .portA [0x43, 1, 0, 1, 9], .timeRef .portA tref] : List Instr).all
      (fun c => c.wellFormed) = true := by decide +kernel

/-- Requests, events and accesses whose operands no command has. -/
theorem test_events_illFormed :
    ([.flr 0, .gaugeFitDone .portA [1], .linkTrainingComplete 26 16, .linkTrainingComplete 50 3,
      .bar4Access 2 0x1000000 8 none, .bar4Access 0 0 0 none, .bar4Access 0 0 1 (some (List.replicate 65 0)),
      .unknownCmd .ch0 1 0x10, .plyConfig .ch0 1 [0x10], .plyTake .ch0 1 [0],
      .plyYield .ch0 1 [0x10], .monRailSample [1]] : List Instr).all (fun c => !c.wellFormed) = true := by decide +kernel

theorem test_events_wellFormed :
    ([.flr 1, .gaugeFitDone .portA [1, 0, 0, 0, 0], .linkTrainingComplete 50 16, .bar4Access 2 0xFFFFF8 8 none,
      .bar4Access 0 0 1 (some (List.replicate 64 0)), .unknownCmd .ch0 1 0x16, .plyConfig .ch0 1 [0], .plyTake .ch0 1 [0x10],
      .plyYield .ch0 1 [0x20], .monRailSample (List.replicate 12 1)] : List Instr).all (fun c => c.wellFormed) = true := by
  decide +kernel

/-- A term that is no command has the effect of what it carries (log entry 4): an FLR of function 0 is the FLR of PF0. -/
theorem test_illFormed_acts : exec (.flr 0) w = exec .pf0Flr w ∧
    step { w with pending := [.flr 0] } = exec .pf0Flr { w with pending := [] } := ⟨rfl, rfl⟩

/-! ### The hypotheses of the statements -/

/-- The hypotheses of `Obligations.RejectedAccessesAreRecorded` can be met, clause by clause. -/
theorem witness_RejectedAccessesAreRecorded :
    (∃ (src : Source) (addr : BitVec 24) (val : Word) (page : Nat) (r : Reason) (s : State),
    s.access src addr.toNat true = .rejected page r) ∧
    (∃ (src : Source) (addr : BitVec 24) (page : Nat) (r : Reason) (s : State),
    s.access src addr.toNat false = .rejected page r) ∧
    (∃ (src : Source) (addr : BitVec 24) (write : Bool) (s : State),
    (src.target addr.toNat).bind blockOf = none) ∧
    (∃ (src : Source) (addr : BitVec 24) (write : Bool) (b : Block) (s : State),
    (src.target addr.toNat).bind blockOf = some b ∧ s.domIsOff b.dom = true) ∧
    (∃ (src : Source) (addr : BitVec 24) (bytes : Nat) (write : Bool) (a : Nat) (b : Block) (s : State),
    ((bytes ≠ 4 ∨ addr.toNat % 4 ≠ 0)) ∧ src.target (addr.toNat - addr.toNat % 4) = some a ∧ blockOf a = some b ∧ s.domIsOff b.dom = false ∧ mapped a = true) := by
  refine ⟨⟨.vf 3, 0x044000, 5, Pg.DEV, .unmapped, w, by decide +kernel⟩,
    ⟨.pf1, 0x094080, Pg.DEV, .poweredOff, { w with domOff := [.mem] }, by decide +kernel⟩,
    ⟨.pf0, 0xFF0004, true, w, by decide +kernel⟩,
    ⟨.pf0, 0x094080, false, bl 0x94080, { w with domOff := [.mem] }, by decide +kernel⟩,
    ⟨.pf0, 0x005041, 4, true, 0x5040, bl 0x5040, w, by decide +kernel⟩⟩

/-- The hypotheses of `Obligations.DataFunctionsReachOnlyTheirPages` can be met, clause by clause. -/
theorem witness_DataFunctionsReachOnlyTheirPages :
    (∃ (src : Source) (addr : Nat) (write : Bool) (a : Nat) (s : State),
    ((src = .pf1 ∨ ∃ n, src = .vf n)) ∧ s.access src addr write = .ok a) := by
  exact ⟨.pf1, Pg.TSQ + 0x40, false, Pg.TSQ + 0x40, w, by exact ⟨by decide +kernel, rfl⟩⟩

/-- The hypotheses of `Obligations.RegisterWriteFollowsAccessCodes` can be met, clause by clause. -/
theorem witness_RegisterWriteFollowsAccessCodes :
    (∃ (src : Source) (addr : BitVec 24) (val : Word) (a : Nat) (b : Block) (row : RegRow) (s : State),
    s.access src addr.toNat true = .ok a ∧ blockOf a = some b ∧ rowOf a = some row ∧ 0x40 ≤ a % 0x1000 ∧ (pageHasSnap a && decide (0x800 ≤ a % 0x1000)) = false ∧ b.type ∈ [0x02, 0x03, 0x05, 0x11, 0x39, 0x50] ∧ s.offOnlyStops a = false ∧ row.pairLo = false ∧ isHi a = false) := by
  exact ⟨.pf0, 0x005044, 0x12345678, 0x5044, bl 0x5044, row 0x5044, w, by exact ⟨rfl, by decide +kernel, by decide +kernel, by decide +kernel, by decide +kernel, by decide +kernel, by decide +kernel, by decide +kernel, by decide +kernel⟩⟩

/-- The hypotheses of `Obligations.OffOnlyWritesAreRejected` can be met, clause by clause. -/
theorem witness_OffOnlyWritesAreRejected :
    (∃ (src : Source) (addr : BitVec 24) (val : Word) (a : Nat) (b : Block) (row : RegRow) (s : State),
    s.access src addr.toNat true = .ok a ∧ blockOf a = some b ∧ rowOf a = some row ∧ 0x40 ≤ a % 0x1000 ∧ (pageHasSnap a && decide (0x800 ≤ a % 0x1000)) = false ∧ b.type ∈ [0x12, 0x28, 0x50, 0x58] ∧ s.offOnlyStops a = true) := by
  exact ⟨.pf0, 0x0C0040, 1, 0xC0040, bl 0xC0040, row 0xC0040, on (.site 0) .running w, by exact ⟨rfl, by decide +kernel, by decide +kernel, by decide +kernel, by decide +kernel, by decide +kernel, by decide +kernel⟩⟩

/-- The hypotheses of `Obligations.ReadsLatchAndClear` can be met, clause by clause. -/
theorem witness_ReadsLatchAndClear :
    (∃ (src : Source) (addr : BitVec 24) (a : Nat) (b : Block) (row : RegRow) (s : State),
    s.access src addr.toNat false = .ok a ∧ blockOf a = some b ∧ b.type ∉ [0x10, 0x11, 0x20, 0x30, 0x38, 0x48] ∧ rowOf a = some row ∧ row.pairLo = true) ∧
    (∃ (src : Source) (addr : BitVec 24) (a : Nat) (b : Block) (row : RegRow) (hi : Word) (s : State),
    s.access src addr.toNat false = .ok a ∧ blockOf a = some b ∧ b.type ∉ [0x10, 0x11, 0x20, 0x30, 0x38, 0x48] ∧ rowOf a = some row ∧ row.pairLo = false ∧ 4 ≤ a % 0x1000 ∧ SMap.get latchReset s.latches (latchKey a src) = ⟨some (a % 0x1000 - 4), hi⟩) ∧
    (∃ (src : Source) (addr : BitVec 24) (a : Nat) (b : Block) (row : RegRow) (s : State),
    s.access src addr.toNat false = .ok a ∧ blockOf a = some b ∧ b.type ∉ [0x10, 0x11, 0x20, 0x30, 0x38, 0x48] ∧ rowOf a = some row ∧ row.pairLo = false ∧ isHi a = false ∧ (SMap.get latchReset s.latches (latchKey a src)).lo ≠ some (a % 0x1000 - 4) ∧ row.rc ≠ 0) := by
  refine ⟨⟨.pf0, 0x0C0200, 0xC0200, bl 0xC0200, row 0xC0200, (w.wr 0xC0200 5).wr 0xC0204 6, by exact ⟨rfl, by decide +kernel, by decide +kernel, by decide +kernel, by decide +kernel⟩⟩,
    ⟨.pf0, 0x0C0204, 0xC0204, bl 0xC0204, row 0xC0204, 6, { w with latches := [(latchKey 0xC0204 .pf0, ⟨some 0x200, 6⟩)] }, by exact ⟨rfl, by decide +kernel, by decide +kernel, by decide +kernel, by decide +kernel, by decide +kernel, by decide +kernel⟩⟩,
    ⟨.pf0, 0x0C0238, 0xC0238, bl 0xC0238, row 0xC0238, w.wr 0xC0238 9, by exact ⟨rfl, by decide +kernel, by decide +kernel, by decide +kernel, by decide +kernel, by decide +kernel, by decide +kernel, by decide +kernel⟩⟩⟩

/-- The hypotheses of `Obligations.PairsAreStagedAndCommitted` can be met, clause by clause. -/
theorem witness_PairsAreStagedAndCommitted :
    (∃ (src : Source) (addr : BitVec 24) (val : Word) (a : Nat) (b : Block) (row : RegRow) (s : State),
    s.access src addr.toNat true = .ok a ∧ blockOf a = some b ∧ rowOf a = some row ∧ 0x40 ≤ a % 0x1000 ∧ (pageHasSnap a && decide (0x800 ≤ a % 0x1000)) = false ∧ s.writeStop src b a val = none ∧ row.pairLo = true) ∧
    (∃ (src : Source) (addr : BitVec 24) (val : Word) (a : Nat) (b : Block) (lo row : RegRow) (s : State),
    s.access src addr.toNat true = .ok a ∧ blockOf a = some b ∧ rowOf a = some row ∧ rowOf (a - 4) = some lo ∧ 0x44 ≤ a % 0x1000 ∧ (pageHasSnap a && decide (0x800 ≤ a % 0x1000)) = false ∧ b.type ∈ [0x28, 0x30, 0x33, 0x50] ∧ s.writeStop src b a val = none ∧ lo.pairLo = true ∧ row.pairLo = false ∧ perSource a = false) := by
  refine ⟨⟨.pf0, 0x0C0080, 5, 0xC0080, bl 0xC0080, row 0xC0080, w, by exact ⟨rfl, by decide +kernel, by decide +kernel, by decide +kernel, by decide +kernel, by decide +kernel, by decide +kernel⟩⟩,
    ⟨.pf0, 0x0C0084, 0x80000001, 0xC0084, bl 0xC0084, row 0xC0080, row 0xC0084, w, by exact ⟨rfl, by decide +kernel, by decide +kernel, by decide +kernel, by decide +kernel, by decide +kernel, by decide +kernel, by decide +kernel, by decide +kernel, by decide +kernel, by decide +kernel⟩⟩⟩

/-- The hypotheses of `Obligations.FunctionControlCommands` can be met, clause by clause. -/
theorem witness_FunctionControlCommands :
    (∃ (src : Source) (f : Fn) (s : State),
    Granted src (fnCtrl f) true s ∧ ((ctrlOf src f = .ply → s.feat 6 = true)) ∧ ((∀ n, ctrlOf src f = .site n → s.feat 7 = true)) ∧ s.fnIs (ctrlOf src f) .off = true) ∧
    (∃ (src : Source) (f : Fn) (s : State),
    Granted src (fnCtrl f) true s ∧ ((ctrlOf src f = .ply → s.feat 6 = true)) ∧ ((∀ n, ctrlOf src f = .site n → s.feat 7 = true)) ∧ s.fnIs (ctrlOf src f) .bindingOff = true) ∧
    (∃ (src : Source) (f : Fn) (s : State),
    Granted src (fnCtrl f) true s) ∧
    (∃ (src : Source) (f : Fn) (s : State),
    Granted src (fnCtrl f) true s ∧ s.fnIs (ctrlOf src f) .off = false) := by
  refine ⟨⟨.pf0, .site 3, w, by unfold Granted; decide +kernel⟩,
    ⟨.hook 0, .ndl 0, on (.ndl 0) .bindingOff w, by unfold Granted; decide +kernel⟩,
    ⟨.pf0, .line .portB, on (.line .portB) .running w, by unfold Granted; decide +kernel⟩,
    ⟨.pf0, .ply, on .ply .fault w, by unfold Granted; decide +kernel⟩⟩

/-- The hypotheses of `Obligations.BlockResetResetsTheFunctionsPages` can be met, clause by clause. -/
theorem witness_BlockResetResetsTheFunctionsPages :
    (∃ (src : Source) (f : Fn) (s : State),
    Granted src (fnCtrl f) true s ∧ s.fnIs (ctrlOf src f) .off = true) ∧
    (∃ (src : Source) (f : Fn) (s : State),
    Granted src (fnCtrl f) true s ∧ s.fnIs (ctrlOf src f) .fault = true) ∧
    (∃ (src : Source) (f : Fn) (s : State),
    Granted src (fnCtrl f) true s ∧ ((s.fnIs (ctrlOf src f) .castingOn = true ∨ s.fnIs (ctrlOf src f) .running = true ∨
      s.fnIs (ctrlOf src f) .bindingOff = true))) := by
  refine ⟨⟨.pf0, .site 0, w, by unfold Granted; decide +kernel⟩,
    ⟨.pf0, .ply, on .ply .fault w, by unfold Granted; decide +kernel⟩,
    ⟨.hook 0, .ndl 7, on (.ndl 7) .bindingOff w, by unfold Granted; decide +kernel⟩⟩

/-- The hypotheses of `Obligations.FunctionReports` can be met, clause by clause. -/
theorem witness_FunctionReports :
    (∃ (f : Fn) (s : State),
    s.fnIs f .castingOn = true ∧ s.castReady f = true ∧ s.castRefusal f = none) ∧
    (∃ (f : Fn) (code : Byte) (s : State),
    s.fnIs f .castingOn = true ∧ ((s.fwIsReady = true ∨ code ≠ 1))) ∧
    (∃ (f : Fn) (code : Byte) (s : State),
    s.fnIs f .off = false ∧ s.fnIs f .fault = false) ∧
    (∃ (f : Fn) (s : State),
    s.fnIs f .bindingOff = true ∧ s.bindIdle f = true) ∧
    (∃ (func : Fin 254) (f : Fn) (s : State),
    Fn.ofFunc func.val = some f ∧ s.fnIs f .running = true) ∧
    (∃ (func : Fin 254) (f : Fn) (s : State),
    Fn.ofFunc func.val = some f) := by
  refine ⟨⟨.pf1, on .pf1 .castingOn w, by decide +kernel⟩,
    ⟨.ndl 0, 0x82, on (.ndl 0) .castingOn w, by decide +kernel⟩,
    ⟨.site 2, 0x90, on (.site 2) .running w, by decide +kernel⟩,
    ⟨.vf 251, w.setFnRec (.vf 251) ⟨.bindingOff, true, 0⟩, by decide +kernel⟩,
    ⟨1, .pf1, on .pf1 .running w, by decide +kernel⟩,
    ⟨253, .vf 251, w, by decide +kernel⟩⟩

/-- The hypotheses of `Obligations.RowSnapshot` can be met, clause by clause. -/
theorem witness_SnapshotCommands :
    (∃ (src : Source) (mode cancel : Bool) (s : State),
    Granted src (Pg.SNAP + SNAP.CTRL.off) true s ∧ s.feat 16 = true ∧ ((s.snap.pending = false ∨ cancel = true))) ∧
    (∃ (src : Source) (mode cancel : Bool) (s : State),
    Granted src (Pg.SNAP + SNAP.CTRL.off) true s ∧ s.feat 16 = true ∧ ((s.snap.pending = false ∨ cancel = true))) ∧
    (∃ (src : Source) (s : State),
    Granted src (Pg.SNAP + SNAP.CTRL.off) true s) ∧
    (∃ (src : Source) (hi : Word) (s : State),
    Granted src (Pg.SNAP + SNAP.AT_SEC_HI.off) true s ∧ s.get Pg.SNAP SNAP.AT_NS ≤ 999999999) ∧
    (∃ (s : State),
    s.snap.pending = true ∧ snapSlots.all (fun n => s.snap.captured.contains n) = true) := by
  refine ⟨⟨.pf0, true, false, w, by unfold Granted; decide +kernel⟩,
    ⟨.pf0, false, true, w, by unfold Granted; decide +kernel⟩,
    ⟨.pf0, { w with snap := { w.snap with pending := true, periodNs := 9 } }, by unfold Granted; decide +kernel⟩,
    ⟨.pf0, 0, w, by unfold Granted; decide +kernel⟩,
    ⟨{ w with snap := { w.snap with pending := true, captured := snapSlots } }, by decide +kernel⟩⟩

/-- The hypotheses of `Obligations.RowSnapshot` can be met, clause by clause. -/
theorem witness_SnapCaptureCopiesEveryCounter :
    (∃ (slot : BitVec 12) (b : Block) (s : State),
    s.snap.pending = true ∧ slot.toNat ∈ snapSlots ∧ slot.toNat ∉ s.snap.captured ∧ s.snap.atNs ≤ s.nowNs ∧ blockOf (slot.toNat * 0x1000) = some b ∧ s.domIsOff b.dom = false ∧ Registers.wf s = true) := by
  exact ⟨0xC0, bl 0xC0000, { w with snap := { w.snap with pending := true } }, by decide +kernel⟩

/-- The hypotheses of `Obligations.TimeCounterCommands` can be met, clause by clause. -/
theorem witness_TimeCounterCommands :
    (∃ (src : Source) (hi : Word) (s : State),
    Granted src (Pg.TIME + TIME0.INC_HI.off) true s) ∧
    (∃ (src : Source) (hi : Word) (s : State),
    Granted src (Pg.TIME + TIME0.STEP_SEC_HI.off) true s ∧ s.bit Pg.TIME TIME0.STAT_STEP_PEND = false ∧ s.get Pg.TIME TIME0.STEP_NS ≤ 999999999) ∧
    (∃ (src : Source) (disarm : Bool) (s : State),
    src = .pf0 ∧ Granted src (Pg.TIME + TIME0.CTRL.off) true s) ∧
    (∃ (src : Source) (s : State),
    Granted src (Pg.TIME + TIME0.CTRL.off) true s) ∧
    (∃ (s : State),
    s.running Tm.jumpArm = true) ∧
    (∃ (src : Source) (s : State),
    Granted src (Pg.TIME + TIME0.NOW_FRAC.off) false s) ∧
    (∃ (src : Source) (err : Word) (s : State),
    Granted src (Pg.TIME + TIME0.TENSION_ERR.off) true s ∧ s.get Pg.TIME TIME0.STAT_MODE = modeTension) := by
  refine ⟨⟨.pf0, 0x12, w.set Pg.TIME TIME0.STAT_MODE modeHost, by unfold Granted; decide +kernel⟩,
    ⟨.pf0, 0x80000012, w.set Pg.TIME TIME0.STAT_MODE modeHost, by unfold Granted; decide +kernel⟩,
    ⟨.pf0, false, w, by unfold Granted; decide +kernel⟩,
    ⟨.pf0, tm Tm.jumpArm w, by unfold Granted; decide +kernel⟩,
    ⟨tm Tm.jumpArm (w.set Pg.TIME TIME0.STAT_JUMP_ARMED 1), by decide +kernel⟩,
    ⟨.pf0, w, by unfold Granted; decide +kernel⟩,
    ⟨.hook 0, 0xFFFFFFF0, w.set Pg.TIME TIME0.STAT_MODE modeTension, by unfold Granted; decide +kernel⟩⟩

/-- The hypotheses of `Obligations.AlignmentInstantAppliesIncrementAndStep` can be met, clause by clause. -/
theorem witness_AlignmentInstantAppliesIncrementAndStep :
    (∃ (s : State),
    s.power.ready = true) := by
  exact ⟨w, by decide +kernel⟩

/-- The hypotheses of `Obligations.TimeStateCommands` can be met, clause by clause. -/
theorem witness_TimeStateCommands :
    (∃ (p : Port) (msg : List Byte) (s : State),
    msg.length = 48 ∧ msgField msg 0 1 = 1 ∧ ((timeMsgCrcOk msg = false ∨
      ((s.tport p).stamps.find? (fun x => decide (x.1 = msgField msg 4 8 % 2 ^ 51))).bind (fun x => x.2) = none))) ∧
    (∃ (p : Port) (msg : List Byte) (tArr : Nat) (s : State),
    msg.length = 48 ∧ msgField msg 0 1 = 1 ∧ timeMsgCrcOk msg = true ∧ ((s.tport p).stamps.find? (fun x => decide (x.1 = msgField msg 4 8 % 2 ^ 51))).bind (fun x => x.2) = some tArr ∧ (s.tport p).rtd = none) ∧
    (∃ (p : Port) (msg : List Byte) (tArr : Nat) (rtd : Int) (s : State),
    msg.length = 48 ∧ msgField msg 0 1 = 1 ∧ timeMsgCrcOk msg = true ∧ ((s.tport p).stamps.find? (fun x => decide (x.1 = msgField msg 4 8 % 2 ^ 51))).bind (fun x => x.2) = some tArr ∧ (s.tport p).rtd = some rtd ∧ (s.asymSource p).1 ≠ 0) ∧
    (∃ (p : Port) (s : State),
    s.running (Tm.refAge p) = true) ∧
    (∃ (s : State),
    s.running Tm.prefer = true ∧ s.inTime s.servo.cfg.prefer = true ∧ s.servo.cfg.revert = true ∧ s.servo.revertWait = true) ∧
    (∃ (s : State),
    s.running Tm.lockQualify = true ∧ s.tstate = stAcquiring) ∧
    (∃ (s : State),
    s.running Tm.noSelection = true ∧ ((s.tstate = stAcquiring ∨ s.tstate = stLocked))) ∧
    (∃ (s : State),
    s.running Tm.holdover = true ∧ s.tstate = stHoldover) ∧
    (∃ (ch : Chan) (tag : Byte) (args : List Word) (s : State),
    MbxOpen ch s) ∧
    (∃ (ch : Chan) (tag : Byte) (args : List Word) (s : State),
    MbxOpen ch s) := by
  refine ⟨⟨.portA, List.replicate 48 0 |>.set 0 1, w, by decide +kernel⟩,
    ⟨.portA, tref, 5000000, stamped none, by decide +kernel⟩,
    ⟨.portA, tref, 5000000, 300, (stamped (some 300)).set Pg.TIME (TIME0.PORT_CTRL_ASYM_VALID 0) 1, by decide +kernel⟩,
    ⟨.portA, tm (Tm.refAge .portA) w, by decide +kernel⟩,
    ⟨tm Tm.prefer (tm (Tm.refAge .portA) ((((({ w with servo := { w.servo with revertWait := true, cfg := { w.servo.cfg with revert := true, requireTraceable := false } } }).setTport .portA ⟨[], some 5, 0, none, 0, none⟩).set Pg.TIME (TIME0.PORT_CTRL_ASYM_VALID 0) 1) |> st RegSt.work).set Pg.TIME TIME0.STAT_MODE modeFree)), by decide +kernel⟩,
    ⟨tm Tm.lockQualify (w.set Pg.TIME TIME0.STAT_STATE stAcquiring), by decide +kernel⟩,
    ⟨tm Tm.noSelection (w.set Pg.TIME TIME0.STAT_STATE stLocked), by decide +kernel⟩,
    ⟨tm Tm.holdover (w.set Pg.TIME TIME0.STAT_STATE stHoldover), by decide +kernel⟩,
    ⟨.ch0, 7, [0, 1, 0x10, 5], w, by unfold MbxOpen Granted; decide +kernel⟩,
    ⟨.ch0, 7, [], w, by unfold MbxOpen Granted; decide +kernel⟩⟩

/-- The hypotheses of `Obligations.TimingPinsPtmAndStamps` can be met, clause by clause. -/
theorem witness_TimingPinCommands :
    (∃ (n : Fin 2) (second : Nat) (s : State),
    SMap.get (fun _ => none) s.servo.ppsDue n.val = some second ∧ s.tkoHolds n.val = false ∧ s.bit Pg.TIME (TIME1.PPS_OUT_CTRL_EN n.val) = true ∧ s.gateOpen (s.bit Pg.TIME (TIME1.PPS_OUT_CTRL_GATE n.val)) = true) ∧
    (∃ (n : Fin 2) (s : State),
    s.running (Tm.ppsWidth n.val) = true) ∧
    (∃ (second st : Nat) (s : State),
    s.running Tm.tod = true ∧ s.servo.ppsOut0 = some (second, st) ∧ s.tkoHolds 3 = false ∧ s.bit Pg.TIME TIME1.TOD_CTRL_TX_EN = true ∧ s.bit Pg.TIME TIME1.TOD_CTRL_TX_GATE = false) ∧
    (∃ (n : Fin 2) (rising : Bool) (phase : Fin 32) (s : State),
    s.bit Pg.TIME (TIME1.PPS_IN_CTRL_EN n.val) = true ∧ rising ≠ s.bit Pg.TIME (TIME1.PPS_IN_CTRL_EDGE n.val)) ∧
    (∃ (chars : List Byte) (s : State),
    s.bit Pg.TIME TIME1.TOD_CTRL_RX_EN = true ∧ (todParse chars).2 = false) ∧
    (∃ (pin : Fin 8) (rising : Bool) (phase : Fin 32) (s : State),
    s.feat 19 = true ∧ s.get Pg.TIME (TIME1.EVT_CTRL_MODE pin.val) = 1 ∧ rising ≠ s.bit Pg.TIME (TIME1.EVT_CTRL_EDGE pin.val)) ∧
    (∃ (src : Source) (pin : Fin 8) (st : Nat) (q : List Nat) (s : State),
    Granted src (Pg.TIME + (TIME1.EVT_FRAC pin.val).off) false s ∧ s.get Pg.TIME (TIME1.EVT_CTRL_MODE pin.val) = 1 ∧ s.evtStamps pin.val = st :: q) ∧
    (∃ (src : Source) (pin : Fin 8) (hi : Word) (s : State),
    Granted src (Pg.TIME + (TIME1.EVT_SEC_HI pin.val).off) true s ∧ s.feat 19 = true ∧ ((s.get Pg.TIME (TIME1.EVT_CTRL_MODE pin.val) = 2 ∨ s.get Pg.TIME (TIME1.EVT_CTRL_MODE pin.val) = 3))) ∧
    (∃ (pin : Fin 8) (first base at_ : Nat) (s : State),
    SMap.get (fun _ => none) s.servo.evtArm pin.val = some (first, base) ∧ SMap.get (fun _ => none) s.servo.evtDue pin.val = some at_ ∧ s.feat 19 = true ∧ s.tkoHolds (4 + pin.val) = false) ∧
    (∃ (pin : Fin 8) (s : State),
    s.running (Tm.evtWidth pin.val) = true) ∧
    (∃ (n : Fin 2) (s : State),
    SMap.get (fun _ => none) s.servo.ppsDue n.val = none) ∧
    (∃ (pin : Fin 8) (s : State),
    SMap.get (fun _ => none) s.servo.evtDue pin.val = none) ∧
    (∃ (chars : List Byte) (edge at_ second : Nat) (s : State),
    s.bit Pg.TIME TIME1.TOD_CTRL_RX_EN = true ∧ (todParse chars).2 = true ∧ s.servo.ppsIn0 = some (edge, at_) ∧ decValue ((splitCommas (todParse chars).1).getD 1 []) = some second) := by
  refine ⟨⟨0, 5, ({ w with servo := { w.servo with ppsDue := [(0, some 5)] } }).set Pg.TIME (TIME1.PPS_OUT_CTRL_EN 0) 1, by decide +kernel⟩,
    ⟨1, tm (Tm.ppsWidth 1) (w.setPin (Pin.ppsOut 1) true), by decide +kernel⟩,
    ⟨5, 2, tm Tm.tod (({ w with servo := { w.servo with ppsOut0 := some (5, 2) } }).set Pg.TIME TIME1.TOD_CTRL_TX_EN 1), by decide +kernel⟩,
    ⟨1, true, 31, w.set Pg.TIME (TIME1.PPS_IN_CTRL_EN 1) 1, by decide +kernel⟩,
    ⟨[], w.set Pg.TIME TIME1.TOD_CTRL_RX_EN 1, by decide +kernel⟩,
    ⟨7, true, 0, w.set Pg.TIME (TIME1.EVT_CTRL_MODE 7) 1, by decide +kernel⟩,
    ⟨.pf0, 7, 99, [5], (w.set Pg.TIME (TIME1.EVT_CTRL_MODE 7) 1).setEvtStamps 7 [99, 5], by unfold Granted; decide +kernel⟩,
    ⟨.pf0, 3, 0, w.set Pg.TIME (TIME1.EVT_CTRL_MODE 3) 2, by unfold Granted; decide +kernel⟩,
    ⟨2, 55, 55, 55, { w with servo := { w.servo with evtArm := [(2, some (55, 55))], evtDue := [(2, some 55)] } }, by decide +kernel⟩,
    ⟨2, tm (Tm.evtWidth 2) (w.setPin (Pin.evt 2) true), by decide +kernel⟩,
    ⟨0, w, by decide +kernel⟩,
    ⟨3, w, by decide +kernel⟩,
    ⟨todOk, 9, 0, 12, ({ w with servo := { w.servo with ppsIn0 := some (9, 0) } }).set Pg.TIME TIME1.TOD_CTRL_RX_EN 1, by decide +kernel⟩⟩

/-- The hypotheses of `Obligations.TimingPinsPtmAndStamps` can be met, clause by clause. -/
theorem witness_PtmAndStampQueueCommands :
    (∃ (src : Source) (s : State),
    Granted src (Pg.TIME + TIME1.PTM_CTRL.off) true s ∧ s.feat 15 = true ∧ s.pcie.ptmEn = true ∧ s.servo.ptmT1 = none) ∧
    (∃ (s : State),
    s.bit Pg.TIME TIME1.PTM_CTRL_AUTO = true ∧ s.feat 15 = true ∧ s.pcie.ptmEn = true ∧ s.servo.ptmT1 = none) ∧
    (∃ (masterNs : Word64) (propNs : Word) (t1 : Nat) (s : State),
    s.servo.ptmT1 = some t1) ∧
    (∃ (s : State),
    s.running Tm.ptm = true) ∧
    (∃ (src : Source) (q : Fin 6) (s : State),
    Granted src (Pg.TSQ + (TSQ.Q_ENTRY0 q.val).off) false s) := by
  refine ⟨⟨.pf0, w, by unfold Granted; decide +kernel⟩,
    ⟨w.set Pg.TIME TIME1.PTM_CTRL_AUTO 1, by decide +kernel⟩,
    ⟨0x1234567, 200, 10, { w with servo := { w.servo with ptmT1 := some 10 } }, by decide +kernel⟩,
    ⟨tm Tm.ptm { w with servo := { w.servo with ptmT1 := some 10 } }, by decide +kernel⟩,
    ⟨.pf0, 5, w, by unfold Granted; decide +kernel⟩⟩

/-- The hypotheses of `Obligations.ResetCommands` can be met, clause by clause. -/
theorem witness_ResetCommands :
    (∃ (straps : Straps) (a b : Bool) (s : State),
    (a || b) = true) ∧
    (∃ (cause : ResetCause) (straps : Straps) (s : State),
    s.power.off = false ∧ s.pstate ≠ Pst.keep) ∧
    (∃ (src : Source) (straps : Straps) (s : State),
    Granted src (Pg.DEV + DEV.RESET_CTRL.off) true s ∧ s.power.off = false ∧ s.pstate ≠ Pst.keep) ∧
    (∃ (src : Source) (key : BitVec 16) (straps : Straps) (s : State),
    Granted src (Pg.DEV + DEV.RESET_CTRL.off) true s ∧ key ≠ 0x5A3C) ∧
    (∃ (straps : Straps) (s : State),
    s.bit Pg.HOLD HOLD.SUPPLY_MAIN_EN = true ∧ s.power.off = false ∧ s.pstate ≠ Pst.keep) ∧
    (∃ (tref : Fin 16) (s : State),
    s.power.ready = false ∧ s.power.off = false) ∧
    (∃ (straps : Straps) (s : State),
    s.power.waking = true ∧ s.pstate = Pst.keep) ∧
    (∃ (core : Fin 4) (straps : Straps) (s : State),
    ((∀ c, SMap.get (fun _ => none) s.watchdog core.val = some c → c + cyclesOf (60 * sec) < s.clock.cycles))) ∧
    (∃ (core : Fin 4) (straps : Straps) (c : Nat) (s : State),
    SMap.get (fun _ => none) s.watchdog core.val = some c ∧ s.clock.cycles ≤ c + cyclesOf (60 * sec) ∧ s.power.off = false ∧ s.pstate ≠ Pst.keep) := by
  refine ⟨⟨⟨0, false⟩, true, false, w, by decide +kernel⟩,
    ⟨.watchdog, ⟨1, true⟩, w, by decide +kernel⟩,
    ⟨.pf0, ⟨1, false⟩, w, by unfold Granted; decide +kernel⟩,
    ⟨.pf0, 0, ⟨1, false⟩, w, by unfold Granted; decide +kernel⟩,
    ⟨⟨1, false⟩, (w.set Pg.HOLD HOLD.SUPPLY_MAIN_EN 1).setPin (Pin.ben .portA) true, by decide +kernel⟩,
    ⟨15, State.reset, by decide +kernel⟩,
    ⟨⟨1, false⟩, { w.set Pg.PWR PWR.STATE_CURRENT Pst.keep with power := { w.power with waking := true } }, by decide +kernel⟩,
    ⟨3, ⟨1, false⟩, w, by decide +kernel⟩,
    ⟨3, ⟨1, false⟩, 0, { w with watchdog := [(3, some 0)] }, by decide +kernel⟩⟩

/-- The hypotheses of `Obligations.BootAndLiveUpdate` can be met, clause by clause. -/
theorem witness_BootCommands :
    (∃ (s : State),
    s.power.ready = true ∧ s.stage = Stg.fuseLoad ∧ s.domIsOff .core = false) ∧
    (∃ (s : State),
    s.stage = Stg.rom ∧ s.boot.memTrained = false) ∧
    (∃ (s : State),
    ((s.stage = Stg.rom ∨ s.stage = Stg.recovery)) ∧ s.boot.memTrained = false) ∧
    (∃ (b : Bank) (s : State),
    s.stage = Stg.imageLoad ∧ s.boot.loading = some b ∧ bodyCheck (s.bankHeader b) (s.bankBody b) = none) ∧
    (∃ (b : Bank) (ok : Bool) (s : State),
    s.stage = Stg.imageLoad ∧ s.boot.loading = some b ∧ ((ok = false ∨ bodyCheck (s.bankHeader b) (s.bankBody b) = some 6)) ∧ s.boot.left = []) ∧
    (∃ (s : State),
    s.stage = Stg.fwStart) := by
  refine ⟨⟨stage 0 { State.reset with power := { State.reset.power with ready := true } }, by decide +kernel⟩,
    ⟨stage Stg.rom w, by decide +kernel⟩,
    ⟨stage Stg.recovery w, by decide +kernel⟩,
    ⟨.bankB, stage Stg.imageLoad (inBank .bankB (keyed { w with boot := { w.boot with loading := some .bankB } })), by decide +kernel⟩,
    ⟨.bankA, false, stage Stg.imageLoad { w with boot := { w.boot with loading := some .bankA } }, by decide +kernel⟩,
    ⟨stage Stg.fwStart w, by decide +kernel⟩⟩

/-- The hypotheses of `Obligations.BootAndLiveUpdate` can be met, clause by clause. -/
theorem witness_LiveUpdateCommands :
    (∃ (ch : Chan) (tag : Byte) (s : State),
    MbxOpen ch s ∧ s.feat 20 = true ∧ s.updating = false ∧ s.bankCheck s.bootedBank.other = none ∧ hdrField (s.bankHeader s.bootedBank.other) 0x18 4 ≤ (s.boot.fw.map ImgInfo.version).getD 0) ∧
    (∃ (ch : Chan) (tag : Byte) (s : State),
    MbxOpen ch s) ∧
    (∃ (ch : Chan) (tag : Byte) (s : State),
    MbxOpen ch s ∧ s.updating = true) ∧
    (∃ (core : Fin 4) (s : State),
    s.updating = true ∧ s.upd.active = false ∧ core.val = s.nextCore) ∧
    (∃ (core : Fin 4) (s : State),
    s.upd.active = true ∧ s.upd.phase = .moving core.val ∧ core.val ≠ 0 ∧ ((∀ p, corePort core.val = some p → (s.rg p).due = []))) ∧
    (∃ (core : Fin 4) (s : State),
    s.upd.active = true ∧ s.upd.phase = .moving core.val ∧ s.mbxHeld = [] ∧ ((∀ p, corePort core.val = some p → (s.rg p).due = []))) ∧
    (∃ (core : Fin 4) (p : Port) (s : State),
    s.upd.active = true ∧ s.upd.phase = .moving core.val ∧ corePort core.val = some p ∧ (s.rg p).due = [.defectLoss] ∧ s.regSt p = RegSt.work) ∧
    (∃ (b : Bank) (img : ImgInfo) (s : State),
    s.upd.active = true ∧ s.upd.phase = .moving 0 ∧ s.upd.bank = some b ∧ s.upd.img = some img ∧ s.mbxHeld = []) := by
  refine ⟨⟨.ch0, 1, inBank w.bootedBank.other (keyed w), by exact ⟨by unfold MbxOpen Granted; decide +kernel, by decide +kernel, by decide +kernel, bank_verifies, by decide +kernel⟩⟩,
    ⟨.ch0, 2, w, by unfold MbxOpen Granted; decide +kernel⟩,
    ⟨.ch0, 2, { w with upd := ⟨.verifying, none, none, [], false, false⟩ }, by unfold MbxOpen Granted; decide +kernel⟩,
    ⟨3, { w with upd := ⟨.verifying, none, none, [], false, false⟩ }, by decide +kernel⟩,
    ⟨3, { w with upd := ⟨.moving 3, none, none, [], false, true⟩ }, by decide +kernel⟩,
    ⟨0, { w with upd := ⟨.moving 0, none, none, [3, 2, 1], false, true⟩ }, by decide +kernel⟩,
    ⟨1, .portA, { st 4 (rg (fun r => { r with due := [.defectLoss] }) w) with upd := ⟨.moving 1, none, none, [3, 2], false, true⟩ }, by decide +kernel⟩,
    ⟨.bankB, ⟨5, 2, []⟩, { w with upd := ⟨.moving 0, some .bankB, some ⟨5, 2, []⟩, [3, 2, 1], false, true⟩ }, by decide +kernel⟩⟩

/-- The hypotheses of `Obligations.MailboxRefusals` can be met, clause by clause. -/
theorem witness_MailboxRefusals :
    (∃ (ch : Chan) (s : State),
    Granted (chanSource ch) (Pg.HOOK ch + HOOK.MBX_CTRL.off) true s ∧ s.bit (Pg.HOOK ch) HOOK.MBX_STAT_BUSY = true) ∧
    (∃ (ch : Chan) (s : State),
    MbxOpen ch s ∧ s.get (Pg.HOOK ch) ⟨0x080, 0, 16⟩ = 0x21) ∧
    (∃ (ch : Chan) (tag : Byte) (code : BitVec 16) (s : State),
    cmdKnown code.toNat = false ∧ MbxOpen ch s) ∧
    (∃ (tag : Byte) (s : State),
    Granted .mgmt (Pg.HOOK .ch1 + HOOK.MBX_CTRL.off) true s ∧ s.bit (Pg.HOOK .ch1) HOOK.MBX_STAT_BUSY = false ∧ s.upd.active = false ∧ s.fwIsReady = true ∧ s.fuses.oobFull = false) ∧
    (∃ (ch : Chan) (tag : Byte) (s : State),
    Granted (chanSource ch) (Pg.HOOK ch + HOOK.MBX_CTRL.off) true s ∧ s.bit (Pg.HOOK ch) HOOK.MBX_STAT_BUSY = false ∧ s.upd.active = false ∧ s.fwIsReady = false) := by
  refine ⟨⟨.ch1, w.set (Pg.HOOK .ch1) HOOK.MBX_STAT_BUSY 1, by unfold Granted; decide +kernel⟩,
    ⟨.ch0, w.wr (Pg.HOOK .ch0 + 0x80) 0x07000021, by unfold MbxOpen Granted; decide +kernel⟩,
    ⟨.ch0, 9, 0xFFFF, w, by unfold MbxOpen Granted; decide +kernel⟩,
    ⟨4, w, by unfold Granted; decide +kernel⟩,
    ⟨.ch1, 3, State.reset, by unfold Granted; decide +kernel⟩⟩

/-- The hypotheses of `Obligations.FlashFusesAndMeasurements` can be met, clause by clause. -/
theorem witness_FlashAndMeasurementCommands :
    (∃ (ch : Chan) (tag : Byte) (s : State),
    MbxOpen ch s) ∧
    (∃ (ch : Chan) (tag : Byte) (dest : Word64) (s : State),
    MbxOpen ch s) ∧
    (∃ (tag : Byte) (offset : Word) (image : List Byte) (s : State),
    Granted (chanSource .ch0) (Pg.HOOK .ch0 + HOOK.MBX_CTRL.off) true s ∧ s.bit (Pg.HOOK .ch0) HOOK.MBX_STAT_BUSY = false ∧ s.upd.active = false ∧ s.stage = Stg.recovery ∧ s.boot.memTrained = true ∧ s.recoveryChan = some .ch0 ∧ s.imageCheck 1 image = none) ∧
    (∃ (tag : Byte) (offset : Word) (chunk : List Byte) (s : State),
    Granted (chanSource .ch1) (Pg.HOOK .ch1 + HOOK.MBX_CTRL.off) true s ∧ s.bit (Pg.HOOK .ch1) HOOK.MBX_STAT_BUSY = false ∧ s.upd.active = false ∧ s.stage = Stg.recovery ∧ s.boot.memTrained = true ∧ s.recoveryChan = some .ch1 ∧ chunk.length ≤ 124) ∧
    (∃ (ch : Chan) (tag : Byte) (offset : BitVec 25) (length : BitVec 26) (dest : Word64) (s : State),
    MbxOpen ch s ∧ offset.toNat + length.toNat ≤ 0x2000000) ∧
    (∃ (ch : Chan) (tag : Byte) (r : FlashRegion) (sector : Fin 240) (count : Fin 241) (s : State),
    MbxOpen ch s ∧ s.updating = false ∧ (sector.val + count.val) * 0x10000 ≤ (regionBase r).2) ∧
    (∃ (ch : Chan) (tag : Byte) (r : FlashRegion) (offset : BitVec 24) (data : List Byte) (s : State),
    MbxOpen ch s ∧ s.updating = false ∧ offset.toNat + data.length ≤ (regionBase r).2 ∧ ((ch = .ch1 → data.length ≤ 124))) ∧
    (∃ (ch : Chan) (tag : Byte) (b : Bank) (s : State),
    MbxOpen ch s) ∧
    (∃ (ch : Chan) (tag : Byte) (b : Bank) (m : BankMode) (s : State),
    MbxOpen ch s ∧ s.updating = false) ∧
    (∃ (ch : Chan) (tag : Byte) (dest : Word64) (c : List Byte) (s : State),
    MbxOpen ch s ∧ s.chain = some c) ∧
    (∃ (ch : Chan) (tag : Byte) (nonce : BitVec 256) (dest : Word64) (s : State),
    MbxOpen ch s) ∧
    (∃ (ch : Chan) (tag : Byte) (reg : Fin 4) (input : BitVec 512) (s : State),
    MbxOpen ch s) ∧
    (∃ (ch : Chan) (tag : Byte) (dest : Word64) (s : State),
    MbxOpen ch s) := by
  refine ⟨⟨.ch0, 1, w, by unfold MbxOpen Granted; decide +kernel⟩,
    ⟨.ch1, 1, 0, w1, by unfold MbxOpen Granted; decide +kernel⟩,
    ⟨3, 0, img, trained (stage Stg.recovery (keyed (w.set Pg.DEV DEV.BOOT_STAT_BOOT_SRC 1))), by unfold Granted; exact ⟨by decide +kernel, by decide +kernel, by decide +kernel, by decide +kernel, by decide +kernel, by decide +kernel, by refine (imageCheck_of_fuses (s' := keyed w) ?_ 1 img).trans test_image_verifies; decide +kernel⟩⟩,
    ⟨3, 300, img.drop 300, onOob img, by unfold Granted; decide +kernel⟩,
    ⟨.ch0, 1, 0x1FFFFFF, 1, 0, w, by unfold MbxOpen Granted; decide +kernel⟩,
    ⟨.ch0, 1, .config, 15, 1, w, by unfold MbxOpen Granted; decide +kernel⟩,
    ⟨.ch0, 1, .config, 0xFFFFF, [1], w, by unfold MbxOpen Granted; decide +kernel⟩,
    ⟨.ch0, 1, .bankA, inBank .bankA w, by unfold MbxOpen Granted; decide +kernel⟩,
    ⟨.ch0, 1, .bankB, .trial 255, w, by unfold MbxOpen Granted; decide +kernel⟩,
    ⟨.ch0, 1, 0, certs, withCerts w, by unfold MbxOpen Granted; decide +kernel⟩,
    ⟨.ch0, 1, 5, 0, w, by unfold MbxOpen Granted; decide +kernel⟩,
    ⟨.ch0, 1, 3, 77, w, by unfold MbxOpen Granted; decide +kernel⟩,
    ⟨.ch1, 1, 124, w1, by unfold MbxOpen Granted; decide +kernel⟩⟩

/-- The hypotheses of `Obligations.FlashFusesAndMeasurements` can be met, clause by clause. -/
theorem witness_FuseDebugAndRandomCommands :
    (∃ (ch : Chan) (tag : Byte) (bit : BitVec 14) (count : BitVec 10) (s : State),
    MbxOpen ch s ∧ count.toNat ≤ 992 ∧ (fuseReadable.any (fun r => decide (r.1 ≤ bit.toNat ∧ bit.toNat + count.toNat ≤ r.2)) = true) ∧ count.toNat % 8 = 0) ∧
    (∃ (ch : Chan) (tag : Byte) (bit : BitVec 14) (count : BitVec 10) (s : State),
    MbxOpen ch s ∧ count.toNat ≤ 992 ∧ (fuseReadable.any (fun r => decide (r.1 ≤ bit.toNat ∧ bit.toNat + count.toNat ≤ r.2)) = false)) ∧
    (∃ (ch : Chan) (tag : Byte) (bit : BitVec 14) (data : List Bool) (temp : Int) (s : State),
    MbxOpen ch s ∧ s.fuseMayProgram bit.toNat data.length = true ∧ 0 ≤ temp ∧ temp ≤ 85) ∧
    (∃ (ch : Chan) (tag : Byte) (req : ProtectReq) (s : State),
    MbxOpen ch s) ∧
    (∃ (ch : Chan) (tag : Byte) (type : Fin 4) (img : ImgInfo) (s : State),
    MbxOpen ch s ∧ s.runningImage type.val = some img) ∧
    (∃ (ch : Chan) (tag : Byte) (s : State),
    MbxOpen ch s ∧ s.fuses.debug = 1) ∧
    (∃ (ch : Chan) (tag slot : Byte) (pk : BitVec 456) (sig : BitVec 912) (n : List Byte) (s : State),
    MbxOpen ch s ∧ s.fuses.debug = 1 ∧ s.security.challenge = some n) ∧
    (∃ (ch : Chan) (tag : Byte) (count : Fin 65) (s : State),
    MbxOpen ch s) ∧
    (∃ (samples : List Bool) (s : State),
    s.bit Pg.SEC SEC0.RNG_STAT_SOURCE_FAILED = true) := by
  refine ⟨⟨.ch0, 1, 0, 512, w, by unfold MbxOpen Granted; decide +kernel⟩,
    ⟨.ch0, 1, 512, 8, w, by unfold MbxOpen Granted; decide +kernel⟩,
    ⟨.ch0, 1, 9024, [true, false, true], 85, w, by unfold MbxOpen Granted; decide +kernel⟩,
    ⟨.ch0, 1, ⟨3, 3, false, false, true⟩, w, by unfold MbxOpen Granted; decide +kernel⟩,
    ⟨.ch0, 1, 3, ⟨5, 2, []⟩, { w with boot := { w.boot with config := some ⟨5, 2, []⟩ } }, by unfold MbxOpen Granted; decide +kernel⟩,
    ⟨.ch0, 1, { w with fuses := { w.fuses with debug := 1 } }, by unfold MbxOpen Granted; decide +kernel⟩,
    ⟨.ch0, 1, 0, 1, 1, [3], keyed { w with fuses := { w.fuses with debug := 1 }, security := { w.security with challenge := some [3] } }, by unfold MbxOpen Granted; decide +kernel⟩,
    ⟨.ch0, 1, 64, w, by unfold MbxOpen Granted; decide +kernel⟩,
    ⟨good, w.set Pg.SEC SEC0.RNG_STAT_SOURCE_FAILED 1, by decide +kernel⟩⟩

/-- The hypotheses of `Obligations.ClockRecoveryAndAlignment` can be met, clause by clause. -/
theorem witness_ClockRecoveryAndAlignment :
    (∃ (p : Port) (s : State),
    s.cdr p = cdrFree ∧ (s.fnIs (.line p) .castingOn || s.fnIs (.line p) .running) = true ∧ (s.down p).raw.getD 0 false = false) ∧
    (∃ (p : Port) (s : State),
    s.cdr p = cdrAcquire ∧ s.running (Tm.acquire p) = true) ∧
    (∃ (p : Port) (s : State),
    s.cdr p = cdrLocked) ∧
    (∃ (p : Port) (s : State),
    s.cdr p = cdrLocked ∧ s.running (Tm.lss p) = true ∧ s.lineOn p = true) ∧
    (∃ (p : Port) (o : SyncObs) (s : State),
    s.lineOn p = true ∧ s.cdr p ≠ cdrFree ∧ s.scan = false ∧ ((s.gen1 p = true → syncWordErrors o.syncWord ≤ (if s.align p = alSeek then 0 else 3)))) ∧
    (∃ (p : Port) (s : State),
    s.lineOn p = true) := by
  refine ⟨⟨.portA, ln w, by decide +kernel⟩,
    ⟨.portA, cd 1 (tm (Tm.acquire .portA) w), by decide +kernel⟩,
    ⟨.portA, cd 3 w, by decide +kernel⟩,
    ⟨.portA, ln (cd 3 (tm (Tm.lss .portA) (dn (fun d => { d with raw := [false, true, true, false, false, false] }) w))), by decide +kernel⟩,
    ⟨.portA, sync 12480010 9, ln (cd 1 (mo (fun m => { m with finds := [500, 10] }) w)), by decide +kernel⟩,
    ⟨.portA, ln (cd 2 (mo (fun m => { m with last := some 10, missed := 7 }) w)), by decide +kernel⟩⟩

/-- The hypotheses of `Obligations.CodewordsDefectsAndFrames` can be met, clause by clause. -/
theorem witness_HeadersCodewordsAndDefects :
    (∃ (p : Port) (body : Option (List Byte)) (s : State),
    (s.down p).bodyDue = false) ∧
    (∃ (p : Port) (body : Option (List Byte)) (s : State),
    (s.down p).bodyDue = true ∧ ((∀ bs, body = some bs → (if s.gen1 p then bodyGood1 bs else s.bodyGood p bs) = false))) ∧
    (∃ (p : Port) (bs : List Byte) (s : State),
    (s.down p).bodyDue = true ∧ (if s.gen1 p then bodyGood1 bs else s.bodyGood p bs) = true) ∧
    (∃ (p : Port) (k : Fin 8) (rx : RxWord) (s : State),
    (s.stream p k.val).on = false) ∧
    (∃ (p : Port) (kind : CwKind) (k : Fin 8) (rx : RxWord) (s : State),
    ((kind = .payload → (s.stream p k.val).on = true)) ∧ (((s.modem p).waiting < 64 ∨ (kind ≠ .payload ∧ (s.modem p).decodesPayload = false)))) ∧
    (∃ (p : Port) (k : Fin 8) (rx : RxWord) (s : State),
    (s.stream p k.val).on = true ∧ 64 ≤ (s.modem p).waiting ∧ (s.modem p).decodesPayload = false) ∧
    (∃ (p : Port) (kind : CwKind) (k : Fin 8) (rx : RxWord) (s : State),
    ((kind = .payload → (s.stream p k.val).on = true)) ∧ 64 ≤ (s.modem p).waiting ∧ (s.modem p).decodesPayload = true) ∧
    (∃ (p : Port) (zero : Bool) (info : List Byte) (parity : List Bool) (iters at_ : Nat) (q : QCw) (qs : List QCw) (s : State),
    (s.modem p).queue = q :: qs) ∧
    (∃ (p : Port) (power clipped : Nat) (s : State),
    s.domIsOff (match p with | .portA => .lineA | .portB => .lineB) = false) ∧
    (∃ (p : Port) (long : Bool) (s : State),
    s.lineOn p = true ∧ (s.down p).raw.length = 6) ∧
    (∃ (p : Port) (s : State),
    s.lineOn p = true ∧ lossOf (s.down p).raw = false ∧ (s.down p).raw.length = 6 ∧ (s.down p).lostRecent.headD true = false) ∧
    (∃ (p : Port) (a : CtrlArea) (sec : Nat × Nat) (bs : List Byte) (u s : State),
    s.takeSection p CtrlArea.mgmt (fun a => { a with mgmt := none }) = (some (a, sec, some bs), u)) ∧
    (∃ (p : Port) (a : CtrlArea) (sec : Nat × Nat) (bs : List Byte) (u s : State),
    s.takeSection p CtrlArea.time (fun a => { a with time := none }) = (some (a, sec, some bs), u)) ∧
    (∃ (src : Source) (val : Word) (p : Port) (s : State),
    Granted src (Pg.LFR p + LFR0.DS_CTRL.off) true s) := by
  refine ⟨⟨.portA, none, w, by decide +kernel⟩,
    ⟨.portA, none, dn (fun d => { d with bodyDue := true }) w, by decide +kernel⟩,
    ⟨.portA, hbody, (dn (fun d => { d with bodyDue := true }) w).set (Pg.LFR .portA) LFR0.DS_STAT_H 2, by decide +kernel⟩,
    ⟨.portA, 2, .nrz [1, -2, 3, 4, -5] 2, w, by decide +kernel⟩,
    ⟨.portA, .body, 2, .nrz [1, -2, 3, 4, -5] 2, (w.set (Pg.LFR .portA) LFR0.DS_CTRL_GEN 1), by decide +kernel⟩,
    ⟨.portA, 2, .symbols [[1, 2, 3]] [(0, 16, 0)], mo (fun m => { m with queue := ⟨.body, 0, []⟩ :: List.replicate 64 ⟨.payload, 3, []⟩ }) (dn (fun d => { d with streams := [(2, { strm0 with lodBad := 0 })] }) w), by decide +kernel⟩,
    ⟨.portA, .payload, 2, .symbols [[1, 2, 3]] [(0, 16, 0)], mo (fun m => { m with queue := List.replicate 80 ⟨.payload, 3, []⟩ }) (dn (fun d => { d with streams := [(2, { strm0 with lodBad := 0 })] }) w), by decide +kernel⟩,
    ⟨.portA, true, List.replicate 1824 7, List.replicate 2688 false, 3, 60, ⟨.payload, 2, List.replicate 17280 1⟩, [], mo (fun m => { m with queue := [⟨.payload, 2, List.replicate 17280 1⟩] }) w, by decide +kernel⟩,
    ⟨.portA, 200, 3, w, by decide +kernel⟩,
    ⟨.portA, false, ln w, by decide +kernel⟩,
    ⟨.portA, ln (dn (fun d => { d with raw := [false, false, false, false, false, false], lostRecent := [false], streams := [(2, { strm0 with hadRuns := true, lodBad := 7 })] }) w), by decide +kernel⟩,
    ⟨.portA, area 1 (smsg 3), (0, 64), smsg 3, msec (withArea 1 (smsg 3) w), withArea 1 (smsg 3) w, by decide +kernel⟩,
    ⟨.portA, area 2 (List.replicate 96 1), (0, 96), List.replicate 96 1, tsec (withArea 2 (List.replicate 96 1) w), withArea 2 (List.replicate 96 1) w, by decide +kernel⟩,
    ⟨.pf0, 8, .portA, w, by unfold Granted; decide +kernel⟩⟩

/-- The hypotheses of `Obligations.CodewordsDefectsAndFrames` can be met, clause by clause. -/
theorem witness_DelineationAndFrames :
    (∃ (p : Port) (k : Fin 8) (s : State),
    (((s.stream p k.val).on = false ∨ s.align p ≠ alLocked))) ∧
    (∃ (p : Port) (k : Fin 8) (s : State),
    (s.stream p k.val).on = true ∧ s.align p = alLocked ∧ (s.stream p k.val).anchorDue = none ∧ (s.stream p k.val).waitAnchor = false ∧ (((s.stream p k.val).st = .hunt → s.bit (Pg.LFR p) LFR0.DS_CTRL_ANCHOR_JUMP = false))) ∧
    (∃ (p : Port) (k : Fin 8) (a : Nat) (s : State),
    (s.stream p k.val).on = true ∧ (s.stream p k.val).anchorDue = some a ∧ (s.stream p k.val).st = .sync) ∧
    (∃ (p : Port) (k : Fin 8) (f : DFrame) (fs : List DFrame) (got : Option (List Byte)) (s : State),
    (s.stream p k.val).ready = f :: fs ∧ (s.stream p k.val).bytes (f.at_ + 8) (fehLength f.feh) = some got ∧ f.gone = false) ∧
    (∃ (p : Port) (k : Fin 8) (f : DFrame) (fs : List DFrame) (got : Option (List Byte)) (s : State),
    (s.stream p k.val).ready = f :: fs ∧ (s.stream p k.val).bytes (f.at_ + 8) (fehLength f.feh) = some got ∧ f.gone = true) ∧
    (∃ (p : Port) (k : Fin 8) (s : State),
    (s.stream p k.val).ready = []) := by
  refine ⟨⟨.portA, 2, w, by decide +kernel⟩,
    ⟨.portA, 2, (strm { strm0 with chunks := [⟨30, some ([9, 9] ++ fehBytes 0x12345 ++ List.replicate 20 1)⟩], q := 2 } w).set (Pg.LFR .portA) LFR0.DS_CTRL_ANCHOR_JUMP 0, by decide +kernel⟩,
    ⟨.portA, 2, 4, strm { strm0 with st := .sync, q := 4, held := [⟨0, feh 5, 1, false⟩], segs := [⟨0, 9, some 4, false, false⟩] } w, by decide +kernel⟩,
    ⟨.portA, 2, ⟨2, feh (3 * 2 ^ 37), 1, false⟩, [], some [1, 1, 1], strm { strm0 with chunks := [⟨30, some ([9, 9] ++ fehBytes (3 * 2 ^ 37) ++ List.replicate 20 1)⟩], st := .anchored, ready := [⟨2, feh (3 * 2 ^ 37), 1, false⟩] } w, by decide +kernel⟩,
    ⟨.portA, 2, ⟨2, feh (3 * 2 ^ 37 + 0xFFF * 2 ^ 25), 0, true⟩, [], some [1, 1, 1], strm { strm0 with chunks := [⟨30, some ([9, 9] ++ fehBytes (3 * 2 ^ 37 + 0xFFF * 2 ^ 25) ++ List.replicate 20 1)⟩], st := .anchored, ctx := some ⟨feh 5, [1], 1⟩, ready := [⟨2, feh (3 * 2 ^ 37 + 0xFFF * 2 ^ 25), 0, true⟩] } w, by decide +kernel⟩,
    ⟨.portA, 2, w, by decide +kernel⟩⟩

/-- The hypotheses of `Obligations.OpticsLoadingAndCaptures` can be met, clause by clause. -/
theorem witness_OpticsLoadingAndCaptures :
    (∃ (src : Source) (p : Port) (val : Word) (s : State),
    Granted src (Pg.LINE p + LINE1.TX_CTRL.off) true s) ∧
    (∃ (p : Port) (s : State),
    s.pin (Pin.ben p) = true) ∧
    (∃ (p : Port) (faultPin : Bool) (s : State),
    (if faultPin then (s.modem p).fault else (s.modem p).absent) = false) ∧
    (∃ (p : Port) (presentPin : Bool) (s : State),
    (if presentPin then (s.modem p).absent else (s.modem p).fault) = true) ∧
    (∃ (src : Source) (p : Port) (val : Word) (s : State),
    Granted src (Pg.LINE p + LINE2.TXMON_CAP.off) true s) ∧
    (∃ (src : Source) (p : Port) (s : State),
    Granted src (Pg.LINE p + LINE0.LOAD_DATA.off) false s ∧ 1 ≤ s.get (Pg.LINE p) LINE0.LOAD_SEL_TABLE ∧ s.get (Pg.LINE p) LINE0.LOAD_SEL_TABLE ≤ 12) ∧
    (∃ (src : Source) (p : Port) (w : Word) (s : State),
    Granted src (Pg.LINE p + LINE0.LOAD_DATA.off) true s ∧ 1 ≤ s.get (Pg.LINE p) LINE0.LOAD_SEL_TABLE ∧ s.get (Pg.LINE p) LINE0.LOAD_SEL_TABLE ≤ 7) ∧
    (∃ (p : Port) (r : Bool) (s : State),
    s.bit (Pg.LINE p) LINE0.EQ_CAP_EN = true ∧ max 1 (s.get (Pg.LINE p) LINE0.EQ_CAP_EVERY) ≤ (s.modem p).eqCount ∧ s.recordFor (s.get (Pg.LINE p) LINE0.EQ_CAP_SLOT) = some r) ∧
    (∃ (p : Port) (first : Int) (input : List Int) (s : State),
    (s.modem p).txmonBurst = none) ∧
    (∃ (p : Port) (first : Int) (input : List Int) (b : Nat × Int × Nat × Nat × TxChain) (s : State),
    (s.modem p).txmonBurst = some b) := by
  refine ⟨⟨.pf0, .portA, 1, w, by unfold Granted; decide +kernel⟩,
    ⟨.portA, w.setPin (Pin.ben .portA) true, by decide +kernel⟩,
    ⟨.portA, true, w, by decide +kernel⟩,
    ⟨.portA, true, mo (fun m => { m with absent := true }) w, by decide +kernel⟩,
    ⟨.pf0, .portA, 1, w, by unfold Granted; decide +kernel⟩,
    ⟨.pf0, .portA, (w.set (Pg.LINE .portA) LINE0.LOAD_SEL_TABLE 12).set (Pg.LINE .portA) LINE0.LOAD_SEL_INDEX 2046, by unfold Granted; decide +kernel⟩,
    ⟨.hook 0, .portA, 0x0B0A0102, (w.set (Pg.LINE .portA) LINE0.LOAD_SEL_TABLE 7).set (Pg.LINE .portA) LINE0.LOAD_SEL_INDEX 17, by unfold Granted; decide +kernel⟩,
    ⟨.portA, false, (mo (fun m => { m with eqCount := 77 }) w).set (Pg.LINE .portA) LINE0.EQ_CAP_EN 1, by decide +kernel⟩,
    ⟨.portA, 0, [1, 2], w, by decide +kernel⟩,
    ⟨.portA, -1, [1, -2], (5, 6, 7, 8, w.txChain .portA (gr w) [1, 2]), mo (fun m => { m with txmonBurst := some (5, 6, 7, 8, w.txChain .portA (gr w) [1, 2]) }) w, by decide +kernel⟩⟩

/-- The hypotheses of `Obligations.GrantsAndBursts` can be met, clause by clause. -/
theorem witness_GrantsAndBursts :
    (∃ (p : Port) (s : State),
    ((∀ a ∈ (s.down p).ctrls, a.grant = none))) ∧
    (∃ (p : Port) (a : CtrlArea) (sec : Nat × Nat) (bs : List Byte) (u s : State),
    s.takeSection p CtrlArea.grant (fun a => { a with grant := none }) = (some (a, sec, some bs), u)) ∧
    (∃ (src : Source) (p : Port) (slot : Fin 64) (val : Word) (s : State),
    Granted src (Pg.LFR p + (LFR0.ALLOC slot.val).off) true s) ∧
    (∃ (p : Port) (s : State),
    (s.up p).store = []) ∧
    (∃ (p : Port) (g : Grant) (gs : List Grant) (s : State),
    (s.up p).store = g :: gs) ∧
    (∃ (p : Port) (phase : Fin 128) (b : Burst) (bs : List Burst) (s : State),
    (s.up p).burst = none ∧ (s.up p).drawn = b :: bs) ∧
    (∃ (p : Port) (b : Burst) (s : State),
    (s.up p).burst = some b) ∧
    (∃ (p : Port) (order : Nat) (s : State),
    ((∀ b, (s.up p).burst = some b → b.grant.order ≠ order))) := by
  refine ⟨⟨.portA, w, by decide +kernel⟩,
    ⟨.portA, area 0 (gmap discE), (0, 16), gmap discE, gsec (withArea 0 (gmap discE) w), withArea 0 (gmap discE) w, by decide +kernel⟩,
    ⟨.hook 0, .portA, 63, 5, w, by unfold Granted; decide +kernel⟩,
    ⟨.portA, w, by decide +kernel⟩,
    ⟨.portA, gr w, [], up (fun u => { u with store := [gr w] }) w, by decide +kernel⟩,
    ⟨.portA, 0, brst w, [brst w], up (fun u => { u with drawn := [brst w, brst w] }) w, by decide +kernel⟩,
    ⟨.portA, brst w, up (fun u => { u with burst := some (brst w) }) w, by decide +kernel⟩,
    ⟨.portA, 0, w, by decide +kernel⟩⟩

/-- The hypotheses of `Obligations.RegistrationMessages` can be met, clause by clause. -/
theorem witness_RegistrationMessages :
    (∃ (p : Port) (m : List Byte) (s : State),
    ShortHeard 1 p m s ∧ s.regSt p = RegSt.listen ∧ s.align p = alLocked ∧ (s.rg p).enable = true ∧ s.dualPermits p = true ∧ minLead m ≤ 15) ∧
    (∃ (p : Port) (m : List Byte) (s : State),
    ShortHeard 2 p m s ∧ s.regSt p = RegSt.announce ∧ (m.drop 4).take 16 = s.serial ∧ msgField m 0x14 2 % 4096 ≠ 0 ∧ msgField m 0x14 2 % 4096 ≠ 0xFFF) ∧
    (∃ (p : Port) (m : List Byte) (s : State),
    ShortHeard 3 p m s ∧ NewRequest p m s ∧ ((s.regSt p = RegSt.range ∨ s.regSt p = RegSt.prove ∨ s.regSt p = RegSt.work)) ∧ msgField m 4 4 ≤ 134217727) ∧
    (∃ (p : Port) (m : List Byte) (s : State),
    ShortHeard 4 p m s ∧ NewRequest p m s ∧ s.assigns p = true ∧ s.identitySigns = true) ∧
    (∃ (p : Port) (m : List Byte) (s : State),
    ShortHeard 5 p m s ∧ NewRequest p m s ∧ s.regSt p = RegSt.prove) ∧
    (∃ (p : Port) (m : List Byte) (s : State),
    ShortHeard 11 p m s ∧ s.pastListen p = true) ∧
    (∃ (p : Port) (m : List Byte) (s : State),
    s.coreMoves p = true ∧ m.length = 64) ∧
    (∃ (p : Port) (m : List Byte) (s : State),
    m.length = 64) := by
  refine ⟨⟨.portA, sm 1 5 [], al 2 (st 0 (rg (fun r => { r with enable := true }) w)), by unfold ShortHeard; decide +kernel⟩,
    ⟨.portA, sm 2 5 (List.replicate 16 0 ++ [0, 3, 0, 9]), st 1 w, by unfold ShortHeard; decide +kernel⟩,
    ⟨.portA, sm 3 5 ([0, 0, 1, 0] ++ beBytes 8 777), st 2 w, by unfold ShortHeard NewRequest; decide +kernel⟩,
    ⟨.portA, sm 4 5 [7], st 3 w, by unfold ShortHeard NewRequest; decide +kernel⟩,
    ⟨.portA, sm 5 5 [0], st 3 w, by unfold ShortHeard NewRequest; decide +kernel⟩,
    ⟨.portA, sm 11 5 [], st 4 w, by unfold ShortHeard; decide +kernel⟩,
    ⟨.portA, sm 1 5 [], { st 0 w with upd := ⟨.moving 1, none, none, [3, 2], false, true⟩ }, by decide +kernel⟩,
    ⟨.portA, sm 1 5 [], rg (fun r => { r with early := (List.range 13).map (fun k => (sm 1 5 []).set 0 (BitVec.ofNat 8 (k + 1))) }) w, by decide +kernel⟩⟩

/-- The hypotheses of `Obligations.RegistrationTimers` can be met, clause by clause. -/
theorem witness_RegistrationTimers :
    (∃ (p : Port) (s : State),
    (s.serveWaiting p).running (Tm.announce p) = true) ∧
    (∃ (p : Port) (s : State),
    (s.serveWaiting p).running (Tm.range p) = true) ∧
    (∃ (p : Port) (s : State),
    (s.serveWaiting p).running (Tm.prove p) = true) ∧
    (∃ (p : Port) (s : State),
    (s.serveWaiting p).running (Tm.hold p) = true ∧ (s.serveWaiting p).regSt p = RegSt.hold ∧ (s.serveWaiting p).coreMoves p = false) ∧
    (∃ (p : Port) (s : State),
    s.regSt p = RegSt.hold ∧ s.lineLost p = false ∧ s.get (Pg.LFR p) LFR0.TREE = (s.rg p).tree ∧ s.coreMoves p = false) ∧
    (∃ (p : Port) (s : State),
    s.running (Tm.leave p) = true ∧ (s.rg p).leaving = true ∧ s.coreMoves p = false ∧ (((s.rg p).bindOff = true ∨ s.regSt p = RegSt.work ∨ s.regSt p = RegSt.hold))) := by
  refine ⟨⟨.portA, tm (Tm.announce .portA) (st 1 w), by decide +kernel⟩,
    ⟨.portA, tm (Tm.range .portA) (st 2 w), by decide +kernel⟩,
    ⟨.portA, tm (Tm.prove .portA) (st 3 w), by decide +kernel⟩,
    ⟨.portA, tm (Tm.hold .portA) (st 5 w), by decide +kernel⟩,
    ⟨.portA, st 5 (dn (fun d => { d with raw := [false, false, false, false, false, false] }) w), by decide +kernel⟩,
    ⟨.portA, tm (Tm.leave .portA) (st 4 (rg (fun r => { r with leaving := true }) w)), by decide +kernel⟩⟩

/-- The hypotheses of `Obligations.LineMessages` can be met, clause by clause. -/
theorem witness_ProfileAndAllocationMessages :
    (∃ (p : Port) (m : List Byte) (s : State),
    ShortHeard 6 p m s ∧ NewRequest p m s ∧ s.assigns p = true ∧ 1 ≤ msgField m 4 1 ∧ msgField m 4 1 ≤ 7 ∧ s.bit (Pg.LFR p) (LFR0.PROF_GEN_CUR_VALID (msgField m 4 1 - 1)) = true ∧ s.get (Pg.LFR p) (LFR0.PROF_GEN_CURRENT (msgField m 4 1 - 1)) = msgField m 5 1) ∧
    (∃ (p : Port) (m : List Byte) (s : State),
    ShortHeard 7 p m s ∧ NewRequest p m s ∧ s.assigns p = true ∧ msgField m 4 1 ≤ 63 ∧ ((msgField m 4 1 = 0 → msgField m 6 2 % 2 ^ 14 = (s.rg p).mgmtAlloc))) ∧
    (∃ (p : Port) (m : List Byte) (s : State),
    TunnelHeard 0x40 p m s ∧ NewRequest p m s ∧ 958 ≤ m.length ∧ 1 ≤ msgField m 4 1 ∧ msgField m 4 1 ≤ 7 ∧ ((∀ x ∈ nibbles ((m.drop 6).take 952), x ≤ 10)) ∧ (nibbles ((m.drop 6).take 952)).sum ≤ 9520) ∧
    (∃ (p : Port) (m : List Byte) (s : State),
    TunnelHeard 0x41 p m s ∧ NewRequest p m s ∧ msgField m 4 1 ≤ 3 ∧ msgField m 5 1 = 0 ∧ 456 ≤ m.length ∧ ((∀ x ∈ nibbles ((m.drop 6).take 450), x ≤ 8)) ∧ (nibbles ((m.drop 6).take 450)).sum ≤ 3380) ∧
    (∃ (p : Port) (d : Desc) (seq : Nat) (s : State),
    (s.rg p).usPend.find? (fun x => !s.profNamed p x.1.profile) = some (d, seq) ∧ d.profile ≤ 3) ∧
    (∃ (p : Port) (m : List Byte) (s : State),
    TunnelHeard 0x42 p m s ∧ msgField m 4 1 ≤ 3 ∧ 906 ≤ m.length) := by
  refine ⟨⟨.portA, sm 6 5 [3, 4], st 4 ((w.set (Pg.LFR .portA) (LFR0.PROF_GEN_CUR_VALID 2) 1).set (Pg.LFR .portA) (LFR0.PROF_GEN_CURRENT 2) 4), by unfold ShortHeard NewRequest; decide +kernel⟩,
    ⟨.portA, sm 7 5 [63, 0, 0, 9, 0, 0, 1, 0, 0, 5], st 4 w, by unfold ShortHeard NewRequest; decide +kernel⟩,
    ⟨.portA, tl 0x40 5 ([7, 9] ++ List.replicate 952 0x55), st 4 w, by unfold TunnelHeard NewRequest; decide +kernel⟩,
    ⟨.portA, tl 0x41 5 ([3, 0] ++ List.replicate 450 0x12), st 4 w, by unfold TunnelHeard NewRequest; decide +kernel⟩,
    ⟨.portA, ⟨3, 0, List.replicate 900 2, none⟩, 5, rg (fun r => { r with usPend := [(⟨3, 0, List.replicate 900 2, none⟩, 5)] }) w, by decide +kernel⟩,
    ⟨.portA, tl 0x42 5 ([2, 0] ++ List.replicate 900 0x12), st 4 w, by unfold TunnelHeard; decide +kernel⟩⟩

/-- The hypotheses of `Obligations.LineMessages` can be met, clause by clause. -/
theorem witness_KeyMuteAndDozeMessages :
    (∃ (p : Port) (m : List Byte) (s : State),
    TunnelHeard 0x43 p m s ∧ NewRequest p m s ∧ msgField m 4 1 ≤ 1 ∧ 0x5D ≤ m.length ∧ s.bit Pg.SEC SEC0.RNG_STAT_DRBG_ERROR = false ∧ s.identitySigns = true) ∧
    (∃ (p : Port) (m : List Byte) (s : State),
    ShortHeard 8 p m s ∧ NewRequest p m s ∧ msgField m 4 1 ≤ 1 ∧ s.assigns p = true ∧ (s.lineKey p (msgField m 4 1)).up.isSome = true) ∧
    (∃ (p : Port) (m : List Byte) (s : State),
    ShortHeard 9 p m s ∧ NewRequest p m s ∧ s.regSt p ≠ RegSt.mute) ∧
    (∃ (p : Port) (m : List Byte) (s : State),
    ShortHeard 10 p m s ∧ NewRequest p m s ∧ s.regSt p = RegSt.mute ∧ (s.rg p).muteRemote = some (s.get (Pg.LFR p) LFR0.TREE) ∧ (s.rg p).muteLocal = false) ∧
    (∃ (p : Port) (m : List Byte) (tree : Nat) (s : State),
    ShortHeard 10 p m s ∧ NewRequest p m s ∧ (s.rg p).muteRemote = some tree ∧ tree ≠ s.get (Pg.LFR p) LFR0.TREE) ∧
    (∃ (p : Port) (m : List Byte) (s : State),
    ShortHeard 12 p m s ∧ NewRequest p m s ∧ msgField m 4 1 = 0 ∧ (s.rg p).unsol.any (fun u => decide (u.type = 0x84) && decide (u.seq = msgField m 5 1)) = true ∧ (s.rg p).dozeEnd = false ∧ s.regSt p = RegSt.work) ∧
    (∃ (p : Port) (m : List Byte) (s : State),
    ShortHeard 12 p m s ∧ NewRequest p m s ∧ msgField m 4 1 = 2) ∧
    (∃ (p : Port) (m : List Byte) (s : State),
    ShortHeard 13 p m s) ∧
    (∃ (p : Port) (s : State),
    s.running (Tm.resend p) = true) ∧
    (∃ (p : Port) (s : State),
    (s.rg p).doze = true ∧ s.portBacklog p = true) ∧
    (∃ (p : Port) (pl : List Byte) (rest : List (Nat × List Byte)) (s : State),
    (s.down p).tunnelIn = (0, pl) :: rest ∧ s.assigns p = true ∧ 8 ≤ pl.length ∧ msgField pl 2 2 ≤ pl.length - 8 ∧ 0x40 ≤ msgField pl 0 1 ∧ msgField pl 0 1 ≤ 0x43) ∧
    (∃ (p : Port) (pl : List Byte) (rest : List (Nat × List Byte)) (s : State),
    (s.down p).tunnelIn = (0, pl) :: rest ∧ ((pl.length < 8 ∨ pl.length - 8 < msgField pl 2 2 ∨ msgField pl 0 1 < 0x40 ∨ 0x43 < msgField pl 0 1))) ∧
    (∃ (p : Port) (port : Nat) (pl : List Byte) (rest : List (Nat × List Byte)) (s : State),
    (s.down p).tunnelIn = (port, pl) :: rest ∧ port ≠ 0) := by
  refine ⟨⟨.portA, tl 0x43 5 ([1] ++ List.replicate 88 0x12), st 4 w, by unfold TunnelHeard NewRequest; decide +kernel⟩,
    ⟨.portA, sm 8 5 [1, 0, 0, 0, 0, 0, 1, 0], st 4 { w with ciph := { w.ciph with keys := [(1, ⟨some ⟨List.replicate 32 1, 0, []⟩, some ⟨List.replicate 32 2, 0⟩⟩)] } }, by unfold ShortHeard NewRequest; decide +kernel⟩,
    ⟨.portA, sm 9 5 [], st 4 w, by unfold ShortHeard NewRequest; decide +kernel⟩,
    ⟨.portA, sm 10 5 [], st 6 (rg (fun r => { r with muteRemote := some 0 }) w), by unfold ShortHeard NewRequest; decide +kernel⟩,
    ⟨.portA, sm 10 5 [], 7, st 6 (rg (fun r => { r with muteRemote := some 7 }) w), by unfold ShortHeard NewRequest; decide +kernel⟩,
    ⟨.portA, sm 12 5 [0, 3, 0, 9], st 4 (rg (fun r => { r with dozeAsked := true, dozeSeq := 3, unsol := [⟨0x84, 3, false, [1], 1⟩] }) w), by unfold ShortHeard NewRequest; decide +kernel⟩,
    ⟨.portA, sm 12 5 [2, 3, 0, 9], st 4 w, by unfold ShortHeard NewRequest; decide +kernel⟩,
    ⟨.portA, sm 13 5 [0x82, 7], st 4 <| rg (fun r => { r with unsol := [⟨0x82, 7, false, [1], 1⟩, ⟨0x82, 8, false, [1], 1⟩] }) w, by unfold ShortHeard; decide +kernel⟩,
    ⟨.portA, tm (Tm.resend .portA) (rg (fun r => { r with unsol := [⟨0x82, 7, false, [1], 8⟩, ⟨0x82, 8, false, [1], 7⟩] }) w), by decide +kernel⟩,
    ⟨.portA, rg (fun r => { r with doze := true }) (up (fun u => { u with open_ := [(3, some ⟨.fw [], 0, false, false, 0, [], 0, 0, false, none⟩)] }) w), by decide +kernel⟩,
    ⟨.portA, tmsg (tl 0x40 5 ([7, 9, 1, 2] ++ [1, 2])), [], st 4 (dn (fun d => { d with tunnelIn := [(0, tmsg (tl 0x40 5 ([7, 9, 1, 2] ++ [1, 2])))] }) w), by decide +kernel⟩,
    ⟨.portA, [0x40, 5, 0, 9, 1, 2, 3, 4], [], st 4 (dn (fun d => { d with tunnelIn := [(0, [0x40, 5, 0, 9, 1, 2, 3, 4])] }) w), by decide +kernel⟩,
    ⟨.portA, 3, [7], [], dn (fun d => { d with tunnelIn := [(3, [7])] }) w, by decide +kernel⟩⟩

/-- The hypotheses of `Obligations.LineMailboxCommands` can be met, clause by clause. -/
theorem witness_LineMailboxCommands :
    (∃ (ch : Chan) (tag : Byte) (args : List Word) (s : State),
    MbxOpen ch s ∧ ((argWord args 1 / 2 % 2 = 1 → s.feat 14 = true)) ∧ ((s.gen1 (argPort args) = decide (argWord args 1 / 2 % 2 = 1) ∨ s.fnIs (.line (argPort args)) .off = true))) ∧
    (∃ (ch : Chan) (tag : Byte) (args : List Word) (s : State),
    MbxOpen ch s ∧ s.dualPermits (argPort args) = true ∧ s.coreMoves (argPort args) = false) ∧
    (∃ (ch : Chan) (tag : Byte) (args : List Word) (s : State),
    MbxOpen ch s ∧ argWord args 1 / 2 ^ 8 % 2 = 0) ∧
    (∃ (ch : Chan) (tag : Byte) (args : List Word) (s : State),
    MbxOpen ch s ∧ ((argWord args 1 / 2 ^ 9 % 2 = 1 → ch = .ch0)) ∧ s.coreMoves (argPort args) = false) ∧
    (∃ (ch : Chan) (tag : Byte) (args : List Word) (s : State),
    MbxOpen ch s ∧ argWord args 1 % 4 ≠ 3 ∧ argWord args 2 / 2 ^ 24 % 16 ≠ 0 ∧ ((argWord args 1 % 4 ≠ 0 → s.feat 4 = true)) ∧ s.pastListen .portA = false ∧ s.pastListen .portB = false) ∧
    (∃ (ch : Chan) (tag : Byte) (args : List Word) (s : State),
    MbxOpen ch s ∧ s.dual.mode = 2 ∧ argWord args 1 % 16 ≤ 3) := by
  refine ⟨⟨.ch0, 1, [0x502, 77], w, by unfold MbxOpen Granted; decide +kernel⟩,
    ⟨.ch0, 1, [0x100], w, by unfold MbxOpen Granted; decide +kernel⟩,
    ⟨.ch0, 1, [0], w, by unfold MbxOpen Granted; decide +kernel⟩,
    ⟨.ch0, 1, [0x300], st 4 (rg (fun r => { r with muteRemote := some 7 }) w), by unfold MbxOpen Granted; decide +kernel⟩,
    ⟨.ch0, 1, [0x32, 0x03000005], w, by unfold MbxOpen Granted; decide +kernel⟩,
    ⟨.ch0, 1, [0x12], { w with dual := { w.dual with mode := 2 } }, by unfold MbxOpen Granted; decide +kernel⟩⟩

/-- The hypotheses of `Obligations.ProtectionSwitching` can be met, clause by clause. -/
theorem witness_ProtectionSwitching :
    (∃ (s : State),
    s.dual.mode = 2 ∧ s.dual.cmd.1 = 0 ∧ s.dual.wtrDone = false ∧ s.headReq .portA = [] ∧ s.headReq .portB = [] ∧ s.localSf s.dual.working = true ∧ s.localSf s.dual.working.other = false) ∧
    (∃ (s : State),
    s.running Tm.holdoff = true ∧ s.localSf s.dual.working = true ∧ (s.apsReqs.filter (fun r => decide (r.1 = topRank s.apsReqs))) ≠ [] ∧ ((∀ r ∈ s.apsReqs, r.1 = topRank s.apsReqs → r.2.1 = s.dual.working.other))) ∧
    (∃ (p : Port) (s : State),
    s.dual.switchTo = some p) ∧
    (∃ (s : State),
    s.running Tm.wtr = true) := by
  refine ⟨⟨{ ((w.setDown .portB { w.down .portB with raw := [false,false,false,false,false,false] }).set (Pg.LFR .portB) LFR2.REG_STAT_STATE 4) with dual := { w.dual with mode := 2 } }, by decide +kernel⟩,
    ⟨tm Tm.holdoff { ((w.setDown .portB { w.down .portB with raw := [false,false,false,false,false,false] }).set (Pg.LFR .portB) LFR2.REG_STAT_STATE 4) with dual := { w.dual with mode := 2, holdoff := 3 } }, by decide +kernel⟩,
    ⟨.portB, { w with dual := { w.dual with mode := 2, switchTo := some .portB } }, by decide +kernel⟩,
    ⟨tm Tm.wtr w, by decide +kernel⟩⟩

/-- The hypotheses of `Obligations.NeedleMovesAndArithmetic` can be met, clause by clause. -/
theorem witness_NeedleMovesAndArithmetic :
    (∃ (n : Fin 8) (r q : NReg) (v : BitVec 16) (w : BitVec 24) (pd ps mk : Fin 8) (d g : Fin 16) (a : Fin 4) (s : State),
    s.ndlRuns n = true) ∧
    (∃ (n : Fin 8) (d q : Fin 16) (x : NX) (v : BitVec 16) (u s : State),
    s.ndlRuns n = true ∧ s.nx n x = .ok (v, u)) ∧
    (∃ (n : Fin 8) (d q : Fin 16) (k : NShift) (s : State),
    s.ndlRuns n = true) ∧
    (∃ (n : Fin 8) (d v : Fin 16) (e : NEa) (w : BitVec 16) (u s : State),
    s.ndlRuns n = true ∧ s.nmem n e = .ok (w, u)) ∧
    (∃ (n : Fin 8) (d v : Fin 16) (e : NEa) (a : Fin 4) (lo hi : BitVec 16) (u s : State),
    s.ndlRuns n = true ∧ s.npair n e = .ok (lo, hi, u)) ∧
    (∃ (n : Fin 8) (d : Fin 16) (e : NEa) (a : Fin 4) (s : State),
    s.ndlRuns n = true) ∧
    (∃ (n : Fin 8) (d q v : Fin 16) (e : NEa) (code : Nat) (s : State),
    s.ndlRuns n = true ∧ s.nmem n e = .error code) ∧
    (∃ (n : Fin 8) (d : Fin 16) (e : NEa) (s : State),
    s.ndlRuns n = true ∧ d.val % 2 = 1) := by
  refine ⟨⟨3, .d 3, .ix, 0x1234, 0x54321, 1, 2, 3, 4, 5, 2, nr w, by decide +kernel⟩,
    ⟨3, 4, 5, .reg 5, 0, nr w, nr w, by exact ⟨by decide +kernel, rfl⟩⟩,
    ⟨3, 4, 5, .imm 0, nd (fun x => { x with d := ((x.d.set 5 0x8765).set 7 17).set 8 8 }) (nr w), by decide +kernel⟩,
    ⟨3, 4, 5, ea, 0, nr w, nr w, by exact ⟨by decide +kernel, rfl⟩⟩,
    ⟨3, 4, 5, ea, 1, 0, 0, nr w, nr w, by exact ⟨by decide +kernel, rfl⟩⟩,
    ⟨3, 4, ea, 1, nr w, by decide +kernel⟩,
    ⟨3, 4, 5, 6, ea, 0x82, pt 0x7FFFFF (nr w), by exact ⟨by decide +kernel, rfl⟩⟩,
    ⟨3, 5, ea, nr w, by decide +kernel⟩⟩

/-- The hypotheses of `Obligations.NeedleAccumulatorsAndSearch` can be met, clause by clause. -/
theorem witness_NeedleAccumulatorsAndSearch :
    (∃ (n : Fin 8) (a : Fin 4) (x : NX) (y : Fin 16) (v : BitVec 16) (u s : State),
    s.ndlRuns n = true ∧ s.nx n x = .ok (v, u)) ∧
    (∃ (n : Fin 8) (a : Fin 4) (e f : NEa) (v w : BitVec 16) (u u' s : State),
    s.ndlRuns n = true ∧ s.nmem n e = .ok (v, u) ∧ u.nmem n f = .ok (w, u')) ∧
    (∃ (n : Fin 8) (a : Fin 4) (x y : NX) (xr xi yr yi : BitVec 16) (u u' s : State),
    s.ndlRuns n = true ∧ a.val % 2 = 0 ∧ s.nxp n x = .ok (xr, xi, u) ∧ u.nxp n y = .ok (yr, yi, u')) ∧
    (∃ (n : Fin 8) (a : Fin 4) (x : NX) (xr xi : BitVec 16) (u s : State),
    s.ndlRuns n = true ∧ s.nxp n x = .ok (xr, xi, u)) ∧
    (∃ (n : Fin 8) (a b : Fin 4) (v : BitVec 16) (s : State),
    s.ndlRuns n = true) ∧
    (∃ (n : Fin 8) (a : Fin 4) (k : Int) (s : State),
    s.ndlRuns n = true) ∧
    (∃ (n : Fin 8) (d q : Fin 16) (s : State),
    s.ndlRuns n = true) ∧
    (∃ (n : Fin 8) (a : Fin 4) (y : Fin 16) (e f : NEa) (code : Nat) (s : State),
    s.ndlRuns n = true ∧ s.nmem n e = .error code) ∧
    (∃ (n : Fin 8) (a : Fin 4) (x y : NX) (s : State),
    s.ndlRuns n = true) := by
  refine ⟨⟨3, 1, .reg 5, 4, 0, nr w, nr w, by exact ⟨by decide +kernel, rfl⟩⟩,
    ⟨3, 1, ea, ea, 0, 0, nr w, nr w, nr w, by exact ⟨by decide +kernel, rfl, rfl⟩⟩,
    ⟨3, 2, .reg 4, .reg 6, 0, 0, 0, 0, nr w, nr w, nr w, by exact ⟨by decide +kernel, by decide +kernel, rfl, rfl⟩⟩,
    ⟨3, 2, .reg 4, 0, 0x8000, nd (fun x => { x with d := (x.d.set 5 0x8000).set 6 0x7FFF }) (nr w), nd (fun x => { x with d := (x.d.set 5 0x8000).set 6 0x7FFF }) (nr w), by exact ⟨by decide +kernel, rfl⟩⟩,
    ⟨3, 2, 3, 0x8001, nd (fun x => { x with ac := (x.ac.set 2 0x7FFFFFFFFF).set 3 0x123456789, accW := [3] }) (nr w), by decide +kernel⟩,
    ⟨3, 2, (-16), nd (fun x => { x with ac := (x.ac.set 2 0xFFFFFF8001).set 3 0x123456789, accW := [2] }) (nr w), by decide +kernel⟩,
    ⟨3, 4, 5, nr w, by decide +kernel⟩,
    ⟨3, 1, 4, ea, ea, 0x82, pt 0x7FFFFF (nr w), by exact ⟨by decide +kernel, rfl⟩⟩,
    ⟨3, 1, .reg 4, .reg 5, nr w, by decide +kernel⟩⟩

/-- The hypotheses of `Obligations.NeedleFlowRunsAndKernels` can be met, clause by clause. -/
theorem witness_NeedleFlowClaimsAndMoves :
    (∃ (n : Fin 8) (cond : NCond) (to_ : BitVec 14) (s : State),
    s.ndlRuns n = true ∧ (s.eng n).rep = none) ∧
    (∃ (n : Fin 8) (to_ : BitVec 14) (s : State),
    s.ndlRuns n = true ∧ (s.eng n).rep = none) ∧
    (∃ (n : Fin 8) (s : State),
    s.ndlRuns n = true ∧ (s.eng n).rep = none) ∧
    (∃ (n : Fin 8) (k : Fin 2) (c : NCount) (end_ : BitVec 14) (s : State),
    s.ndlRuns n = true ∧ (s.eng n).rep = none) ∧
    (∃ (n : Fin 8) (c : NCount) (s : State),
    s.ndlRuns n = true ∧ s.ncount n c ≠ 0) ∧
    (∃ (n : Fin 8) (c : NCount) (s : State),
    s.ndlRuns n = true ∧ s.ncount n c = 0) ∧
    (∃ (n : Fin 8) (mask : BitVec 8) (code : Byte) (p : Fin 8) (slot : Fin 16) (s : State),
    s.ndlRuns n = true) ∧
    (∃ (n pd ps : Fin 8) (d : Fin 16) (s : State),
    s.ndlRuns n = true ∧ (s.eng n).rep = none) ∧
    (∃ (n : Fin 8) (m : NMove) (rest : List NMove) (ws : List (BitVec 16)) (u s : State),
    (s.eng n).moves = m :: rest ∧ s.reload.phase = .idle ∧ s.moveRead n m.src (2 * m.pairs) = (ws, false, u)) ∧
    (∃ (n : Fin 8) (m : NMove) (rest : List NMove) (ws : List (BitVec 16)) (u s : State),
    (s.eng n).moves = m :: rest ∧ s.reload.phase = .idle ∧ s.moveRead n m.src (2 * m.pairs) = (ws, true, u)) ∧
    (∃ (n : Fin 8) (s : State),
    s.ndlRuns n = true ∧ (s.eng n).rep = none) ∧
    (∃ (n : Fin 8) (s : State),
    s.ndlRuns n = true ∧ s.reload.phase = .idle) ∧
    (∃ (n : Fin 8) (cond : NCond) (to_ : BitVec 14) (k : Fin 2) (c : NCount) (pd ps : Fin 8) (d : Fin 16) (s : State),
    s.ndlRuns n = true ∧ (s.eng n).rep ≠ none) := by
  refine ⟨⟨3, .al, 77, nr w, by decide +kernel⟩,
    ⟨3, 77, nr w, by decide +kernel⟩,
    ⟨3, nr w, by decide +kernel⟩,
    ⟨3, 1, .imm 5, 9, nr w, by decide +kernel⟩,
    ⟨3, .imm 5, nr w, by decide +kernel⟩,
    ⟨3, .imm 0, nr w, by decide +kernel⟩,
    ⟨3, 0xFF, 7, 2, 3, nr w, by decide +kernel⟩,
    ⟨3, 1, 2, 4, nr w, by decide +kernel⟩,
    ⟨3, ⟨0x100, 0x200, 1, 0⟩, [], ((nd (fun x => { x with moves := [⟨0x100, 0x200, 1, 0⟩] }) (nr w)).moveRead 3 0x200 2).1, ((nd (fun x => { x with moves := [⟨0x100, 0x200, 1, 0⟩] }) (nr w)).moveRead 3 0x200 2).2.2, nd (fun x => { x with moves := [⟨0x100, 0x200, 1, 0⟩] }) (nr w), by decide +kernel⟩,
    ⟨3, ⟨0x100, 0x800000, 1, 0⟩, [], (moveHit.moveRead 3 0x800000 2).1, (moveHit.moveRead 3 0x800000 2).2.2, moveHit, by exact ⟨rfl, rfl, Prod.ext rfl (Prod.ext (by decide +kernel) rfl)⟩⟩,
    ⟨3, nr w, by decide +kernel⟩,
    ⟨3, nr w, by decide +kernel⟩,
    ⟨3, .al, 7, 1, .imm 4, 1, 2, 4, nd (fun x => { x with rep := some 3 }) (nr w), by decide +kernel⟩⟩

/-- The hypotheses of `Obligations.NeedleFlowRunsAndKernels` can be met, clause by clause. -/
theorem witness_NeedleRunsAndKernels :
    (∃ (src : Source) (n : Fin 8) (val : Word) (s : State),
    Granted src (Pg.NDL n + NDL.KICK.off) true s) ∧
    (∃ (n : Fin 8) (s : State),
    s.ndlBusy n = true) ∧
    (∃ (n : Fin 8) (s : State),
    s.ndlRuns n = true) ∧
    (∃ (n : Fin 8) (d q v : Fin 16) (x y : NX) (e f : NEa) (a b : Fin 4) (s : State),
    s.ndlRuns n = false) ∧
    (∃ (ch : Chan) (tag : Byte) (s : State),
    MbxOpen ch s) ∧
    (∃ (ch : Chan) (tag : Byte) (args : List Word) (s : State),
    MbxOpen ch s) ∧
    (∃ (tag : Byte) (args : List Word) (image : List Byte) (n : Fin 8) (k : NKernel) (s : State),
    MbxOpen .ch0 s ∧ spareEngine args = some n ∧ argWord args 4 ≤ image.length ∧ s.userKernels = true ∧ s.ndlCustomer (Pg.NDL n) = true ∧ s.imageCheck 3 (image.take (argWord args 4)) = none ∧ kernelOf (image.take (argWord args 4)) = some k) ∧
    (∃ (tag : Byte) (args : List Word) (image : List Byte) (n : Fin 8) (s : State),
    MbxOpen .ch0 s ∧ spareEngine args = some n ∧ argWord args 4 ≤ image.length ∧ (s.userKernels && s.ndlCustomer (Pg.NDL n)) = false) := by
  refine ⟨⟨.hook 0, 3, 1, ((on (.ndl 3) .running w).set (Pg.NDL 3) NDL.TRIG_EN 1).set (Pg.NDL 3) NDL.TRIG_SRC 3, by unfold Granted; decide +kernel⟩,
    ⟨3, nr w, by decide +kernel⟩,
    ⟨3, nr w, by decide +kernel⟩,
    ⟨3, 1, 2, 3, .reg 4, .reg 5, ea, ea, 1, 2, w, by decide +kernel⟩,
    ⟨.ch0, 1, w, by unfold MbxOpen Granted; decide +kernel⟩,
    ⟨.ch0, 1, [6], w, by unfold MbxOpen Granted; decide +kernel⟩,
    ⟨1, [6, 0, 0, 400], kimg, 6, ⟨5, 0, [0], [], [], [], 0, 0, 0, 0, 0⟩, custom (keyed (on (.ndl 6) .off w)), by exact ⟨by unfold MbxOpen Granted; decide +kernel, by decide +kernel, by decide +kernel, by decide +kernel, by decide +kernel, by rw [show kimg.take (argWord [6, 0, 0, 400] 4) = kimg by decide +kernel]; refine (imageCheck_of_fuses (s' := keyed w) ?_ 3 kimg).trans test_kernel_verifies; decide +kernel, by decide +kernel⟩⟩,
    ⟨1, [6, 0, 0, 4], [1,2,3,4], 6, w, by unfold MbxOpen Granted; decide +kernel⟩⟩

/-- The hypotheses of `Obligations.LiveReloadKeepsEveryTrigger` can be met, clause by clause. -/
theorem witness_LiveReloadKeepsEveryTrigger :
    (∃ (i : ImgInfo) (n : Fin 8) (rest : List (Fin 8)) (s : State),
    s.fnIs (.ndl n) .running = true ∧ s.fnIs (.ndl 5) .off = true ∧ n ≠ 5) ∧
    (∃ (n : Fin 8) (s : State),
    s.ndlRuns n = true ∧ (s.eng n).moves = [] ∧ s.reload.phase = .covered n ∧ n ≠ 5 ∧ s.fnIs (.ndl n) .running = true ∧ s.fnIs (.ndl 5) .running = true ∧ s.ndlBusy 5 = false ∧ s.ndlMayRun 5 = true) ∧
    (∃ (n : Fin 8) (src : Nat) (s : State),
    s.reload.phase = .routed n ∧ s.fnIs (.ndl 5) .running = true ∧ s.ndlMayRun 5 = true ∧ s.bit (Pg.NDL n) NDL.TRIG_EN = true ∧ s.get (Pg.NDL n) NDL.TRIG_SRC = src) ∧
    (∃ (n : Fin 8) (i : ImgInfo) (s : State),
    s.reload.phase = .routed n ∧ s.reload.loaded = false ∧ n ≠ 5 ∧ s.fn (.ndl n) = ⟨.bindingOff, false, (s.fn (.ndl n)).code⟩ ∧ s.ndlBusy n = false ∧ (s.eng n).next = none ∧ s.boot.kernels = some i) ∧
    (∃ (n : Fin 8) (s : State),
    s.reload.phase = .routed n ∧ s.reload.loaded = true ∧ n.val < 5 ∧ s.fnIs (.ndl n) .castingOn = true ∧ (s.ndlKernel n).isSome = true ∧ s.fnIs (.ndl 5) .running = true ∧ s.ndlBusy 5 = false ∧ s.ndlPend 5 = false) := by
  refine ⟨⟨⟨5, 2, []⟩, 2, [3], on (.ndl 2) .running w, by decide +kernel⟩,
    ⟨3, covered .covered (nr w), by decide +kernel⟩,
    ⟨3, 2, ((covered .routed w).set (Pg.NDL 3) NDL.TRIG_EN 1).set (Pg.NDL 3) NDL.TRIG_SRC 2, by decide +kernel⟩,
    ⟨3, ⟨5, 2, []⟩, { (on (.ndl 3) .bindingOff (covered .routed w)) with boot := { w.boot with kernels := some ⟨5, 2, []⟩ } }, by decide +kernel⟩,
    ⟨3, on (.ndl 3) .castingOn { (covered .routed w) with reload := ⟨.routed 3, true, []⟩ }, by decide +kernel⟩⟩

/-- The hypotheses of `Obligations.GaugeCommands` can be met, clause by clause. -/
theorem witness_GaugeCommands :
    (∃ (p : Port) (s : State),
    (s.gaugeOf p).fit = none) ∧
    (∃ (p : Port) (s : State),
    (s.gaugeOf p).fit ≠ none) ∧
    (∃ (p : Port) (optics : List Rat) (f : GaugeFit) (s : State),
    (s.gaugeOf p).fit = some f ∧ ((f.abandoned = true ∨ (s.modem p).powers = [] ∨ 500000000 < s.clock.cycles - (s.modem p).powersAt))) ∧
    (∃ (p : Port) (optics : List Rat) (f : GaugeFit) (s : State),
    (s.gaugeOf p).fit = some f ∧ f.abandoned = false ∧ s.powerStale p = false) ∧
    (∃ (p : Port) (optics : List Rat) (s : State),
    (s.gaugeOf p).fit = none) ∧
    (∃ (p : Port) (s : State),
    s.bit (Pg.GAUGE p) GAUGE.STAT_VALID = true ∧ ((s.get (Pg.GAUGE p) GAUGE.STALE < s.gaugeAge p ∨ s.inWork p = false ∨ s.fnIs (.line p) .running = false ∨
      s.bit (Pg.GAUGE p) GAUGE.CTRL_EN = false ∨
      256000 < ((s.tport p).rtd.getD 0 - (s.gaugeOf p).rtd).natAbs))) := by
  refine ⟨⟨.portA, w, by decide +kernel⟩,
    ⟨.portA, gg (fun x => { x with fit := some ⟨[], 5, false⟩ }) w, by decide +kernel⟩,
    ⟨.portA, [1, 0, 0, 0, 0], ⟨w.rdWords (Pg.GAUGE .portA + 0x40) 8, 5, false⟩, gg (fun x => { x with fit := some ⟨w.rdWords (Pg.GAUGE .portA + 0x40) 8, 5, false⟩ }) w, by decide +kernel⟩,
    ⟨.portA, [1, 0, 0, 0, 0], ⟨w.rdWords (Pg.GAUGE .portA + 0x40) 8, 5, false⟩, gg (fun x => { x with fit := some ⟨w.rdWords (Pg.GAUGE .portA + 0x40) 8, 5, false⟩ }) (mo (fun m => { m with powers := [[1]], powersAt := 0 }) w), by decide +kernel⟩,
    ⟨.portA, [1, 0, 0, 0, 0], w, by decide +kernel⟩,
    ⟨.portA, w.set (Pg.GAUGE .portA) GAUGE.STAT_VALID 1, by decide +kernel⟩⟩

/-- The hypotheses of `Obligations.FramesAreClassified` can be met, clause by clause. -/
theorem witness_FramesAreClassified :
    (∃ (ing : Fin 8) (s : State),
    s.bit Pg.CLS CLS0.HUSH_REQ = true) ∧
    (∃ (ing : Fin 8) (k : Pkt) (ks : List Pkt) (s : State),
    s.bit Pg.CLS CLS0.HUSH_REQ = false ∧ s.domIsOff .core = false ∧ 2 ≤ ing.val ∧ s.inq ing.val = k :: ks ∧ k.ingress = ing.val) := by
  refine ⟨⟨3, w.set Pg.CLS CLS0.HUSH_REQ 1, by decide +kernel⟩,
    ⟨3, fr 3 eth, [], waits (fr 3 eth) w, by decide +kernel⟩⟩

/-- The hypotheses of `Obligations.TablesAndHush` can be met, clause by clause. -/
theorem witness_FlowTableCommands :
    (∃ (src : Source) (val : Word) (s : State),
    Granted src (Pg.CLS + CLS0.FT_CMD.off) true s ∧ s.bit Pg.CLS CLS0.FT_STAT_BUSY = false ∧ CLS0.FT_CMD_OP.get val = 1) ∧
    (∃ (src : Source) (val : Word) (s : State),
    Granted src (Pg.CLS + CLS0.FT_CMD.off) true s ∧ s.bit Pg.CLS CLS0.FT_STAT_BUSY = false ∧ CLS0.FT_CMD_OP.get val = 2) ∧
    (∃ (src : Source) (val : Word) (s : State),
    Granted src (Pg.CLS + CLS0.FT_CMD.off) true s ∧ s.bit Pg.CLS CLS0.FT_STAT_BUSY = false ∧ CLS0.FT_CMD_OP.get val = 3 ∧ entryGood s.ftStaged = true) ∧
    (∃ (src : Source) (val : Word) (s : State),
    Granted src (Pg.CLS + CLS0.FT_CMD.off) true s ∧ s.bit Pg.CLS CLS0.FT_STAT_BUSY = false ∧ CLS0.FT_CMD_OP.get val = 4) ∧
    (∃ (src : Source) (val : Word) (s : State),
    Granted src (Pg.CLS + CLS0.FT_CMD.off) true s ∧ s.bit Pg.CLS CLS0.FT_STAT_BUSY = false ∧ CLS0.FT_CMD_OP.get val = 5) ∧
    (∃ (res loc moves : Nat) (s : State),
    s.cls.cmd = some (res, loc, moves) ∧ s.get Pg.CLS CLS0.FT_STAT_BUSY = 1) ∧
    (∃ (location : Fin 524288) (e : List Byte) (s : State),
    s.cls.cache.find? (fun c => decide (c.1 = location.val)) = some (location.val, e)) ∧
    (∃ (src : Source) (val : Word) (s : State),
    Granted src (Pg.CLS + CLS0.FT_CMD.off) true s ∧ s.bit Pg.CLS CLS0.FT_STAT_BUSY = false ∧ ((CLS0.FT_CMD_OP.get val = 0 ∨ 5 < CLS0.FT_CMD_OP.get val))) := by
  refine ⟨⟨.pf0, 1, w, by unfold Granted; decide +kernel⟩,
    ⟨.pf0, 2, w, by unfold Granted; decide +kernel⟩,
    ⟨.pf0, 3, staged w, by unfold Granted; decide +kernel⟩,
    ⟨.pf0, 4, staged w, by unfold Granted; decide +kernel⟩,
    ⟨.pf0, 0x1000055, staged w, by unfold Granted; decide +kernel⟩,
    ⟨3, 5, 2, cl (fun c => { c with cmd := some (3, 5, 2) }) (w.set Pg.CLS CLS0.FT_STAT_BUSY 1), by decide +kernel⟩,
    ⟨9, ent, cl (fun c => { c with cache := [(9, ent)] }) w, by decide +kernel⟩,
    ⟨.pf0, 0x1000050, w, by unfold Granted; decide +kernel⟩⟩

/-- The hypotheses of `Obligations.TablesAndHush` can be met, clause by clause. -/
theorem witness_RulesRssAndHush :
    (∃ (src : Source) (val : Word) (s : State),
    Granted src (Pg.CLS + CLS0.RULE_CMD.off) true s ∧ CLS0.RULE_CMD_OP.get val = 1 ∧ ((CLS0.RULE_CMD_INDEX.get val < 64 → src.isHook = true))) ∧
    (∃ (src : Source) (val : Word) (s : State),
    Granted src (Pg.CLS + CLS0.RULE_CMD.off) true s ∧ ((CLS0.RULE_CMD_INDEX.get val < 64 ∧ src.isHook = false)) ∧ CLS0.RULE_CMD_OP.get val = 1) ∧
    (∃ (src : Source) (val : Word) (s : State),
    Granted src (Pg.CLS + CLS0.RULE_CMD.off) true s ∧ CLS0.RULE_CMD_OP.get val = 2 ∧ ((CLS0.RULE_CMD_INDEX.get val < 64 → src.isHook = true))) ∧
    (∃ (src : Source) (val : Word) (s : State),
    Granted src (Pg.CLS + CLS0.RULE_CMD.off) true s ∧ CLS0.RULE_CMD_OP.get val = 3 ∧ ((CLS0.RULE_CMD_INDEX.get val < 64 → src.isHook = true))) ∧
    (∃ (src : Source) (val : Word) (s : State),
    Granted src (Pg.CLS + CLS0.RULE_CMD.off) true s ∧ ((CLS0.RULE_CMD_OP.get val = 0 ∨ 3 < CLS0.RULE_CMD_OP.get val))) ∧
    (∃ (src : Source) (s : State),
    Granted src (Pg.CLS + CLS0.RSS_DATA.off) false s ∧ s.get Pg.CLS CLS0.RSS_SEL_FUNC < 254) ∧
    (∃ (src : Source) (v : Word) (s : State),
    Granted src (Pg.CLS + CLS0.RSS_DATA.off) true s ∧ s.get Pg.CLS CLS0.RSS_SEL_FUNC < 254) ∧
    (∃ (src : Source) (val : Word) (s : State),
    Granted src (Pg.CLS + CLS0.HUSH.off) true s ∧ val.toNat % 2 = 1) ∧
    (∃ (s : State),
    s.bit Pg.CLS CLS0.HUSH_REQ = true ∧ s.bit Pg.CLS CLS0.HUSH_STAT_HUSHED = false) ∧
    (∃ (src : Source) (val : Word) (s : State),
    Granted src (Pg.CLS + CLS0.HUSH.off) true s ∧ val.toNat % 2 = 0 ∧ s.bit Pg.CLS CLS0.HUSH_REQ = true) ∧
    (∃ (s : State),
    s.running Tm.hush = true) := by
  refine ⟨⟨.hook 0, 0x10005, w, by unfold Granted; decide +kernel⟩,
    ⟨.pf0, 0x10005, w, by unfold Granted; decide +kernel⟩,
    ⟨.pf0, 0x20050, w, by unfold Granted; decide +kernel⟩,
    ⟨.pf0, 0x30050, cl (fun c => { c with rules := [(0x50, some ⟨3, 4, 5⟩)] }) w, by unfold Granted; decide +kernel⟩,
    ⟨.pf0, 0x40005, w, by unfold Granted; decide +kernel⟩,
    ⟨.pf0, w, by unfold Granted; decide +kernel⟩,
    ⟨.pf0, 0xFFFFFFFF, w.set Pg.CLS CLS0.RSS_SEL_INDEX 511, by unfold Granted; decide +kernel⟩,
    ⟨.pf0, 0x101, w, by unfold Granted; decide +kernel⟩,
    ⟨w.set Pg.CLS CLS0.HUSH_REQ 1, by decide +kernel⟩,
    ⟨.pf0, 0x100, w.set Pg.CLS CLS0.HUSH_REQ 1, by unfold Granted; decide +kernel⟩,
    ⟨cl (fun c => { c with hushAt := some 0 }) (tm Tm.hush (w.set Pg.CLS CLS0.HUSH_REQ 1)), by decide +kernel⟩⟩

/-- The hypotheses of `Obligations.FramesAreQueuedAndReleased` can be met, clause by clause. -/
theorem witness_FramesAreQueuedAndReleased :
    (∃ (c : CPkt) (rest : List CPkt) (s : State),
    s.cls.outq = c :: rest ∧ c.policer = none ∧ s.launchOf c.pkt = none ∧ ((s.feat 2 = false ∨ c.dl = none))) ∧
    (∃ (c : CPkt) (rest : List CPkt) (cl : Fin 8) (s : State),
    s.cls.outq = c :: rest ∧ c.policer = none ∧ s.launchOf c.pkt = none ∧ s.feat 2 = true ∧ c.dl = some cl.val ∧ s.queueEgress c.queue ≤ 128) ∧
    (∃ (egress : Fin 134) (sub : Fin 131072) (s : State),
    egress.val < 128) ∧
    (∃ (sub : Fin 131072) (p : Pick) (u s : State),
    s.pickNext 133 s.clock.cnt (fun q f => s.egressTakes 133 q f) = some (p, u) ∧ p.frame.c.pkt.poison = false) ∧
    (∃ (n : Fin 4) (sub : Fin 131072) (p : Pick) (u s : State),
    s.pickNext (129 + n.val) s.clock.cnt (fun q f => s.egressTakes (129 + n.val) q f) = some (p, u) ∧ p.frame.c.pkt.poison = false ∧ s.bit (Pg.SITE n) SITE.STAT_LPI_TX = true) ∧
    (∃ (egress : Fin 134) (sub : Fin 131072) (p : Pick) (u s : State),
    128 ≤ egress.val ∧ s.pickNext egress.val s.clock.cnt (fun q f => s.egressTakes egress.val q f) = some (p, u) ∧ p.frame.c.pkt.poison = true) ∧
    (∃ (queue : Fin 131072) (f : QFrame) (fs : List QFrame) (s : State),
    s.queue queue.val = f :: fs ∧ (s.classNode (s.queueClass queue.val)).stall = true ∧ s.egressTakes (s.classAt (s.queueClass queue.val)) queue.val f = false) := by
  refine ⟨⟨cp 5, [], cl (fun c => { c with outq := [cp 5] }) w, by decide +kernel⟩,
    ⟨{ cp 5 with dl := some 3 }, [], 3, cl (fun c => { c with outq := [{ cp 5 with dl := some 3 }] }) w, by decide +kernel⟩,
    ⟨127, 0, w, by decide +kernel⟩,
    ⟨0, pk0 133, plyUp (laned 133 (qf 5) w), plyUp (laned 133 (qf 5) w), by decide +kernel⟩,
    ⟨1, 0, pk0 130, (siteUp (laned 130 (qf 5) w)).set (Pg.SITE 1) SITE.STAT_LPI_TX 1, (siteUp (laned 130 (qf 5) w)).set (Pg.SITE 1) SITE.STAT_LPI_TX 1, by decide +kernel⟩,
    ⟨130, 0, { pk0 130 with frame := spoiled }, siteUp (laned 130 spoiled w), siteUp (laned 130 spoiled w), by decide +kernel⟩,
    ⟨5, qf 5, [], (queued 133 (qf 5) w).setNode (nodeKey Lvl.cls (133 * 16)) (node (2 ^ 28)), by decide +kernel⟩⟩

/-- The hypotheses of `Obligations.NodesPolicersAndDueTimes` can be met, clause by clause. -/
theorem witness_NodesPolicersAndDueTimes :
    (∃ (s : State),
    SMap.wf nodeReset s.sched.nodes = true ∧ SMap.wf polReset s.sched.pols = true) ∧
    (∃ (src : Source) (val : Word) (s : State),
    Granted src (Pg.SCHED + SCHED0.NODE_CMD.off) true s ∧ val.toNat % 4 = 1) ∧
    (∃ (src : Source) (val : Word) (s : State),
    Granted src (Pg.SCHED + SCHED0.NODE_CMD.off) true s ∧ val.toNat % 4 = 2) ∧
    (∃ (src : Source) (val : Word) (s : State),
    (val.toNat % 4 = 0 ∨ val.toNat % 4 = 3)) ∧
    (∃ (src : Source) (val : Word) (s : State),
    Granted src (Pg.METER + METER.POL_CMD.off) true s ∧ val.toNat % 4 = 1) ∧
    (∃ (src : Source) (val : Word) (s : State),
    Granted src (Pg.METER + METER.POL_CMD.off) true s ∧ val.toNat % 4 = 2) ∧
    (∃ (egress : Fin 129) (cl : Fin 8) (f : QFrame) (fs : List QFrame) (s : State),
    ((egress.val = 128 ∨ SMap.get (fun _ => none) (s.up (Port.ofNum (s.servedAt egress.val / 64))).open_
      (s.servedAt egress.val % 64) = none)) ∧ s.lane egress.val = f :: fs ∧ f.cls = cl.val ∧ f.late = false ∧ f.due ≤ s.clock.cnt ∧ ((∀ g ∈ fs, s.clock.cnt < g.due ∧ s.launchExpired g = false))) := by
  refine ⟨⟨queued 133 (qf 5) w, by decide +kernel⟩,
    ⟨.pf0, 1, w, by unfold Granted; decide +kernel⟩,
    ⟨.pf0, 2, w, by unfold Granted; decide +kernel⟩,
    ⟨.pf0, 3, w, by decide +kernel⟩,
    ⟨.pf0, 1, w, by unfold Granted; decide +kernel⟩,
    ⟨.pf0, 2, w.wr (Pg.METER + (METER.POL_DATA 0).off) 0xFFFFFFFF, by unfold Granted; decide +kernel⟩,
    ⟨128, 3, { qf 5 with cls := 3, due := 0, charge := 60 }, [], laned 128 { qf 5 with cls := 3, due := 0, charge := 60 } w, by decide +kernel⟩⟩

/-- The hypotheses of `Obligations.GatePatterns` can be met, clause by clause. -/
theorem witness_GatePatterns :
    (∃ (src : Source) (val : Word) (s : State),
    Granted src (Pg.PATTERN + PATTERN.CMD.off) true s ∧ val.toNat % 4 = 1 ∧ s.patSel ≤ 133) ∧
    (∃ (src : Source) (val : Word) (s : State),
    Granted src (Pg.PATTERN + PATTERN.CMD.off) true s ∧ val.toNat % 4 = 2 ∧ s.patSel ≤ 133) ∧
    (∃ (src : Source) (val : Word) (s : State),
    Granted src (Pg.PATTERN + PATTERN.CMD.off) true s ∧ ((133 < s.patSel ∨ val.toNat % 4 = 0 ∨ val.toNat % 4 = 3))) ∧
    (∃ (egress : Fin 134) (g : Gates) (s : State),
    (s.pattern egress.val).pending = some g) ∧
    (∃ (egress : Fin 134) (a : Gates) (s : State),
    (s.pattern egress.val).active = some a) ∧
    (∃ (src : Source) (val : Word) (s : State),
    Granted src (Pg.PATTERN + (PATTERN.ENT_DATA 1).off) true s ∧ s.patSel ≤ 133) := by
  refine ⟨⟨.pf0, 1, w, by unfold Granted; decide +kernel⟩,
    ⟨.pf0, 2, patSel 130 (w.setPattern 130 { w.pattern 130 with pending := some ⟨5, 1000, 2, [], 3, 3005⟩ }), by unfold Granted; decide +kernel⟩,
    ⟨.pf0, 3, patSel 130 w, by unfold Granted; decide +kernel⟩,
    ⟨130, ⟨5, 1000, 2, [], 3, 3005⟩, w.setPattern 130 { w.pattern 130 with pending := some ⟨5, 1000, 2, [], 3, 3005⟩, standby := [(0, (500, 3))] }, by decide +kernel⟩,
    ⟨130, ⟨0, 1000, 2, [(400, 3), (300, 4)], 3, 0⟩, w.setPattern 130 { w.pattern 130 with active := some ⟨0, 1000, 2, [(400, 3), (300, 4)], 3, 0⟩ }, by decide +kernel⟩,
    ⟨.pf0, 0x1FF, patSel 133 (w.set Pg.PATTERN PATTERN.ENT_INDEX 1023), by unfold Granted; decide +kernel⟩⟩

/-- The hypotheses of `Obligations.PoolsAndAllocations` can be met, clause by clause. -/
theorem witness_PoolsAndAllocations :
    (∃ (src : Source) (pool : Fin 16) (val : Word) (s : State),
    Granted src (Pg.SKEIN + (SKEIN.POOL_CTRL pool.val).off) true s ∧ 2 ^ 31 ≤ val.toNat ∧ s.poolEn pool.val = false ∧ (s.pool pool.val).draining = false) ∧
    (∃ (src : Source) (pool : Fin 16) (val : Word) (s : State),
    Granted src (Pg.SKEIN + (SKEIN.POOL_CTRL pool.val).off) true s ∧ 2 ^ 31 ≤ val.toNat ∧ s.poolEn pool.val = true ∧ (SKEIN.POOL_CTRL_SIZE pool.val).get val ≠ s.get Pg.SKEIN (SKEIN.POOL_CTRL_SIZE pool.val)) ∧
    (∃ (pool : Fin 16) (s : State),
    (s.pool pool.val).init = true) ∧
    (∃ (src : Source) (pool : Fin 16) (val : Word) (s : State),
    Granted src (Pg.SKEIN + (SKEIN.POOL_CTRL pool.val).off) true s ∧ val.toNat < 2 ^ 31 ∧ s.poolEn pool.val = true ∧ (SKEIN.POOL_CTRL_LOC pool.val).get val = s.get Pg.SKEIN (SKEIN.POOL_CTRL_LOC pool.val) ∧ (SKEIN.POOL_CTRL_SIZE pool.val).get val = s.get Pg.SKEIN (SKEIN.POOL_CTRL_SIZE pool.val) ∧ (SKEIN.POOL_CTRL_BM_BASE pool.val).get val = s.get Pg.SKEIN (SKEIN.POOL_CTRL_BM_BASE pool.val)) ∧
    (∃ (pool : Fin 16) (s : State),
    (s.pool pool.val).draining = true ∧ s.poolFree pool.val = s.poolCount pool.val) ∧
    (∃ (producer : Fin 10) (bytes : Fin 16385) (s : State),
    s.poolEn (s.prod producer.val % 16) = true ∧ (s.pool (s.prod producer.val % 16)).draining = false ∧ 0 < s.poolFree (s.prod producer.val % 16)) ∧
    (∃ (producer : Fin 10) (bytes : Fin 16385) (s : State),
    ((s.poolEn (s.prod producer.val % 16) = false ∨ (s.pool (s.prod producer.val % 16)).draining = true)) ∧ ((9 ≤ producer.val ∨ s.bit Pg.SKEIN (SKEIN.POOL_CTRL_LOC (s.prod producer.val % 16)) = false))) := by
  refine ⟨⟨.pf0, 3, 0x80000000, w, by unfold Granted; decide +kernel⟩,
    ⟨.pf0, 3, 0x81000000, pooled [] w, by unfold Granted; decide +kernel⟩,
    ⟨3, (pooled [] w).setPool 3 ⟨false, true, [], []⟩, by decide +kernel⟩,
    ⟨.pf0, 3, 0, pooled [] w, by unfold Granted; decide +kernel⟩,
    ⟨3, (pooled [] w).setPool 3 ⟨true, false, [], []⟩, by decide +kernel⟩,
    ⟨9, 100, produce (pooled [(0, some (4, 9)), (1, some (4, 9)), (3, some (4, 9))] w), by decide +kernel⟩,
    ⟨9, 100, produce w, by decide +kernel⟩⟩

/-- The hypotheses of `Obligations.FreesAndHandovers` can be met, clause by clause. -/
theorem witness_FreesAndHandovers :
    (∃ (src : Source) (o : Nat) (s : State),
    Granted src (Pg.SKEIN + SKEIN.ALLOC_LO.off) false s ∧ s.skeinOwner src = some o ∧ s.poolEn ((s.srcReg (Pg.SKEIN + SKEIN.ALLOC_SEL.off) src).toNat % 16) = true ∧ (s.pool ((s.srcReg (Pg.SKEIN + SKEIN.ALLOC_SEL.off) src).toNat % 16)).draining = false ∧ 0 < s.poolFree ((s.srcReg (Pg.SKEIN + SKEIN.ALLOC_SEL.off) src).toNat % 16)) ∧
    (∃ (src : Source) (s : State),
    Granted src (Pg.SKEIN + SKEIN.ALLOC_LO.off) false s ∧ s.skeinOwner src = none) ∧
    (∃ (src : Source) (val : Word) (o : Nat) (s : State),
    Granted src (Pg.SKEIN + SKEIN.FREE_HI.off) true s ∧ s.skeinOwner src = some o) ∧
    (∃ (src : Source) (val : Word) (s : State),
    Granted src (Pg.SKEIN + SKEIN.FREE_HI.off) true s ∧ s.skeinOwner src = none) ∧
    (∃ (caller : Fin 64) (handle : BitVec 40) (o : Nat) (s : State),
    s.checkHandle caller.val handle.toNat = (0, o) ∧ s.heldBuf (handlePool handle.toNat) (handleIndex handle.toNat) = false) ∧
    (∃ (caller : Fin 64) (handle : BitVec 40) (to_ : Fin 64) (o : Nat) (s : State),
    s.checkHandle caller.val handle.toNat = (0, o)) ∧
    (∃ (caller : Fin 64) (handle : BitVec 40) (r o : Nat) (f : Fn) (s : State),
    s.checkHandle caller.val handle.toNat = (r, o) ∧ r ≠ 0 ∧ ownerFn caller.val = some f ∧ s.fnIs f .off = false ∧ s.fnIs f .fault = false) ∧
    (∃ (caller : Fin 64) (handle : BitVec 40) (r o : Nat) (s : State),
    s.checkHandle caller.val handle.toNat = (r, o) ∧ r ≠ 0 ∧ ownerFn caller.val = none) := by
  refine ⟨⟨.hook 0, 10, (pooled [(0, some (4, 9))] w).setSrcReg (Pg.SKEIN + SKEIN.ALLOC_SEL.off) (.hook 0) 3, by unfold Granted; decide +kernel⟩,
    ⟨.pf1, w, by unfold Granted; decide +kernel⟩,
    ⟨.hook 0, 3, 10, pooled [] w, by unfold Granted; decide +kernel⟩,
    ⟨.pf1, 3, w, by unfold Granted; decide +kernel⟩,
    ⟨10, 0x300000209, 10, pooled [(2, some (10, 9))] w, by decide +kernel⟩,
    ⟨10, 0x300000209, 7, 10, pooled [(2, some (10, 9))] w, by decide +kernel⟩,
    ⟨3, 0x300000209, 5, 10, .site 1, on (.site 1) .running (pooled [(2, some (10, 9))] w), by decide +kernel⟩,
    ⟨11, 0x300000209, 5, 10, pooled [(2, some (10, 9))] w, by decide +kernel⟩⟩

/-- The hypotheses of `Obligations.PatrolsAndDarning` can be met, clause by clause. -/
theorem witness_PatrolsAndDarning :
    (∃ (rows : Nat) (s : State),
    s.bit Pg.MEM MEM0.SCRUB_EN = true ∧ s.mem.flips = [] ∧ s.mem.poison = []) ∧
    (∃ (off rows row : Nat) (s : State),
    s.bit Pg.MEM MEM0.SCRUB_EN = true ∧ off < 256 ∧ 0 < rows ∧ s.mem.flips = [] ∧ s.rowAt (s.get Pg.MEM MEM0.SCRUB_POS % s.patrolRows) = some row) ∧
    (∃ (off rows row : Nat) (s : State),
    s.bit Pg.MEM MEM0.SCRUB_EN = true ∧ off < 256 ∧ 0 < rows ∧ s.get Pg.MEM MEM0.SCRUB_POS + rows < s.patrolRows ∧ s.rowAt (s.get Pg.MEM MEM0.SCRUB_POS) = some row ∧ s.mem.flips = []) ∧
    (∃ (off row : Nat) (n : Fin 4) (s : State),
    s.bit Pg.MEM MEM0.SCRUB_EN = true ∧ off < 256 ∧ s.mem.flips = [] ∧ s.mem.poison = [] ∧ s.rowAt ((s.get Pg.MEM MEM0.SCRUB_POS + n.val) % s.patrolRows) = some row ∧ s.get Pg.MEM MEM0.SCRUB_POS + n.val < s.patrolRows) ∧
    (∃ (src : Source) (val : Word) (s : State),
    Granted src (Pg.DARN + DARN.CMD.off) true s ∧ DARN.CMD_OP.get val = 1 ∧ s.bit Pg.DARN DARN.STAT_BUSY = false) ∧
    (∃ (src : Source) (val : Word) (s : State),
    Granted src (Pg.DARN + DARN.CMD.off) true s ∧ DARN.CMD_OP.get val = 2 ∧ s.bit Pg.DARN DARN.STAT_BUSY = false) ∧
    (∃ (src : Source) (val : Word) (s : State),
    Granted src (Pg.DARN + DARN.CMD.off) true s) ∧
    (∃ (row spare : Nat) (auto : Bool) (s : State),
    s.mem.copy = some (row, spare, auto) ∧ s.mem.autoDue = [] ∧ s.mem.flips = []) := by
  refine ⟨⟨40, scrubOn 5 w, by decide +kernel⟩,
    ⟨7, 1, 5, scrubOn 5 w, by decide +kernel⟩,
    ⟨7, 1, 5, scrubOn 5 w, by decide +kernel⟩,
    ⟨5, 2, 2, scrubOn 0 w, by decide +kernel⟩,
    ⟨.pf0, 0x4000004D, w, by unfold Granted; decide +kernel⟩,
    ⟨.pf0, 0x8000004D, w, by unfold Granted; decide +kernel⟩,
    ⟨.pf0, 0x40000000, w.set Pg.DARN DARN.STAT_BUSY 1, by unfold Granted; decide +kernel⟩,
    ⟨7, 3, true, { w with mem := { w.mem with copy := some (7, 3, true) } }, by decide +kernel⟩⟩

/-- The hypotheses of `Obligations.HostContextsAndLink` can be met, clause by clause. -/
theorem witness_HostContextsAndLink :
    (∃ (func : Fin 254) (offset : Nat) (n : Fin 65) (bs : List Byte) (s : State),
    1 ≤ bs.length ∧ bs.length ≤ 64 ∧ offset + bs.length ≤ (if func.val < 2 then 2 ^ 28 else 2 ^ 24) ∧ 0x40000000 ≤ (s.fnHost func.val).win + offset ∧ (s.fnHost func.val).win + offset + bs.length ≤ usableMem) ∧
    (∃ (func : Fin 254) (offset : Nat) (n : Fin 65) (s : State),
    1 ≤ n.val ∧ offset + n.val ≤ (if func.val < 2 then 2 ^ 28 else 2 ^ 24) ∧ 0x40000000 ≤ (s.fnHost func.val).win + offset ∧ (s.fnHost func.val).win + offset + n.val ≤ usableMem) ∧
    (∃ (func : Fin 254) (offset : Nat) (n : Fin 65) (s : State),
    1 ≤ n.val ∧ offset + n.val ≤ (if func.val < 2 then 2 ^ 28 else 2 ^ 24) ∧ 0x40000000 ≤ (s.fnHost func.val).win + offset ∧ (s.fnHost func.val).win + offset + n.val ≤ usableMem ∧ ((s.fnHost func.val).win + offset) % 8 + n.val ≤ 8 ∧ 1 ≤ s.flipsAt (((s.fnHost func.val).win + offset) / 8)) ∧
    (∃ (func : Fin 254) (offset : Nat) (n : Fin 65) (wr : Option (List Byte)) (s : State),
    ((wr.elim n.val List.length = 0 ∨ 64 < wr.elim n.val List.length ∨
      (if func.val < 2 then 2 ^ 28 else 2 ^ 24) < offset + wr.elim n.val List.length))) ∧
    (∃ (func : Fin 254) (offset : Nat) (n : Fin 65) (wr : Option (List Byte)) (s : State),
    1 ≤ wr.elim n.val List.length ∧ wr.elim n.val List.length ≤ 64 ∧ offset + wr.elim n.val List.length ≤ (if func.val < 2 then 2 ^ 28 else 2 ^ 24) ∧ (((s.fnHost func.val).win + offset < 0x40000000 ∨
      usableMem < (s.fnHost func.val).win + offset + wr.elim n.val List.length))) ∧
    (∃ (src : Source) (val : Word) (s : State),
    Granted src (Pg.DEV + DEV.FEAT_COMMIT.off) true s ∧ val.toNat % 2 = 1) ∧
    (∃ (src : Source) (val : Word) (s : State),
    Granted src (Pg.HQ + HQ0.FN_QCOUNT.off) true s ∧ s.rangeOpen s.fnSel = true) ∧
    (∃ (src : Source) (val : Word) (s : State),
    Granted src (Pg.HQ + HQ0.FN_QCOUNT.off) true s ∧ s.rangeOpen s.fnSel = false) ∧
    (∃ (src : Source) (val : Word) (s : State),
    Granted src (Pg.HQ + HQ0.EP_CMD.off) true s ∧ val.toNat % 4 = 1) ∧
    (∃ (src : Source) (val : Word) (q ctrl irq tim sq rq cq : Nat) (s : State),
    Granted src (Pg.HQ + HQ0.EP_CMD.off) true s ∧ val.toNat % 4 = 2 ∧ s.epSelected src = some q ∧ epFields (s.staged (Pg.HQ + (HQ0.EP_DATA 0).off) src 16) = (ctrl, irq, tim, sq, rq, cq)) ∧
    (∃ (src : Source) (val : Word) (s : State),
    Granted src (Pg.HQ + HQ0.EP_CMD.off) true s) ∧
    (∃ (s : State),
    ((s.pcie.link = .l1 ∨ s.pcie.link = .exiting))) ∧
    (∃ (s : State),
    s.pcie.link = .l0) ∧
    (∃ (speed width : Nat) (s : State),
    speed ∈ [25, 50, 80, 160] ∧ width ∈ [1, 2, 4, 8, 16] ∧ s.pcie.link = .down) ∧
    (∃ (speed width : Nat) (s : State),
    ((speed ∉ [25, 50, 80, 160] ∨ width ∉ [1, 2, 4, 8, 16] ∨ s.pcie.link ≠ .down))) ∧
    (∃ (s : State),
    s.pcie.link = .reset) := by
  refine ⟨⟨1, 4, 3, [1, 2, 3], pf1Up w, by decide +kernel⟩,
    ⟨1, 4, 3, pf1Up w, by decide +kernel⟩,
    ⟨1, 4, 3, { pf1Up w with mem := { w.mem with flips := [(0x50000000 / 8, 1)] } }, by decide +kernel⟩,
    ⟨1, 4, 0, none, w, by decide +kernel⟩,
    ⟨1, 4, 3, none, w, by decide +kernel⟩,
    ⟨.pf0, 1, w, by unfold Granted; decide +kernel⟩,
    ⟨.pf0, 7, w, by unfold Granted; decide +kernel⟩,
    ⟨.pf0, 7, (pf1Up w).set Pg.HQ HQ0.FN_SEL 1, by unfold Granted; decide +kernel⟩,
    ⟨.pf1, 1, w, by unfold Granted; decide +kernel⟩,
    ⟨.pf1, 2, 15, 0, 0, 0, 0, 0, 0, epSel (pf1Up w), by unfold Granted; decide +kernel⟩,
    ⟨.pf1, 2, w, by unfold Granted; decide +kernel⟩,
    ⟨{ w with pcie := { w.pcie with link := .l1, held := [.ptmRequest] } }, by decide +kernel⟩,
    ⟨{ w with pcie := { w.pcie with link := .l0 } }, by decide +kernel⟩,
    ⟨160, 16, { w with pcie := { w.pcie with link := .down, held := [.ptmRequest] } }, by decide +kernel⟩,
    ⟨16, 16, { w with pcie := { w.pcie with link := .down } }, by decide +kernel⟩,
    ⟨{ w with pcie := { w.pcie with link := .reset } }, by decide +kernel⟩⟩

/-- The hypotheses of `Obligations.RingsAndDescriptors` can be met, clause by clause. -/
theorem witness_RingsAndDescriptors :
    (∃ (func : Fin 254) (k : Fin 131072) (val : Word) (s : State),
    k.val < (s.fnHost func.val).qcount) ∧
    (∃ (func : Fin 254) (k : Fin 131072) (val : Word) (s : State),
    k.val < (s.fnHost func.val).qcount) ∧
    (∃ (func : Fin 254) (k : Fin 131072) (val : Word) (s : State),
    k.val < (s.fnHost func.val).qcount ∧ s.hostFn func.val ≠ .off ∧ s.hostFn func.val ≠ .fault ∧ (s.ep ((s.fnHost func.val).qbase + k.val)).en = true) ∧
    (∃ (ep : Fin 131072) (s : State),
    s.running (Tm.moderate ep.val) = true) ∧
    (∃ (ep : Fin 131072) (descs ds : List (List Byte)) (f : Nat) (s : State),
    s.epFn ep.val = some f ∧ s.mayFetch (s.ep ep.val) f = true ∧ untilEop (descs.take (((s.ep ep.val).sqTail + s.sqEntries (s.ep ep.val) - (s.ep ep.val).sqHead) %
      s.sqEntries (s.ep ep.val))) = some ds) ∧
    (∃ (ep : Fin 131072) (bytes : List Byte) (f : Nat) (x : Fetch) (xs : List Fetch) (s : State),
    s.epFn ep.val = some f ∧ (s.ep ep.val).fetching = x :: xs ∧ x.mss = none ∧ x.send.csumL3 = false ∧ x.send.csumL4 = false ∧ s.mem.flips = []) ∧
    (∃ (ep : Fin 131072) (f : Nat) (x : Fetch) (xs : List Fetch) (s : State),
    s.epFn ep.val = some f ∧ (s.ep ep.val).fetching = x :: xs) ∧
    (∃ (ep : Fin 131072) (descs : List (List Byte)) (f : Nat) (s : State),
    s.epFn ep.val = some f ∧ (s.ep ep.val).en = true ∧ (s.ep ep.val).rxEn = true ∧ (s.ep ep.val).rqErr = false ∧ s.hostFn f = .running ∧ (s.fnHost f).d3 = false) ∧
    (∃ (ep : Fin 131072) (f : Nat) (s : State),
    s.epFn ep.val = some f ∧ (s.ep ep.val).en = true) := by
  refine ⟨⟨1, 5, 3, e15 ep0 w, by decide +kernel⟩,
    ⟨1, 5, 3, e15 ep0 w, by decide +kernel⟩,
    ⟨1, 5, 3, e15 ep0 w, by decide +kernel⟩,
    ⟨15, tm (Tm.moderate 15) (e15 ep0 w), by decide +kernel⟩,
    ⟨15, [desc 60 1], [desc 60 1], 1, e15 { ep0 with sqTail := 1 } w, by decide +kernel⟩,
    ⟨15, [1, 2], 1, ⟨send0, [(60, none)], [], none⟩, [], e15 { ep0 with fetching := [⟨send0, [(60, none)], [], none⟩] } w, by decide +kernel⟩,
    ⟨15, 1, ⟨send0, [(60, none)], [], none⟩, [], e15 { ep0 with fetching := [⟨send0, [(60, none)], [], none⟩] } w, by decide +kernel⟩,
    ⟨15, [desc 60 1], 1, e15 { ep0 with rqTail := 1 } w, by decide +kernel⟩,
    ⟨15, 1, e15 ep0 w, by decide +kernel⟩⟩

/-- The hypotheses of `Obligations.EventRecords` can be met, clause by clause. -/
theorem witness_EventRecords :
    (∃ (slot : BitVec 12) (bit : Fin 32) (s : State),
    s.domIsOff .core = true) ∧
    (∃ (slot : BitVec 12) (bit : Fin 32) (s : State),
    s.domIsOff .core = false ∧ ((∀ e ∈ s.watchSet, e.2 ≠ slot.toNat * 32 + bit.val))) ∧
    (∃ (src : Source) (slot : BitVec 12) (val : Word) (s : State),
    Granted src (slot.toNat * 0x1000 + HDR.PAGE_EVENT.off) true s) ∧
    (∃ (src : Source) (slot : BitVec 12) (val : Word) (s : State),
    Granted src (slot.toNat * 0x1000 + HDR.PAGE_EVENT_MASK.off) true s) ∧
    (∃ (k : Nat) (r : MRec) (s : State),
    s.bit Pg.MARK MARK0.CTRL = false ∧ s.domIsOff .core = false ∧ (match s.marker.last with
      | none => (s.marker.pend.map (fun kv => kv.1)).head? = some k
      | some l => ((s.marker.pend.map (fun kv => kv.1)).find? (fun k => decide (l < k))).or
          (s.marker.pend.map (fun kv => kv.1)).head? = some k) ∧ s.pendRec k = some r) ∧
    (∃ (s : State),
    s.bit Pg.MARK MARK0.CTRL = true) ∧
    (∃ (s : State),
    s.domIsOff .core = true) ∧
    (∃ (r : MRec) (rs : List MRec) (k tgt : Nat) (s : State),
    s.domIsOff .core = false ∧ s.marker.flight = r :: rs ∧ s.choice ((s.route r.key).toNat % 256) = some (k, tgt) ∧ s.evMask r.key = false ∧ s.evBit r.key = true) ∧
    (∃ (r : MRec) (rs : List MRec) (s : State),
    s.domIsOff .core = false ∧ s.marker.flight = r :: rs ∧ s.choice ((s.route r.key).toNat % 256) = none ∧ ((s.evMask r.key = true ∨ s.evBit r.key = false ∨ s.pendRec r.key ≠ none))) ∧
    (∃ (r : MRec) (rs : List MRec) (s : State),
    s.domIsOff .core = false ∧ s.marker.flight = r :: rs ∧ s.choice ((s.route r.key).toNat % 256) = none ∧ s.evMask r.key = false ∧ s.evBit r.key = true ∧ s.pendRec r.key = none) ∧
    (∃ (r : MRec) (g : Nat) (rs : List (MRec × Nat)) (s : State),
    s.marker.waiting = (r, g) :: rs ∧ s.bit Pg.MARK MARK0.CTRL = false ∧ s.domIsOff .core = false) ∧
    (∃ (src : Source) (val : Word) (s : State),
    Granted src (Pg.MARK + MARK0.CTRL.off) true s) ∧
    (∃ (func : Fin 254) (s : State),
    (s.fnHost func.val).d3 = true) := by
  refine ⟨⟨1, 9, { evd 41 w with domOff := [.core] }, by decide +kernel⟩,
    ⟨1, 9, w, by decide +kernel⟩,
    ⟨.pf0, 1, 0x300, mk (fun m => { m with raised := [(41, true)], pend := [(41, some ⟨41, 5, false⟩)], waiting := [(⟨41, 5, false⟩, 3), (⟨42, 5, false⟩, 3)] }) (evd 41 w), by unfold Granted; decide +kernel⟩,
    ⟨.pf0, 1, 0x200, mk (fun m => { m with raised := [(41, true)], pend := [(41, some ⟨41, 5, false⟩)], waiting := [(⟨41, 5, false⟩, 3), (⟨42, 5, false⟩, 3)] }) (evd 41 w), by unfold Granted; decide +kernel⟩,
    ⟨41, ⟨41, 5, false⟩, mk (fun m => { m with pend := [(41, some ⟨41, 5, false⟩)] }) w, by exact ⟨by decide +kernel, by decide +kernel, rfl, by decide +kernel⟩⟩,
    ⟨w.set Pg.MARK MARK0.CTRL 1, by decide +kernel⟩,
    ⟨{ held ⟨41, 5, false⟩ w with domOff := [.core] }, by decide +kernel⟩,
    ⟨⟨41, 5, false⟩, [], 0, 4096, held ⟨41, 5, false⟩ w, by decide +kernel⟩,
    ⟨⟨41, 5, false⟩, [], mk (fun m => { m with routes := [(41, 40)], raised := [(41, true)], flight := [⟨41, 5, false⟩] }) w, by decide +kernel⟩,
    ⟨⟨41, 5, false⟩, [], mk (fun m => { m with routes := [(41, 40)] }) (held ⟨41, 5, false⟩ w), by decide +kernel⟩,
    ⟨⟨41, 5, false⟩, 3, [], mk (fun m => { m with waiting := [(⟨41, 5, false⟩, 3)] }) w, by decide +kernel⟩,
    ⟨.pf0, 3, w, by unfold Granted; decide +kernel⟩,
    ⟨1, (pf1Up w).setFnHost 1 { (pf1Up w).fnHost 1 with d3 := true }, by decide +kernel⟩⟩

/-- The hypotheses of `Obligations.EventQueuesAndGroups` can be met, clause by clause. -/
theorem witness_EventQueuesAndGroups :
    (∃ (src : Source) (val : Word) (q : Nat) (s : State),
    Granted src (Pg.MARK + MARK0.EQ_DB.off) true s ∧ s.eqOf src (MARK0.EQ_DB_QUEUE.get val) = some q) ∧
    (∃ (src : Source) (val : Word) (q : Nat) (s : State),
    Granted src (Pg.MARK + MARK0.EQ_PRIO.off) true s ∧ s.eqOf src (MARK0.EQ_PRIO_QUEUE.get val) = some q) ∧
    (∃ (src : Source) (val : Word) (s : State),
    Granted src (Pg.MARK + MARK0.EQ_CMD.off) true s ∧ val.toNat % 4 = 1) ∧
    (∃ (src : Source) (val : Word) (q : Nat) (s : State),
    Granted src (Pg.MARK + MARK0.EQ_CMD.off) true s ∧ val.toNat % 4 = 2 ∧ s.eqSelected src = some q) ∧
    (∃ (src : Source) (val : Word) (s : State),
    (val.toNat % 4 = 0 ∨ val.toNat % 4 = 3)) ∧
    (∃ (src : Source) (val : Word) (s : State),
    Granted src (Pg.MARK + MARK1.GRP_CMD.off) true s ∧ val.toNat % 4 = 1) ∧
    (∃ (src : Source) (val : Word) (s : State),
    Granted src (Pg.MARK + MARK1.GRP_CMD.off) true s ∧ val.toNat % 4 = 2 ∧ ((s.get Pg.MARK MARK1.GRP_SEL < 32 → src.isHook = true))) ∧
    (∃ (src : Source) (val : Word) (s : State),
    Granted src (Pg.MARK + MARK1.GRP_CMD.off) true s ∧ val.toNat % 4 = 2 ∧ s.get Pg.MARK MARK1.GRP_SEL < 32 ∧ src.isHook = false) ∧
    (∃ (src : Source) (val : Word) (s : State),
    Granted src (Pg.MARK + MARK1.FN_EQCOUNT.off) true s ∧ (if s.markSel = 0 then s.eqsOff 0 = true else s.hostFn s.markSel = .off)) := by
  refine ⟨⟨.pf1, 0x80050000, 15, q15 ⟨0x80000000, 0, 0x9000, 0, 3, false, false, true, false⟩ w, by unfold Granted; decide +kernel⟩,
    ⟨.pf1, 0x00050077, 15, q15 ⟨0x80FF0001, 0, 0x9000, 0, 3, false, false, true, false⟩ w, by unfold Granted; decide +kernel⟩,
    ⟨.pf1, 1, w, by unfold Granted; decide +kernel⟩,
    ⟨.pf1, 2, 15, eqSel .pf1 5 (q15 ⟨0x80FF0001, 0, 0x9000, 0, 3, false, false, true, false⟩ w), by unfold Granted; decide +kernel⟩,
    ⟨.pf0, 3, w, by decide +kernel⟩,
    ⟨.pf0, 1, w, by unfold Granted; decide +kernel⟩,
    ⟨.hook 0, 2, w, by unfold Granted; decide +kernel⟩,
    ⟨.pf0, 2, w, by unfold Granted; decide +kernel⟩,
    ⟨.pf0, 7, w, by unfold Granted; decide +kernel⟩⟩

/-- The hypotheses of `Obligations.MacsecCommands` can be met, clause by clause. -/
theorem witness_MacsecCommands :
    (∃ (src : Source) (val : Word) (s : State),
    val.toNat % 4 = 1 ∧ Granted src (Pg.CIPH + CIPH1.MSEC_CMD.off) true s ∧ s.get Pg.CIPH CIPH1.MSEC_SEL_SC ≤ 8) ∧
    (∃ (src : Source) (val : Word) (s : State),
    val.toNat % 4 = 2 ∧ Granted src (Pg.CIPH + CIPH1.MSEC_CMD.off) true s ∧ s.get Pg.CIPH CIPH1.MSEC_SEL_SC ≤ 8) ∧
    (∃ (src : Source) (val : Word) (s : State),
    Granted src (Pg.CIPH + CIPH1.MSEC_CMD.off) true s) := by
  refine ⟨⟨.pf0, 1, w, by unfold Granted; decide +kernel⟩,
    ⟨.pf0, 2, w, by unfold Granted; decide +kernel⟩,
    ⟨.pf0, 1, w.set Pg.CIPH CIPH1.MSEC_SEL_SC 9, by unfold Granted; decide +kernel⟩⟩

/-- The hypotheses of `Obligations.LookAside` can be met, clause by clause. -/
theorem witness_LookAsideLockAndQueues :
    (∃ (src : Source) (val : Word) (f : Nat) (s : State),
    val.toNat % 4 = 1 ∧ Granted src (Pg.CIPH + CIPH0.LA_LOCK.off) true s ∧ s.laHolder = none ∧ src.func = some f) ∧
    (∃ (src : Source) (val : Word) (s : State),
    val.toNat % 4 = 1 ∧ Granted src (Pg.CIPH + CIPH0.LA_LOCK.off) true s ∧ ((s.laHolder ≠ none ∨ src.func = none))) ∧
    (∃ (src : Source) (val : Word) (f : Nat) (s : State),
    val.toNat % 4 = 2 ∧ Granted src (Pg.CIPH + CIPH0.LA_LOCK.off) true s ∧ s.laHolder = some f ∧ src.func = some f) ∧
    (∃ (src : Source) (val : Word) (s : State),
    val.toNat % 4 = 2 ∧ Granted src (Pg.CIPH + CIPH0.LA_LOCK.off) true s ∧ ((s.laHolder = none ∨ s.laHolder ≠ src.func))) ∧
    (∃ (src : Source) (val : Word) (s : State),
    Granted src (Pg.CIPH + CIPH0.LA_LOCK.off) true s) ∧
    (∃ (src : Source) (val : Word) (s : State),
    val.toNat % 2 = 1 ∧ Granted src (Pg.CIPH + CIPH0.LA_SUBMIT.off) true s ∧ src.isHook = true ∧ s.ciph.laFw.length < 16) ∧
    (∃ (src : Source) (val : Word) (f : Nat) (s : State),
    val.toNat % 2 = 1 ∧ Granted src (Pg.CIPH + CIPH0.LA_SUBMIT.off) true s ∧ src.func = some f ∧ s.laHolder = some f ∧ s.feat 9 = true ∧ s.ciph.laHost.length < 16) ∧
    (∃ (src : Source) (val : Word) (s : State),
    Granted src (Pg.CIPH + CIPH0.LA_SUBMIT.off) true s ∧ ((s.laMay src = false ∨ val.toNat % 2 = 1 ∧ src.isHook = true ∧ 16 ≤ s.ciph.laFw.length ∨
      val.toNat % 2 = 1 ∧ src.isHook = false ∧ (s.feat 9 = false ∨ 16 ≤ s.ciph.laHost.length)))) ∧
    (∃ (src : Source) (r : List Word) (rest : List (List Word)) (s : State),
    Granted src (Pg.CIPH + (CIPH0.LA_RESULT 0).off) false s ∧ s.laMay src = true ∧ (if src.isHook then s.ciph.resFw else s.ciph.resHost) = r :: rest) ∧
    (∃ (src : Source) (s : State),
    Granted src (Pg.CIPH + (CIPH0.LA_RESULT 0).off) false s ∧ s.laMay src = true ∧ (if src.isHook then s.ciph.resFw else s.ciph.resHost) = []) := by
  refine ⟨⟨.pf0, 1, 0, w, by unfold Granted; decide +kernel⟩,
    ⟨.pf0, 1, laHeld 0 w, by unfold Granted; decide +kernel⟩,
    ⟨.pf0, 2, 0, laHeld 0 w, by unfold Granted; decide +kernel⟩,
    ⟨.pf0, 2, laHeld 9 w, by unfold Granted; decide +kernel⟩,
    ⟨.pf0, 0, w, by unfold Granted; decide +kernel⟩,
    ⟨.hook 0, 1, w, by unfold Granted; decide +kernel⟩,
    ⟨.pf0, 1, 0, laHeld 0 w, by unfold Granted; decide +kernel⟩,
    ⟨.pf0, 1, w, by unfold Granted; decide +kernel⟩,
    ⟨.pf0, [5, 6], [], ci (fun c => { c with resHost := [[5, 6]] }) (laHeld 0 w), by unfold Granted; decide +kernel⟩,
    ⟨.pf0, laHeld 0 w, by unfold Granted; decide +kernel⟩⟩

/-- The hypotheses of `Obligations.LookAside` can be met, clause by clause. -/
theorem witness_LookAsideJobsAndRootKeys :
    (∃ (source : Option (List Byte)) (j : LaJob) (rest : List LaJob) (s : State),
    s.ciph.laFw = j :: rest ∧ j.src.isHook = true ∧ j.check ≠ La.ok) ∧
    (∃ (bs key : List Byte) (j : LaJob) (rest : List LaJob) (hs : List (Nat × Nat × Nat)) (u s : State),
    s.ciph.laFw = j :: rest ∧ j.src.isHook = true ∧ j.check = La.ok ∧ j.srcHandle = false ∧ ((j.op ≤ 2 → j.dstHandle = false)) ∧ s.allocFrame 8 j.len = (some hs, u) ∧ s.deriveKey j.slot j.label = some key) ∧
    (∃ (source : Option (List Byte)) (s : State),
    s.ciph.laFw = [] ∧ s.ciph.laHost = []) ∧
    (∃ (ch : Chan) (tag : Byte) (args : List Word) (s : State),
    MbxOpen ch s) := by
  refine ⟨⟨none, job 0, [], jobs [job 0] w, by decide +kernel⟩,
    ⟨[1, 2, 3], Crypto.shake256 32 (List.replicate 32 1 ++ List.replicate 32 0x80 ++ [0x00, 0x20]), job 1, [], buf8.1.getD [], buf8.2, jobs [job 1] (produce (pooled [] w)), by exact ⟨by decide +kernel, by decide +kernel, by decide +kernel, by decide +kernel, by decide +kernel, by decide +kernel, job_key⟩⟩,
    ⟨none, w, by decide +kernel⟩,
    ⟨.ch0, 1, [0x0C, 1, 2, 3, 4, 5, 6, 7, 8], w, by unfold MbxOpen Granted; decide +kernel⟩⟩

/-- The hypotheses of `Obligations.SitePortCommands` can be met, clause by clause. -/
theorem witness_SitePortCommands :
    (∃ (n : Fin 4) (bytes : List Byte) (sub : Fin 131072) (fifoFree : Fin 131073) (fc fu : Nat) (s : State),
    s.siteFarLoop n = true) ∧
    (∃ (n : Fin 4) (bytes : List Byte) (sub : Fin 131072) (fifoFree : Fin 131073) (fc fu : Nat) (s : State),
    s.siteFarLoop n = false ∧ s.siteLive n = false) ∧
    (∃ (n : Fin 4) (bytes : List Byte) (sub : Fin 131072) (fifoFree : Fin 131073) (fc fu : Nat) (s : State),
    s.siteFarLoop n = false ∧ s.siteLive n = true) ∧
    (∃ (n : Fin 4) (s : State),
    s.fnIs (.site n) .running = true ∧ s.bit (Pg.SITE n) SITE.STAT_LINK = false ∧ s.scan = false) ∧
    (∃ (n : Fin 4) (s : State),
    s.bit (Pg.SITE n) SITE.STAT_LINK = true) ∧
    (∃ (n : Fin 4) (present : Bool) (s : State),
    s.bit (Pg.SITE n) SITE.STAT_MOD_PRESENT ≠ present) ∧
    (∃ (n : Fin 4) (s : State),
    s.bit (Pg.SITE n) SITE.LPI_EN = true ∧ s.siteLive n = true ∧ s.bit (Pg.SITE n) SITE.STAT_LPI_TX = false ∧ s.egressHolds (129 + n.val) = false ∧ SMap.get (fun _ => none) s.siteWake n.val = none ∧ (s.pattern (129 + n.val)).active = none) ∧
    (∃ (n : Fin 4) (sub : Fin 131072) (w : SiteWake) (s : State),
    SMap.get (fun _ => none) s.siteWake n.val = some w ∧ s.msecOn n.val = false) := by
  refine ⟨⟨1, [1, 2, 3], 5, 5, 1, 2, (siteUp w).set (Pg.SITE 1) SITE.CTRL_LOOP 3, by decide +kernel⟩,
    ⟨1, eth, 0, 5, 1, 2, w, by decide +kernel⟩,
    ⟨1, siteFr eth, 5, 9999, 1, 2, siteUp w, by decide +kernel⟩,
    ⟨1, on (.site 1) .running w, by decide +kernel⟩,
    ⟨1, siteUp w, by decide +kernel⟩,
    ⟨1, true, w, by decide +kernel⟩,
    ⟨1, (siteUp w).set (Pg.SITE 1) SITE.LPI_EN 1, by decide +kernel⟩,
    ⟨1, 7, ⟨fr 3 eth⟩, { siteUp w with siteWake := [(1, some ⟨fr 3 eth⟩)] }, by decide +kernel⟩⟩

/-- The hypotheses of `Obligations.PlyLinkAndTraffic` can be met, clause by clause. -/
theorem witness_PlyLinkCommands :
    (∃ (s : State),
    s.plyIn PlySt.detect = true ∧ s.scan = true) ∧
    (∃ (s : State),
    s.plyIn PlySt.detect = true ∧ s.scan = false) ∧
    (∃ (precode : Fin 16) (s : State),
    s.plyIn PlySt.train = true) ∧
    (∃ (s : State),
    s.plyIn PlySt.train = true ∧ s.running Tm.plyTrain = true) ∧
    (∃ (s : State),
    s.plyIn PlySt.lock = true) ∧
    (∃ (serial : BitVec 128) (id : Bool) (version : Word) (inForce : Bool) (s : State),
    s.plyIn PlySt.exchange = true) ∧
    (∃ (uncorrectable : Bool) (s : State),
    (s.plyActive || s.plyDrains) = true) ∧
    (∃ (uncorrectable : Bool) (s : State),
    (s.plyIn PlySt.lock || s.plyIn PlySt.exchange) = true) := by
  refine ⟨⟨{ ply 0 w with scan := true }, by decide +kernel⟩,
    ⟨ply 0 w, by decide +kernel⟩,
    ⟨5, ply 1 w, by decide +kernel⟩,
    ⟨tm Tm.plyTrain (ply 1 w), by decide +kernel⟩,
    ⟨ply 2 w, by decide +kernel⟩,
    ⟨7, false, 5, true, ply 3 w, by decide +kernel⟩,
    ⟨true, ply 4 w, by decide +kernel⟩,
    ⟨true, ply 3 w, by decide +kernel⟩⟩

/-- The hypotheses of `Obligations.PlyLinkAndTraffic` can be met, clause by clause. -/
theorem witness_PlyTrafficCommands :
    (∃ (bytes : List Byte) (last : Bool) (corr uncorr : Nat) (s : State),
    (s.plyActive || s.plyDrains) = true) ∧
    (∃ (t1 t2 t3 : BitVec 128) (sub : Fin 131072) (s : State),
    s.plyActive = true) ∧
    (∃ (s : State),
    s.plyActive = true) ∧
    (∃ (ra rb : Fin 8) (working : Bool) (power role : Fin 5) (sel : Fin 4) (ts : Fin 8) (s : State),
    s.plyActive = true ∧ s.plyFarLoop = true) ∧
    (∃ (ra rb : Fin 8) (working : Bool) (power role : Fin 5) (sel : Fin 4) (ts : Fin 8) (s : State),
    s.plyActive = true ∧ s.plyFarLoop = false) ∧
    (∃ (s : State),
    s.fnIs .ply .running = true ∧ s.twin.lost = false) := by
  refine ⟨⟨List.replicate 169 1, true, 3, 4, ply 4 w, by decide +kernel⟩,
    ⟨5, 6, 7, 8, ply 4 w, by decide +kernel⟩,
    ⟨ply 4 w, by decide +kernel⟩,
    ⟨1, 2, true, 1, 2, 3, 4, (ply 4 w).set Pg.PLY PLY.CTRL_LOOP 3, by decide +kernel⟩,
    ⟨1, 2, true, 1, 2, 3, 4, ply 4 w, by decide +kernel⟩,
    ⟨ply 4 w, by decide +kernel⟩⟩

/-- The hypotheses of `Obligations.TakeoverCommands` can be met, clause by clause. -/
theorem witness_TakeoverCommands :
    (∃ (s : State),
    s.plyActive = true ∧ s.plyFarLoop = false) ∧
    (∃ (s : State),
    s.plyActive = true ∧ s.plyFarLoop = false) ∧
    (∃ (s : State),
    ((s.role = Role.standby ∨ s.role = Role.taking))) ∧
    (∃ (s : State),
    s.role = Role.taking) ∧
    (∃ (s : State),
    s.role = Role.serving ∧ s.bit Pg.DEV DEV.BOOT_STAT_TWIN_ID = true) ∧
    (∃ (ch : Chan) (tag : Byte) (args : List Word) (s : State),
    MbxOpen ch s ∧ s.feat 6 = true ∧ argWord args 1 / 16 % 4 = 0 ∧ argWord args 1 / 4 % 4 ≠ 3 ∧ 10 ≤ argWord args 2 % 2 ^ 16 ∧ argWord args 2 / 2 ^ 16 % 2 ^ 8 ≠ 0) ∧
    (∃ (ch : Chan) (tag : Byte) (args : List Word) (s : State),
    MbxOpen ch s ∧ s.feat 6 = true ∧ argWord args 1 / 16 % 4 = 1) ∧
    (∃ (ch : Chan) (tag : Byte) (args : List Word) (s : State),
    MbxOpen ch s ∧ s.feat 6 = true ∧ argWord args 1 / 16 % 4 = 2) ∧
    (∃ (ch : Chan) (tag : Byte) (args : List Word) (s : State),
    MbxOpen ch s ∧ ((s.feat 6 = false ∨ (argWord args 1 / 16 % 4 = 3 ∨ argWord args 1 / 16 % 4 = 0 ∧
      (argWord args 1 / 4 % 4 = 3 ∨ argWord args 2 % 2 ^ 16 < 10 ∨ argWord args 2 / 2 ^ 16 % 2 ^ 8 = 0))))) := by
  refine ⟨⟨role 3 (ply 4 w), by decide +kernel⟩,
    ⟨role 2 (ply 4 w), by decide +kernel⟩,
    ⟨role 2 (ply 4 w), by decide +kernel⟩,
    ⟨role 2 w, by decide +kernel⟩,
    ⟨role 3 (w.set Pg.DEV DEV.BOOT_STAT_TWIN_ID 1), by decide +kernel⟩,
    ⟨.ch0, 1, [7, 0x3000A, 5], ply 4 w, by unfold MbxOpen Granted; decide +kernel⟩,
    ⟨.ch0, 1, [0x10], role 1 (ply 4 w), by unfold MbxOpen Granted; decide +kernel⟩,
    ⟨.ch0, 1, [0x20], role 3 (ply 4 w), by unfold MbxOpen Granted; decide +kernel⟩,
    ⟨.ch0, 1, [0x30], role 3 (ply 4 w), by unfold MbxOpen Granted; decide +kernel⟩⟩

/-- The hypotheses of `Obligations.PowerAttempts` can be met, clause by clause. -/
theorem witness_PowerAttempts :
    (∃ (s : State),
    s.bit Pg.PWR PWR.POLICY_AUTO_DOZE = true ∧ s.pstate = Pst.full ∧ s.powerBusy = false) ∧
    (∃ (slot : Nat) (rest : List Nat) (s : State),
    s.power.ask = slot :: rest ∧ s.powerBusy = true ∧ s.whyRefuse s.ptarget slot = none ∧ s.hasStopped s.ptarget slot = true) ∧
    (∃ (slot r : Nat) (rest : List Nat) (s : State),
    s.power.ask = slot :: rest ∧ s.powerBusy = true ∧ s.whyRefuse s.ptarget slot = some r) ∧
    (∃ (slot : Nat) (rest : List Nat) (s : State),
    s.power.ask = slot :: rest ∧ s.powerBusy = true ∧ ((s.power.answered = false ∨ slot = 0xA0))) ∧
    (∃ (s : State),
    s.powerBusy = true ∧ s.power.ask = [] ∧ s.ptarget ≤ 4) ∧
    (∃ (ch : Chan) (tag : Byte) (args : List Word) (s : State),
    MbxOpen ch s ∧ 4 < argWord args 1 % 8) ∧
    (∃ (ch : Chan) (tag : Byte) (args : List Word) (s : State),
    MbxOpen ch s ∧ argWord args 1 % 8 ≤ 4 ∧ (s.powerBusy || s.power.waking) = true) ∧
    (∃ (ch : Chan) (tag : Byte) (args : List Word) (s : State),
    MbxOpen ch s ∧ argWord args 1 % 8 ≤ 4 ∧ (s.powerBusy || s.power.waking) = false ∧ mayRequest ch s.pstate (argWord args 1 % 8) = false) ∧
    (∃ (ch : Chan) (tag : Byte) (args : List Word) (s : State),
    MbxOpen ch s ∧ argWord args 1 % 8 ≤ 4 ∧ argWord args 1 % 8 ≠ 0 ∧ (s.powerBusy || s.power.waking) = false ∧ mayRequest ch s.pstate (argWord args 1 % 8) = true) := by
  refine ⟨⟨w.set Pg.PWR PWR.POLICY_AUTO_DOZE 1, by decide +kernel⟩,
    ⟨0x08, [0x44], tries 2 [0x08, 0x44] w, by decide +kernel⟩,
    ⟨0xC1, 2, [0x44], tries 2 [0xC1, 0x44] (siteUp w), by decide +kernel⟩,
    ⟨0xC1, [0x44], tries 2 [0xC1, 0x44] w, by decide +kernel⟩,
    ⟨tries 3 [] w, by decide +kernel⟩,
    ⟨.ch0, 1, [5], w, by unfold MbxOpen Granted; decide +kernel⟩,
    ⟨.ch0, 1, [2], tries 3 [] w, by unfold MbxOpen Granted; decide +kernel⟩,
    ⟨.ch1, 1, [4], w1, by unfold MbxOpen Granted; decide +kernel⟩,
    ⟨.ch0, 1, [2], w, by unfold MbxOpen Granted; decide +kernel⟩⟩

/-- The hypotheses of `Obligations.WakeCommands` can be met, clause by clause. -/
theorem witness_WakeCommands :
    (∃ (k : Fin 32) (key : Nat) (s : State),
    s.domIsOff .core = false ∧ s.watchEntry k.val = some key ∧ s.evBit key = true ∧ s.evMask key = false ∧ keyPowered s.pstate key = true ∧ s.isRaised key = false ∧ s.powerBusy = false ∧ s.power.waking = false ∧ s.pstate ≠ Pst.full ∧ s.watchSet.find? (fun e => decide (e.2 = key)) = some (k.val, key)) ∧
    (∃ (slot : BitVec 12) (bit : Fin 32) (k : Nat) (s : State),
    s.domIsOff .core = false ∧ s.evBit (slot.toNat * 32 + bit.val) = true ∧ s.evMask (slot.toNat * 32 + bit.val) = false ∧ s.isRaised (slot.toNat * 32 + bit.val) = false ∧ s.powerBusy = false ∧ s.power.waking = false ∧ s.pstate ≠ Pst.full ∧ s.watchSet.find? (fun e => decide (e.2 = slot.toNat * 32 + bit.val)) = some (k, slot.toNat * 32 + bit.val)) ∧
    (∃ (k : Fin 32) (key : Nat) (s : State),
    s.domIsOff .core = true ∧ s.power.watch.find? (fun e => decide (e.1 = k.val)) = some (k.val, key) ∧ s.evBit key = true ∧ s.evMask key = false ∧ keyPowered s.pstate key = true ∧ s.isRaised key = false ∧ s.powerBusy = false ∧ s.power.waking = false ∧ s.pstate ≠ Pst.full) ∧
    (∃ (k : Fin 32) (s : State),
    s.domIsOff .core = false ∧ s.watchEntry k.val = none) ∧
    (∃ (x : Nat) (s : State),
    s.power.alarm = some x ∧ x ≤ s.clock.cnt / 2 ^ 40 ∧ s.bit Pg.HOLD HOLD.WAKE_EN_ALARM = true ∧ s.powerBusy = false ∧ s.power.waking = false ∧ s.pstate ≠ Pst.full) ∧
    (∃ (s : State),
    ((∀ x, s.power.alarm = some x → s.clock.cnt / 2 ^ 40 < x))) ∧
    (∃ (src : Source) (hi : Word) (s : State),
    Granted src (Pg.HOLD + HOLD.ALARM_SEC_HI.off) true s) ∧
    (∃ (s : State),
    s.power.waking = true ∧ s.pstate ≠ Pst.keep) ∧
    (∃ (ch : Chan) (tag : Byte) (args : List Word) (s : State),
    MbxOpen ch s ∧ argWord args 1 % 8 = 0 ∧ ((s.pstate = Pst.doze ∨ s.pstate = Pst.rest)) ∧ s.powerBusy = false ∧ s.power.waking = false) := by
  refine ⟨⟨3, 41, watched (evd 41 (pst 1 w)), by decide +kernel⟩,
    ⟨1, 9, 3, watched (evd 41 (pst 1 w)), by decide +kernel⟩,
    ⟨3, 137, { evd 137 (pst 2 w) with domOff := [.core], power := { (pst 2 w).power with watch := [(3, 137)] } }, by decide +kernel⟩,
    ⟨3, w, by decide +kernel⟩,
    ⟨5, holdBit HOLD.WAKE_EN_ALARM 1 (pst 2 { pw (fun p => { p with alarm := some 5 }) w with clock := ⟨9 * 2 ^ 40, 3, none, none, 0, 0⟩ }), by decide +kernel⟩,
    ⟨w, by decide +kernel⟩,
    ⟨.pf0, 1, w, by unfold Granted; decide +kernel⟩,
    ⟨pw (fun p => { p with waking := true }) (pst 2 w), by decide +kernel⟩,
    ⟨.ch0, 1, [0], pst 1 w, by unfold MbxOpen Granted; decide +kernel⟩⟩

/-- The hypotheses of `Obligations.SuppliesAndMonitors` can be met, clause by clause. -/
theorem witness_HolderSupplies :
    (∃ (s : State),
    s.bit Pg.HOLD HOLD.SUPPLY_B_OK = true) ∧
    (∃ (s : State),
    s.bit Pg.HOLD HOLD.SUPPLY_A_OK = true) ∧
    (∃ (s : State),
    s.bit Pg.HOLD HOLD.SUPPLY_A_OK = false) ∧
    (∃ (toB : Bool) (s : State),
    s.bit Pg.HOLD (if toB then HOLD.SUPPLY_B_OK else HOLD.SUPPLY_A_OK) = false) := by
  refine ⟨⟨holdBit HOLD.SUPPLY_B_OK 1 w, by decide +kernel⟩,
    ⟨holdBit HOLD.SUPPLY_A_OK 1 w, by decide +kernel⟩,
    ⟨holdBit HOLD.SUPPLY_A_OK 0 w, by decide +kernel⟩,
    ⟨true, holdBit HOLD.SUPPLY_B_OK 0 w, by decide +kernel⟩⟩

/-- The hypotheses of `Obligations.SuppliesAndMonitors` can be met, clause by clause. -/
theorem witness_MonitorAndTripCommands :
    (∃ (tj : BitVec 16) (s : State),
    s.domIsOff .core = false) ∧
    (∃ (mv : List (BitVec 16)) (s : State),
    s.domIsOff .core = false) ∧
    (∃ (tj : BitVec 16) (mv : List (BitVec 16)) (s : State),
    s.domIsOff .core = true) ∧
    (∃ (s : State),
    s.scan = true) ∧
    (∃ (s : State),
    s.scan = false) ∧
    (∃ (core : Fin 4) (s : State),
    SMap.get (fun _ => false) s.restarting core.val = true) ∧
    (∃ (core : Fin 4) (s : State),
    SMap.get (fun _ => false) s.restarting core.val = false) := by
  refine ⟨⟨2000, w, by decide +kernel⟩,
    ⟨List.replicate 12 700, w, by decide +kernel⟩,
    ⟨2000, List.replicate 12 700, { w with domOff := [.core] }, by decide +kernel⟩,
    ⟨{ w with scan := true }, by decide +kernel⟩,
    ⟨w, by decide +kernel⟩,
    ⟨2, { w with restarting := [(2, true)] }, by decide +kernel⟩,
    ⟨2, w, by decide +kernel⟩⟩

/-- The hypotheses of `Obligations.StepRunsTheFrontCommand` can be met, clause by clause. -/
theorem witness_StepRunsTheFrontCommand :
    (∃ (c : Instr) (cs : List Instr) (s : State),
    s.pending = c :: cs) := by
  exact ⟨.beatSend, [.spillTick], { w with pending := [.beatSend, .spillTick] }, by decide +kernel⟩

/-- The hypotheses of `Obligations.FusesAndProtectionOnlyNarrow` can be met, clause by clause. -/
theorem witness_FusesAndProtectionOnlyNarrow :
    (∃ (ch : Chan) (tag : Byte) (req : ProtectReq) (s : State),
    MbxOpen ch s ∧ ¬ Narrower s.fuses { s.fuses with
      debug := req.debug, bootSrcAllow := req.bootSrcAllow, ownerKeysLocked := req.ownerKeysLocked, oobFull := req.oobFull,
      userKernels := req.userKernels }) ∧
    (∃ (ch : Chan) (tag : Byte) (type : Fin 4) (i : ImgInfo) (s : State),
    MbxOpen ch s ∧ s.runningImage type.val = some i) := by
  refine ⟨⟨.ch0, 1, ⟨0, 15, false, false, true⟩, w, by unfold MbxOpen Granted Narrower; decide +kernel⟩,
    ⟨.ch0, 1, 2, ⟨5, 2, []⟩, { w with boot := { w.boot with customer := some ⟨5, 2, []⟩ } }, by unfold MbxOpen Granted; decide +kernel⟩⟩

/-- Each case of `Obligations.IdleStepIsOneCycle` can be met. -/
theorem witness_IdleStepIsOneCycle :
    (∃ s : State, s.pending = [] ∧ s.power.ready = false) ∧
    (∃ s : State, s.pending = [] ∧ s.power.ready = true ∧ 1024 ≤ s.clock.phase + 1) ∧
    (∃ s : State, s.pending = [] ∧ s.power.ready = true ∧ s.clock.phase + 1 < 1024) := by
  refine ⟨⟨State.reset, by decide +kernel⟩, ⟨{ w with clock := ⟨9, 3, none, none, 1023, 0⟩ }, by decide +kernel⟩,
    ⟨w, by decide +kernel⟩⟩

/-- Whether a command answers a next state. -/
def isNext : Host.Outcome State Fault Refusal → Bool
  | .next _ => true
  | _ => false

theorem isNext_answers {o : Host.Outcome State Fault Refusal} (h : isNext o = true) : ∃ t, o = .next t := by
  cases o with
  | next t => exact ⟨t, rfl⟩
  | fault _ => cases h
  | refused _ => cases h

/-- The hypotheses of `Obligations.CommandsLeaveTheQueue` can be met. -/
theorem witness_CommandsLeaveTheQueue : ∃ (c : Instr) (s t : State), exec c s = .next t :=
  ⟨.flr 1, w, _, rfl⟩

/-- The hypotheses of `Obligations.PendRunOnlyInBindingOff` can be met, by a step that has a RUN held. -/
theorem witness_PendRunOnlyInBindingOff : ∃ s t : State, PendRunOk s ∧ step s = .next t :=
  ⟨{ (w.setFnRec .pf1 ⟨.bindingOff, true, 0⟩) with pending := [.bindOffComplete .pf1] }, _,
    by unfold PendRunOk; decide +kernel, rfl⟩

/-- The hypotheses of `Obligations.TablesKeepTheirCanonicalForm` can be met, by a step that writes memory. -/
theorem witness_TablesKeepTheirCanonicalForm : ∃ s t : State, Coherent s ∧ step s = .next t :=
  have ⟨t, h⟩ := isNext_answers (o := step { w with pending := [.bar4Access 0 0x8000000 8 (some [1, 2, 3])] }) (by decide +kernel)
  ⟨_, t, ⟨by decide +kernel, by decide +kernel, by decide +kernel, by decide +kernel,
    fun p => by cases p <;> decide +kernel⟩, h⟩

/-- Clauses 1 and 4 of `Obligations.FusesAndProtectionOnlyNarrow` can be met. -/
theorem witness_FusesAndProtectionOnlyNarrow_steps :
    (∃ s t : State, step s = .next t) ∧
    (∃ (c : Instr) (s t : State), exec c s = .next t ∧ (∀ ch tag type, c ≠ .rollbackCommit ch tag type) ∧
      (∀ h ∈ s.mbxHeld, ∀ type, h.req ≠ .rollbackCommit type)) :=
  ⟨⟨{ w with pending := [.protectAdvance .ch0 1 ⟨3, 7, true, false, false⟩] }, _, rfl⟩,
    ⟨.protectAdvance .ch0 1 ⟨3, 7, true, false, false⟩, w, _, rfl, nofun, nofun⟩⟩

end Sys2Proof.Tests
end

section
/-!
PROOF. Clock recovery and alignment: what those commands read and write of a port, as one view of the state, and what
each update of the state does to that view.
-/

namespace Sys2Proof.Machine

/-! ### The view -/

/-- Clock recovery of a port: its state, clock source, losses counted and event, what it keeps of the sync symbols, and
its two timers (R117, R128). -/
structure SyncClock where
  cdr : Nat
  source : Nat
  losses : Nat
  event : Nat
  last : Option Nat
  finds : List Nat
  good : Nat
  missed : Nat
  lss : Option Nat
  acquire : Option Nat

/-- Alignment of a port: its state and generation, the counters and registers of line frames, and the line frame now
received (R93, R115, R116, R125). -/
structure SyncAlign where
  align : Nat
  gen : Nat
  jumps : Nat
  lost : Nat
  frameCount : Nat
  tree : Nat
  frames : Nat
  miss : Nat
  count : Nat
  boundary : Nat

/-- All that the commands of clock recovery and alignment say of a port: its clock recovery, its alignment, its present
defects, and the fields of the state that they leave alone. -/
structure SyncView where
  clock : SyncClock
  alignment : SyncAlign
  raw : List Bool
  rest : State

/-- The state without the fields that clock recovery and alignment, and what follows from them, may change. -/
def State.beyondLines (s : State) : State :=
  { s with
    regs := [], clock := State.reset.clock, servo := State.reset.servo, pins := [], skein := State.reset.skein,
    lineA := LinePort.reset, lineB := LinePort.reset, pcie := State.reset.pcie, timers := [], free := 0, out := [],
    ciph := State.reset.ciph, sched := State.reset.sched, gauge := [] }

/-- The event bit that reports a change of the clock source (R13). -/
def clockEvent : Fld := ⟨HDR.PAGE_EVENT.off, 8, 1⟩

def State.syncClock (s : State) (p : Port) : SyncClock where
  cdr := s.get (Pg.LINE p) LINE0.RX_STAT_CDR
  source := s.get (Pg.LINE p) LINE0.RX_STAT_CLK_SRC
  losses := s.get (Pg.LINE p) LINE3.CDR_LOSSES
  event := s.get (Pg.LINE p) clockEvent
  last := (s.modem p).last
  finds := (s.modem p).finds
  good := (s.modem p).good
  missed := (s.modem p).missed
  lss := SMap.get noTimer s.timers (Tm.lss p)
  acquire := SMap.get noTimer s.timers (Tm.acquire p)

def State.syncAlign (s : State) (p : Port) : SyncAlign where
  align := s.get (Pg.LFR p) LFR0.DS_STAT_ALIGN
  gen := s.get (Pg.LFR p) LFR0.DS_CTRL_GEN
  jumps := s.get (Pg.LFR p) LFR1.COUNT_JUMP
  lost := s.get (Pg.LFR p) LFR1.HDR_LOST
  frameCount := s.get (Pg.LFR p) LFR0.FRAME_COUNT_LO
  tree := s.get (Pg.LFR p) LFR0.TREE
  frames := s.get (Pg.LFR p) LFR1.LINE_FRAMES_LO + s.get (Pg.LFR p) LFR1.LINE_FRAMES_HI * 2 ^ 32
  miss := (s.down p).miss
  count := (s.down p).count
  boundary := (s.down p).boundary

def State.sync (s : State) (p : Port) : SyncView := ⟨s.syncClock p, s.syncAlign p, (s.down p).raw, s.beyondLines⟩

/-- A state whose `beyondLines` is another's differs from it in the fields of the footprint alone. -/
theorem eq_of_beyondLines {s t : State} (h : t.beyondLines = s.beyondLines) :
    t = { s with
      regs := t.regs, clock := t.clock, servo := t.servo, pins := t.pins, skein := t.skein, lineA := t.lineA,
      lineB := t.lineB, pcie := t.pcie, timers := t.timers, free := t.free, out := t.out, ciph := t.ciph,
      sched := t.sched, gauge := t.gauge } := by
  cases s
  cases t
  simp only [State.beyondLines, State.mk.injEq, true_and] at h
  simp only [State.mk.injEq, true_and]
  exact h

/-- The counter of line frames, read whole. -/
theorem frames_syncAlign (s : State) (p : Port) : (s.syncAlign p).frames = s.get64 (Pg.LFR p) LFR1.LINE_FRAMES_LO := by
  have full (o : Nat) (w : Word) : Fld.get ⟨o, 0, 32⟩ w = w.toNat := by
    simp only [Fld.get, Nat.pow_zero, Nat.div_one]; exact Nat.mod_eq_of_lt w.isLt
  simp only [State.syncAlign, State.get, State.get64, LFR1.LINE_FRAMES_LO, LFR1.LINE_FRAMES_HI, full, Nat.add_assoc]

theorem lineOn_of_rest {s t : State} (p : Port) (h : t.beyondLines = s.beyondLines) : t.lineOn p = s.lineOn p := by
  have hf : t.fns = s.fns := (congrArg State.fns h : t.beyondLines.fns = s.beyondLines.fns)
  unfold State.lineOn State.fnIs State.fn
  rw [hf]

/-- The fields of the LINE pages and of the LFR pages that the view reads. -/
def clockFields : List Fld := [LINE0.RX_STAT_CDR, LINE0.RX_STAT_CLK_SRC, LINE3.CDR_LOSSES, clockEvent]
def alignFields : List Fld :=
  [LFR0.DS_STAT_ALIGN, LFR0.DS_CTRL_GEN, LFR1.COUNT_JUMP, LFR1.HDR_LOST, LFR0.FRAME_COUNT_LO, LFR0.TREE,
    LFR1.LINE_FRAMES_LO, LFR1.LINE_FRAMES_HI]

theorem clockFields_off : ∀ F ∈ clockFields, F.off < 0x4000 := by decide
theorem alignFields_off : ∀ F ∈ alignFields, F.off < 0x4000 := by decide

theorem syncClock_congr {s t : State} {p : Port} (hg : ∀ F ∈ clockFields, t.get (Pg.LINE p) F = s.get (Pg.LINE p) F)
    (hm : t.modem p = s.modem p) (ht : t.timers = s.timers) : t.syncClock p = s.syncClock p := by
  simp only [clockFields, List.forall_mem_cons] at hg
  obtain ⟨h1, h2, h3, h4, -⟩ := hg
  simp only [State.syncClock, h1, h2, h3, h4, hm, ht]

theorem syncAlign_congr {s t : State} {p : Port} (hg : ∀ F ∈ alignFields, t.get (Pg.LFR p) F = s.get (Pg.LFR p) F)
    (hd : t.down p = s.down p) : t.syncAlign p = s.syncAlign p := by
  simp only [alignFields, List.forall_mem_cons] at hg
  obtain ⟨h1, h2, h3, h4, h5, h6, h7, h8, -⟩ := hg
  simp only [State.syncAlign, h1, h2, h3, h4, h5, h6, h7, h8, hd]

/-! ### Fields apart -/

/-- Whether putting `G` leaves `F` of the same page alone. -/
def Fld.apart (F G : Fld) : Bool :=
  decide (F.off ≠ G.off) || decide (G.lo + G.w ≤ 32) && (decide (F.lo + F.w ≤ G.lo) || decide (G.lo + G.w ≤ F.lo))

theorem get_set_apart {F G : Fld} (h : F.apart G = true) (s : State) (b v : Nat) : (s.set b G v).get b F = s.get b F := by
  simp only [Fld.apart, Bool.or_eq_true, Bool.and_eq_true, decide_eq_true_eq] at h
  rcases h with h | ⟨hG, h⟩
  · exact State.get_set_reg s b b F G v (by omega)
  · exact State.get_set_ne s b b F G v hG h

/-- The LINE pages and the LFR pages lie apart, those of one port from those of the other, and all of them from what lies
below the LINE pages of port A or above the LFR pages of port B. -/
theorem line_ne_lfr (p q : Port) {m n : Nat} (hm : m < 0x4000) (hn : n < 0x4000) : Pg.LINE p + m ≠ Pg.LFR q + n := by
  cases p <;> cases q <;> simp only [Pg.LINE, Pg.LFR] <;> omega
theorem lfr_ne_lfr {p q : Port} (h : p ≠ q) {m n : Nat} (hm : m < 0x4000) (hn : n < 0x4000) :
    Pg.LFR p + m ≠ Pg.LFR q + n := by
  cases p <;> cases q <;> simp only [Pg.LFR, ne_eq, not_true_eq_false] at h ⊢ <;> omega
theorem line_ne_far (p : Port) {a n : Nat} (h : a < 0x40000 ∨ 0x58000 ≤ a) (hn : n < 0x4000) : Pg.LINE p + n ≠ a := by
  cases p <;> simp only [Pg.LINE] <;> omega
theorem lfr_ne_far (p : Port) {a n : Nat} (h : a < 0x40000 ∨ 0x58000 ≤ a) (hn : n < 0x4000) : Pg.LFR p + n ≠ a := by
  cases p <;> simp only [Pg.LFR] <;> omega

/-! ### Register updates that the view does not see -/

/-- Whether a field of the LINE pages, or of the LFR pages, is apart from every one that the view reads. -/
def lineQuiet (F : Fld) : Bool := decide (F.off < 0x4000) && clockFields.all (fun G => G.apart F)
def lfrQuiet (F : Fld) : Bool := decide (F.off < 0x4000) && alignFields.all (fun G => G.apart F)

theorem syncClock_set_lfr {F : Fld} (h : F.off < 0x4000) (s : State) (p q : Port) (v : Nat) :
    (s.set (Pg.LFR q) F v).syncClock p = s.syncClock p :=
  syncClock_congr (fun G hG => State.get_set_reg _ _ _ _ _ _ (line_ne_lfr p q (clockFields_off G hG) h)) rfl rfl

theorem syncAlign_set_line {F : Fld} (h : F.off < 0x4000) (s : State) (p q : Port) (v : Nat) :
    (s.set (Pg.LINE q) F v).syncAlign p = s.syncAlign p :=
  syncAlign_congr (fun G hG => State.get_set_reg _ _ _ _ _ _ (line_ne_lfr q p h (alignFields_off G hG)).symm) rfl

theorem sync_set_line {F : Fld} (h : lineQuiet F = true) (s : State) (v : Nat) (p : Port) :
    (s.set (Pg.LINE p) F v).sync p = s.sync p := by
  simp only [lineQuiet, Bool.and_eq_true, decide_eq_true_eq, List.all_eq_true] at h
  have hc : (s.set (Pg.LINE p) F v).syncClock p = s.syncClock p :=
    syncClock_congr (fun G hG => get_set_apart (h.2 G hG) s _ v) rfl rfl
  simp only [State.sync, hc, syncAlign_set_line h.1]
  rfl

theorem sync_set_lfr {F : Fld} (h : lfrQuiet F = true) (s : State) (v : Nat) (p q : Port) :
    (s.set (Pg.LFR q) F v).sync p = s.sync p := by
  simp only [lfrQuiet, Bool.and_eq_true, decide_eq_true_eq, List.all_eq_true] at h
  obtain ⟨ho, ha⟩ := h
  have halign : (s.set (Pg.LFR q) F v).syncAlign p = s.syncAlign p := by
    refine syncAlign_congr (fun G hG => ?_) rfl
    by_cases e : p = q
    · exact e ▸ get_set_apart (ha G hG) s _ v
    · exact State.get_set_reg _ _ _ _ _ _ (lfr_ne_lfr e (alignFields_off G hG) ho)
  simp only [State.sync, halign, syncClock_set_lfr ho]
  rfl

/-- A register outside the LINE and LFR pages. -/
theorem sync_wr_far {a : Nat} (h : a < 0x40000 ∨ 0x58000 ≤ a) (s : State) (w : Word) (p : Port) :
    (s.wr a w).sync p = s.sync p := by
  have hc : (s.wr a w).syncClock p = s.syncClock p :=
    syncClock_congr (fun G hG => by
      simp only [State.get, State.rd_wr_ne s w (line_ne_far p h (clockFields_off G hG))]) rfl rfl
  have ha : (s.wr a w).syncAlign p = s.syncAlign p :=
    syncAlign_congr (fun G hG => by
      simp only [State.get, State.rd_wr_ne s w (lfr_ne_far p h (alignFields_off G hG))]) rfl
  simp only [State.sync, hc, ha]
  rfl

/-- A word of the LFR pages that holds no field of the view. -/
theorem sync_wr_lfr {o : Nat} (h : alignFields.all (fun G => decide (G.off ≠ o)) = true) (ho : o < 0x4000) (s : State)
    (w : Word) (p : Port) : (s.wr (Pg.LFR p + o) w).sync p = s.sync p := by
  simp only [List.all_eq_true, decide_eq_true_eq] at h
  have hc : (s.wr (Pg.LFR p + o) w).syncClock p = s.syncClock p :=
    syncClock_congr (fun G hG => by
      simp only [State.get, State.rd_wr_ne s w (line_ne_lfr p p (clockFields_off G hG) ho)]) rfl rfl
  have ha : (s.wr (Pg.LFR p + o) w).syncAlign p = s.syncAlign p :=
    syncAlign_congr (fun G hG => by
      have hne : Pg.LFR p + G.off ≠ Pg.LFR p + o := fun e => h G hG (Nat.add_left_cancel e)
      simp only [State.get, State.rd_wr_ne s w hne]) rfl
  simp only [State.sync, hc, ha]
  rfl

theorem sync_set_low {b : Nat} {F : Fld} (h : b + F.off < 0x40000) (s : State) (v : Nat) (p : Port) :
    (s.set b F v).sync p = s.sync p := sync_wr_far (.inl h) s _ p

theorem sync_set_high {b : Nat} (h : 0x58000 ≤ b) (s : State) (F : Fld) (v : Nat) (p : Port) :
    (s.set b F v).sync p = s.sync p := sync_wr_far (.inr (Nat.le_add_right_of_le h)) s _ p

theorem sync_set_gauge {F : Fld} (h : F.off < 0x1000) (s : State) (v : Nat) (p q : Port) :
    (s.set (Pg.GAUGE q) F v).sync p = s.sync p :=
  sync_set_low (by cases q <;> simp only [Pg.GAUGE] <;> omega) s v p

theorem sync_inc_high {b : Nat} (h : 0x58000 ≤ b) (s : State) (F : Fld) (p : Port) : (s.inc b F).sync p = s.sync p :=
  sync_set_high h s F _ p

theorem sync_evt_high {b : Nat} (h : 0x58000 ≤ b) (s : State) (n : Nat) (p : Port) : (s.evt b n).sync p = s.sync p :=
  sync_set_high h s _ _ p

theorem sync_wr_high {b : Nat} (h : 0x58000 ≤ b) (s : State) (o : Nat) (w : Word) (p : Port) :
    (s.wr (b + o) w).sync p = s.sync p := sync_wr_far (.inr (Nat.le_add_right_of_le h)) s w p

theorem sync_add64_high {b : Nat} (h : 0x58000 ≤ b) (s : State) (F : Fld) (n : Nat) (p : Port) :
    (s.add64 b F n).sync p = s.sync p := by
  unfold State.add64 State.set64
  rw [Nat.add_assoc, sync_wr_high h, sync_wr_high h]

theorem sync_evt_low {b : Nat} (h : b + HDR.PAGE_EVENT.off < 0x40000) (s : State) (n : Nat) (p : Port) :
    (s.evt b n).sync p = s.sync p :=
  sync_set_low (F := ⟨HDR.PAGE_EVENT.off, n, 1⟩) h s _ p

theorem lfrQuiet_event (n : Nat) : lfrQuiet ⟨HDR.PAGE_EVENT.off, n, 1⟩ = true := by
  have h : ∀ G ∈ alignFields, G.off ≠ HDR.PAGE_EVENT.off := by decide
  simp only [lfrQuiet, Fld.apart, Bool.and_eq_true, Bool.or_eq_true, decide_eq_true_eq, List.all_eq_true]
  exact ⟨by decide, fun G hG => .inl (h G hG)⟩

theorem sync_evt_lfr (s : State) (n : Nat) (p : Port) : (s.evt (Pg.LFR p) n).sync p = s.sync p :=
  sync_set_lfr (lfrQuiet_event n) s _ p p

theorem sync_inc_lfr {F : Fld} (h : lfrQuiet F = true) (s : State) (p : Port) : (s.inc (Pg.LFR p) F).sync p = s.sync p :=
  sync_set_lfr h s _ p p

theorem sync_addCnt_lfr {F : Fld} (h : lfrQuiet F = true) (s : State) (n : Nat) (p : Port) :
    (s.addCnt (Pg.LFR p) F n).sync p = s.sync p := sync_set_lfr h s _ p p

theorem sync_setBit_lfr {F : Fld} (h : lfrQuiet F = true) (s : State) (v : Bool) (p q : Port) :
    (s.setBit (Pg.LFR q) F v).sync p = s.sync p := sync_set_lfr h s _ p q

theorem sync_setBit_line {F : Fld} (h : lineQuiet F = true) (s : State) (v : Bool) (p : Port) :
    (s.setBit (Pg.LINE p) F v).sync p = s.sync p := sync_set_line h s _ p

/-! ### Fields of the state that the view does not see -/

theorem sync_withServo (s : State) (x : TimeServo) (p : Port) : ({ s with servo := x } : State).sync p = s.sync p := rfl
theorem sync_setEp (s : State) (q : Nat) (e : Ep) (p : Port) : (s.setEp q e).sync p = s.sync p := rfl
theorem sync_setFnHost (s : State) (f : Nat) (x : FnHost) (p : Port) : (s.setFnHost f x).sync p = s.sync p := rfl
theorem sync_setPin (s : State) (n : Nat) (v : Bool) (p : Port) : (s.setPin n v).sync p = s.sync p := rfl
theorem sync_takeFree (s : State) (p : Port) : s.takeFree.sync p = s.sync p := rfl
theorem sync_commitInc (s : State) (n : Nat) (p : Port) : (s.commitInc n).sync p = s.sync p := rfl
theorem sync_setPool (s : State) (n : Nat) (x : PoolSt) (p : Port) : (s.setPool n x).sync p = s.sync p := rfl
theorem sync_setGauge (s : State) (q : Port) (x : GaugeSt) (p : Port) : (s.setGauge q x).sync p = s.sync p := rfl
theorem sync_setQueue (s : State) (q : Nat) (x : List QFrame) (p : Port) : (s.setQueue q x).sync p = s.sync p := rfl
theorem sync_setLane (s : State) (e : Nat) (x : List QFrame) (p : Port) : (s.setLane e x).sync p = s.sync p := rfl
theorem sync_setRootSlot (s : State) (n : Nat) (v : Option (List Byte)) (p : Port) :
    (s.setRootSlot n v).sync p = s.sync p := rfl
theorem sync_setLineKey (s : State) (q : Port) (n : Nat) (k : LineKey) (p : Port) :
    (s.setLineKey q n k).sync p = s.sync p := rfl
theorem sync_setTport (s : State) (q : Port) (t : TimePort) (p : Port) : (s.setTport q t).sync p = s.sync p := by
  cases q <;> rfl

theorem sync_setRg (s : State) (p : Port) (r : Reg) : (s.setRg p r).sync p = s.sync p := by cases p <;> rfl

theorem sync_setUp (s : State) (p : Port) (u : Up) : (s.setUp p u).sync p = s.sync p := by
  unfold State.setUp
  rw [sync_set_lfr rfl]
  cases p <;> rfl

/-- The modem replaced: the view sees what clock recovery keeps of it. -/
theorem sync_setModem (s : State) (p : Port) (m : Modem) :
    (s.setModem p m).sync p = { s.sync p with
      clock := { (s.sync p).clock with last := m.last, finds := m.finds, good := m.good, missed := m.missed } } := by
  cases p <;> rfl

/-- The framer replaced: the view sees the line frame now received, and the defects. -/
theorem sync_setDown (s : State) (p : Port) (d : Down) :
    (s.setDown p d).sync p = { s.sync p with
      alignment := { (s.sync p).alignment with miss := d.miss, count := d.count, boundary := d.boundary }
      raw := d.raw } := by
  cases p <;> rfl

/-- A timer that is none of clock recovery's. -/
def otherTimer (t : Nat) : Prop := t < 40 ∨ 44 ≤ t

theorem otherTimer_port (n : Nat) (p : Port) (h : 44 ≤ n) : otherTimer (n + p.num) := .inr (by omega)

theorem syncTimer_ne {t : Nat} (h : otherTimer t) (p : Port) : Tm.lss p ≠ t ∧ Tm.acquire p ≠ t := by
  unfold otherTimer at h
  cases p <;> simp only [Tm.lss, Tm.acquire, Port.num] <;> omega

theorem sync_startTimer {t : Nat} (h : otherTimer t) (s : State) (ns : Nat) (p : Port) :
    (s.startTimer t ns).sync p = s.sync p := by
  obtain ⟨hl, ha⟩ := syncTimer_ne h p
  simp only [State.sync, State.syncClock, State.timer_startTimer, if_neg hl, if_neg ha]
  rfl

theorem sync_stopTimer {t : Nat} (h : otherTimer t) (s : State) (p : Port) : (s.stopTimer t).sync p = s.sync p := by
  obtain ⟨hl, ha⟩ := syncTimer_ne h p
  simp only [State.sync, State.syncClock, State.timer_stopTimer, if_neg hl, if_neg ha]
  rfl

/-- What every step of a run of updates leaves alone, the run leaves alone. -/
theorem sync_foldl {β : Type} {f : State → β → State} {p : Port} {l : List β}
    (h : ∀ x ∈ l, ∀ s, (f s x).sync p = s.sync p) (s : State) : (l.foldl f s).sync p = s.sync p := by
  induction l generalizing s with
  | nil => rfl
  | cons x l ih =>
    rw [List.foldl_cons, ih (fun y hy => h y (List.mem_cons_of_mem _ hy)), h x List.mem_cons_self]

end Sys2Proof.Machine
end

section
/-!
PROOF. What follows from a defect, an inhibit or a registration move leaves clock recovery and alignment as they are.
-/

namespace Sys2Proof.Machine

/-! ### A frame dropped: its buffers and its send (R382, R426 to R432) -/

theorem sync_sendPcie (s : State) (e : Emission) (p : Port) : (s.sendPcie e).sync p = s.sync p := by
  unfold State.sendPcie
  split <;> rfl

theorem sync_sendMsix (s : State) (f v : Nat) (p : Port) : (s.sendMsix f v).sync p = s.sync p := by
  unfold State.sendMsix
  simp only
  split
  · rfl
  split
  · rfl
  · exact sync_sendPcie _ _ p

theorem otherTimer_moderate (q : Nat) : otherTimer (Tm.moderate q) := .inr (by unfold Tm.moderate; omega)

theorem sync_irqTry (s : State) (q : Nat) (p : Port) : (s.irqTry q).sync p = s.sync p := by
  have inc (s : State) (F : Fld) : (s.inc Pg.HQ F).sync p = s.sync p := sync_inc_high (by decide) s F p
  unfold State.irqTry
  simp only
  repeat' split
  · rfl
  · rfl
  · rw [inc, sync_sendPcie, sync_setFnHost, inc, sync_setEp]
  · rw [inc, sync_setEp]
  · rw [inc, sync_stopTimer (otherTimer_moderate q), sync_setEp, sync_sendMsix]
  · rw [sync_stopTimer (otherTimer_moderate q), sync_setEp, sync_sendMsix]
  all_goals rfl

theorem sync_moderate (s : State) (q : Nat) (p : Port) : (s.moderate q).sync p = s.sync p := by
  unfold State.moderate
  simp only
  repeat' split
  all_goals simp only [sync_setEp, sync_stopTimer (otherTimer_moderate q), sync_startTimer (otherTimer_moderate q)]

theorem sync_cplWrite (s : State) (q : Nat) (c : Cpl) (p : Port) : (s.cplWrite q c).sync p = s.sync p := by
  have add (s : State) (F : Fld) (n : Nat) : (s.add64 Pg.HQ F n).sync p = s.sync p := sync_add64_high (by decide) s F n p
  unfold State.cplWrite
  simp only [sync_irqTry]
  repeat' split
  all_goals simp only [add, sync_moderate, sync_setEp, sync_sendPcie]

theorem sync_cplFlush (q : Nat) (p : Port) (k : Nat) (s : State) : (s.cplFlush q k).sync p = s.sync p := by
  induction k generalizing s with
  | zero => rfl
  | succ k ih =>
    unfold State.cplFlush
    simp only
    split
    · rfl
    · repeat' split
      all_goals simp only [ih, sync_cplWrite, sync_setEp]

theorem sync_complete (s : State) (q : Nat) (c : Cpl) (p : Port) : (s.complete q c).sync p = s.sync p := by
  unfold State.complete
  simp only
  split
  · rw [sync_cplFlush, sync_setEp]
  · rw [sync_inc_high (by decide), sync_cplFlush, sync_setEp]

theorem sync_landed (s : State) (q : Nat) (p : Port) : (s.landed q).sync p = s.sync p := rfl

theorem sync_sendDone (s : State) (d : Send) (st : Nat) (dr : Bool) (p : Port) : (s.sendDone d st dr).sync p = s.sync p := by
  unfold State.sendDone
  simp only
  repeat' split
  all_goals simp only [sync_complete, sync_landed, sync_setEp]

theorem sync_setPoolFree (s : State) (k n : Nat) (p : Port) : (s.setPoolFree k n).sync p = s.sync p := by
  have set (s : State) (F : Fld) (v : Nat) : (s.set Pg.SKEIN F v).sync p = s.sync p := sync_set_high (by decide) s F v p
  unfold State.setPoolFree
  simp only
  split
  · rw [set, set]
  · rw [set]

theorem sync_putFree (s : State) (h : Nat) (p : Port) : (s.putFree h).sync p = s.sync p := by
  unfold State.putFree
  simp only
  split
  · rfl
  · rw [sync_setPoolFree, sync_setPool]

theorem sync_violation (s : State) (res caller owner h : Nat) (ho : Bool) (p : Port) :
    (s.violation res caller owner h ho).sync p = s.sync p := by
  have hs : (0x58000 : Nat) ≤ Pg.SKEIN := by decide
  unfold State.violation
  rw [sync_wr_high hs, sync_wr_high hs]
  repeat' split
  all_goals rw [sync_evt_high hs, sync_inc_high hs]

theorem sync_freeBuf (s : State) (caller h : Nat) (p : Port) : (s.freeBuf caller h).2.sync p = s.sync p := by
  unfold State.freeBuf
  simp only
  split
  · exact sync_putFree s h p
  · exact sync_violation _ _ _ _ _ _ p

theorem sync_dropPkt (s : State) (k : Pkt) (st : Nat) (p : Port) : (s.dropPkt k st).sync p = s.sync p := by
  have free : (s.freePkt k).sync p = s.sync p := sync_foldl (fun _ _ s => sync_freeBuf s _ _ p) s
  unfold State.dropPkt State.pktDone
  split
  · rw [sync_sendDone, free]
  · exact free

/-! ### Grants and bursts given up (R208 to R210) -/

theorem sync_lostFrame (s : State) (u : UpFrame) (p : Port) : (s.lostFrame u).sync p = s.sync p := by
  unfold State.lostFrame
  split
  · rfl
  · exact sync_dropPkt _ _ _ p

theorem sync_lostBurst {F : Fld} (hF : lfrQuiet F = true) (s : State) (p : Port) (b : Burst) :
    (s.lostBurst p F b).sync p = s.sync p := by
  have lost : (b.done.foldl State.lostFrame (s.inc (Pg.LFR p) F)).sync p = s.sync p := by
    rw [sync_foldl (fun _ _ s => sync_lostFrame s _ p), sync_inc_lfr hF]
  unfold State.lostBurst
  simp only
  split
  · rw [State.changeFrame, sync_setUp, lost]
  · exact lost

/-- The modem with another burst in the transmit monitor. -/
theorem sync_setModem_txmon (s : State) (p : Port) (x : Option (Nat × Int × Nat × Nat × TxChain)) :
    (s.setModem p { s.modem p with txmonBurst := x }).sync p = s.sync p := by rw [sync_setModem]; rfl

theorem sync_cutBurst (s : State) (p : Port) : (s.cutBurst p).sync p = s.sync p := by
  have clip (s : State) (n : Nat) : (s.addCnt (Pg.LINE p) LINE3.DAC_CLIP n).sync p = s.sync p := sync_set_line rfl s _ p
  unfold State.cutBurst
  split
  · rfl
  simp only [sync_evt_lfr, sync_lostBurst (F := LFR1.BURST_CUT) rfl]
  split <;> simp only [clip, sync_takeFree, sync_setPin, sync_setModem_txmon, sync_setUp]

theorem sync_discardGrants {F : Fld} (hF : lfrQuiet F = true) (s : State) (p : Port) :
    (s.discardGrants p F).sync p = s.sync p := by
  unfold State.discardGrants
  simp only
  rw [sync_foldl (fun b _ s => sync_lostBurst hF s p b), sync_addCnt_lfr hF, sync_setUp]

theorem sync_returnOpen (s : State) (p : Port) (slot : Nat) : (s.returnOpen p slot).sync p = s.sync p := by
  unfold State.returnOpen
  split
  · rfl
  simp only
  split <;> simp only [sync_setUp, sync_setLane, sync_setQueue]

theorem lfrQuiet_allocValid : ∀ i ∈ List.range 64, lfrQuiet (LFR0.ALLOC_VALID i) = true := by decide +kernel

theorem sync_allocClear (s : State) (p : Port) {i : Nat} (hi : i ∈ List.range 64) :
    (s.allocClear p i).sync p = s.sync p := by
  unfold State.allocClear
  simp only
  split
  · rw [sync_returnOpen, sync_foldl (fun b _ s => sync_lostBurst (F := LFR1.GRANT_NOT_PERMITTED) rfl s p b),
      sync_addCnt_lfr rfl, sync_setUp, sync_set_lfr (lfrQuiet_allocValid i hi)]
  · rfl

theorem sync_allocClearAll (s : State) (p : Port) : (s.allocClearAll p).sync p = s.sync p :=
  sync_foldl (fun _ hi s => sync_allocClear s p hi) s

/-! ### The Gauge and the time selection (R281, R282, R307, R315) -/

theorem sync_gaugeDiscard (s : State) (p : Port) : (s.gaugeDiscard p).sync p = s.sync p := by
  have inc (s : State) : (s.inc (Pg.GAUGE p) GAUGE.EXPIRED).sync p = s.sync p := sync_set_gauge (by decide) s _ p p
  have evt (s : State) : (s.evt (Pg.GAUGE p) 10).sync p = s.sync p :=
    sync_set_gauge (F := ⟨HDR.PAGE_EVENT.off, 10, 1⟩) (by decide) s _ p p
  unfold State.gaugeDiscard
  simp only
  split
  · rw [evt, inc, sync_set_gauge (by decide), sync_set_gauge (by decide), sync_setGauge]
  · rfl

theorem sync_gaugeLeave (s : State) (p : Port) : (s.gaugeLeave p).sync p = s.sync p := by
  unfold State.gaugeLeave
  simp only [sync_gaugeDiscard, sync_setGauge]

theorem sync_gaugeKeep (s : State) (p : Port) (tree : Nat) : (s.gaugeKeep p tree).sync p = s.sync p := by
  unfold State.gaugeKeep
  repeat' split
  all_goals rfl

theorem sync_gaugeTree (s : State) (p : Port) : (s.gaugeTree p).sync p = s.sync p := by
  rw [State.gaugeTree, sync_gaugeLeave, sync_setGauge]

theorem sync_refreshPort (s : State) (q p : Port) : (s.refreshPort q).sync p = s.sync p := by
  have inTime : Pg.TIME + (TIME0.PORT_STAT_IN_TIME q.num).off < 0x40000 := by cases q <;> decide
  have source : Pg.TIME + (TIME0.PORT_STAT_ASYM_SRC q.num).off < 0x40000 := by cases q <;> decide
  rw [State.refreshPort, sync_set_low source, State.setBit, sync_set_low inTime]

theorem sync_moveTime (s : State) (st : Nat) (p : Port) : (s.moveTime st).sync p = s.sync p := by
  have stop (s : State) (t : Nat) (h : t < 40) : (s.stopTimer t).sync p = s.sync p := sync_stopTimer (.inl h) s p
  unfold State.moveTime
  split
  · rfl
  simp only
  repeat' split
  all_goals simp (disch := decide) only [stop, sync_startTimer (.inl (show Tm.holdover < 40 by decide)), sync_withServo,
    sync_evt_low, sync_set_low]

theorem sync_enterHoldover (s : State) (p : Port) : s.enterHoldover.sync p = s.sync p := by
  unfold State.enterHoldover
  simp only
  split <;> simp only [sync_takeFree, sync_commitInc, sync_moveTime]

theorem sync_settleTime (s : State) (p : Port) : s.settleTime.sync p = s.sync p := by
  unfold State.settleTime
  simp only
  repeat' split
  all_goals simp only [sync_enterHoldover, sync_withServo, sync_moveTime]

theorem sync_select (s : State) (n : Nat) (p : Port) : (s.select n).sync p = s.sync p := by
  have late : otherTimer Tm.noSelection := .inl (by decide)
  unfold State.select
  simp only
  repeat' split
  all_goals simp (disch := decide) only [sync_startTimer late, sync_stopTimer late, sync_evt_low, sync_set_low]

theorem sync_revertNow (s : State) (was : Bool) (p : Port) : (s.revertNow was).sync p = s.sync p := by
  have late : otherTimer Tm.prefer := .inl (by decide)
  unfold State.revertNow
  simp only
  repeat' split
  all_goals simp only [sync_startTimer late, sync_stopTimer late, sync_withServo]

theorem sync_reselect (s : State) (p : Port) : s.reselect.sync p = s.sync p := by
  simp only [State.reselect, sync_settleTime, sync_revertNow, sync_select, sync_refreshPort]

/-! ### Registration (R235 to R241) -/

theorem sync_refreshWorking (s : State) (p : Port) : s.refreshWorking.sync p = s.sync p := by
  unfold State.refreshWorking
  simp only
  rw [sync_setBit_lfr rfl, sync_setBit_lfr rfl]

theorem sync_setServe (s : State) (p : Port) (a b c : Nat) : (s.setServe p a b c).sync p = s.sync p := by
  unfold State.setServe
  simp only
  rw [sync_set_lfr rfl, sync_set_lfr rfl, sync_set_lfr rfl]

/-- The timers of the registration of a port. -/
theorem otherTimer_announce (p : Port) : otherTimer (Tm.announce p) := otherTimer_port 44 p (by decide)
theorem otherTimer_range (p : Port) : otherTimer (Tm.range p) := otherTimer_port 46 p (by decide)
theorem otherTimer_prove (p : Port) : otherTimer (Tm.prove p) := otherTimer_port 48 p (by decide)
theorem otherTimer_hold (p : Port) : otherTimer (Tm.hold p) := otherTimer_port 50 p (by decide)
theorem otherTimer_resend (p : Port) : otherTimer (Tm.resend p) := otherTimer_port 54 p (by decide)

theorem sync_setReg (s : State) (p : Port) (st : Nat) : (s.setReg p st).sync p = s.sync p := by
  unfold State.setReg
  split
  · rfl
  · rw [sync_evt_lfr, sync_set_lfr rfl, sync_stopTimer (otherTimer_hold p), sync_stopTimer (otherTimer_prove p),
      sync_stopTimer (otherTimer_range p), sync_stopTimer (otherTimer_announce p)]

theorem sync_buildShort (s : State) (p : Port) (type : Nat) (body : List Byte) :
    (s.buildShort p type body).2.sync p = s.sync p := sync_setRg _ p _

theorem sync_newAnnounce (s : State) (p : Port) : (s.newAnnounce p).sync p = s.sync p := by
  unfold State.newAnnounce
  simp only
  rw [sync_setUp, sync_buildShort, sync_set_lfr rfl, sync_setRg, sync_takeFree]

theorem sync_newRangingResp (s : State) (p : Port) : (s.newRangingResp p).sync p = s.sync p := by
  unfold State.newRangingResp
  simp only
  rw [sync_setUp, sync_buildShort]

theorem sync_dropLineKeys (s : State) (p q : Port) : (s.dropLineKeys q).sync p = s.sync p := by
  have hc : (0x58000 : Nat) ≤ Pg.CIPH := by decide
  unfold State.dropLineKeys
  simp only
  rw [sync_set_high hc, sync_set_high hc, sync_set_high hc, sync_setLineKey, sync_setLineKey, sync_setRootSlot,
    sync_setRootSlot]

theorem sync_regDrop (s : State) (p : Port) : (s.regDrop p).sync p = s.sync p := by
  have hc : (0x58000 : Nat) ≤ Pg.CIPH := by decide
  unfold State.regDrop
  simp only
  rw [sync_setUp, sync_setRg, sync_stopTimer (otherTimer_resend p), sync_set_lfr rfl, sync_set_lfr rfl, sync_set_lfr rfl,
    sync_set_high hc, sync_dropLineKeys, sync_allocClearAll, sync_wr_lfr (by decide) (by decide), sync_setServe]

theorem sync_listenDrop (s : State) (p : Port) : (s.listenDrop p).sync p = s.sync p := by
  have apart : ∀ i ∈ List.range 7, alignFields.all (fun G => decide (G.off ≠ (LFR0.ADDR (i + 1)).off)) = true ∧
      (LFR0.ADDR (i + 1)).off < 0x4000 := by decide
  unfold State.listenDrop
  simp only
  rw [sync_setRg, sync_foldl (fun i hi s => sync_wr_lfr (apart i hi).1 (apart i hi).2 s 0 p), sync_set_lfr rfl,
    sync_set_lfr rfl, sync_regDrop]

theorem sync_regEnter (s : State) (p : Port) (st : Nat) : (s.regEnter p st).sync p = s.sync p := by
  have begun : ((if s.inWork p && decide (st ≠ RegSt.work) then s.gaugeLeave p else s).setReg p st).sync p = s.sync p := by
    rw [sync_setReg]
    split
    · exact sync_gaugeLeave s p
    · rfl
  unfold State.regEnter
  simp only
  rw [sync_reselect, sync_refreshWorking]
  generalize State.setReg _ p st = t at begun
  rw [← begun]
  repeat' split
  all_goals simp (disch := decide) only [sync_listenDrop, sync_startTimer (otherTimer_announce p),
    sync_startTimer (otherTimer_range p), sync_startTimer (otherTimer_prove p), sync_startTimer (otherTimer_hold p),
    sync_newAnnounce, sync_newRangingResp, sync_setServe, sync_set_high, sync_inc_lfr, sync_evt_lfr, sync_cutBurst,
    sync_set_line, sync_regDrop]

theorem sync_orDue (s : State) (p : Port) (k : LineDue) {act : State → State} (h : ∀ s, (act s).sync p = s.sync p) :
    (s.orDue p k act).sync p = s.sync p := by
  unfold State.orDue
  repeat' split
  · rfl
  · exact sync_setRg s p _
  · exact h s

theorem sync_regAbort (s : State) (p : Port) : (s.regAbort p).sync p = s.sync p := by
  rw [State.regAbort, sync_regEnter, sync_inc_lfr rfl]

theorem sync_regDefectLoss (s : State) (p : Port) : (s.regDefectLoss p).sync p = s.sync p := by
  refine sync_orDue s p _ (fun s => ?_)
  unfold State.lossMove
  simp only
  repeat' split
  · exact sync_regAbort s p
  · exact sync_regEnter s p _
  · rfl

theorem sync_regTreeChange (s : State) (p : Port) : (s.regTreeChange p).sync p = s.sync p := by
  rw [State.regTreeChange, sync_orDue _ p _ (fun s => ?_), sync_gaugeTree]
  unfold State.treeMove State.regListen
  simp only
  repeat' split
  all_goals simp (disch := decide) only [sync_regEnter, sync_inc_lfr, sync_regAbort]

theorem sync_regTry (s : State) (p : Port) : (s.regTry p).sync p = s.sync p := by
  refine sync_orDue s p _ (fun s => ?_)
  unfold State.tryMove
  simp only
  repeat' split
  · rfl
  · rw [sync_regEnter, sync_setRg, sync_set_line rfl]
  · rfl

/-! ### Defects and inhibits (R117 to R119, R154) -/

theorem sync_setRaw (s : State) (p : Port) (raw : List Bool) :
    (s.setRaw p raw).sync p = { s.sync p with raw := maskRaw raw } := by
  unfold State.setRaw
  simp only
  have final (t : State) : (if lossOf (maskRaw raw) && !lossOf (s.down p).raw then
      (t.discardGrants p LFR1.BURST_INHIBITED).regDefectLoss p else t).sync p = t.sync p := by
    split
    · rw [sync_regDefectLoss, sync_discardGrants rfl]
    · rfl
  have entries (t : State) : (if (maskRaw raw).getD 2 false && !(s.down p).raw.getD 2 false then
      t.inc (Pg.LFR p) LFR1.LOF_ENTRIES else t).sync p = t.sync p := by
    split
    · exact sync_inc_lfr rfl t p
    · rfl
  have event (old new i : Nat) (t : State) : (if old / 2 ^ i % 2 = new / 2 ^ i % 2 then t
      else t.evt (Pg.LFR p) (8 + i)).sync p = t.sync p := by
    split
    · rfl
    · exact sync_evt_lfr t _ p
  rw [final, entries, sync_set_lfr rfl, sync_foldl (fun i _ t => event _ _ i t), sync_set_lfr rfl, sync_setDown]
  rfl

theorem sync_setDefect (s : State) (p : Port) (i : Nat) (b : Bool) :
    (s.setDefect p i b).sync p =
      { s.sync p with raw := if s.lineOn p then maskRaw ((s.sync p).raw.set i b) else (s.sync p).raw } := by
  unfold State.setDefect
  split
  · exact sync_setRaw s p _
  · rfl

theorem sync_refreshInhibit (s : State) (p : Port) : (s.refreshInhibit p).sync p = s.sync p := by
  unfold State.refreshInhibit
  simp only
  split <;> simp (disch := decide) only [sync_cutBurst, sync_setBit_line]

end Sys2Proof.Machine
end

section
/-!
PROOF. What the operations of clock recovery and alignment do to the view of a port.
-/

namespace Sys2Proof.Machine

/-! ### Updates that the view sees -/

@[simp] theorem modem_set (s : State) (b : Nat) (F : Fld) (v : Nat) (p : Port) : (s.set b F v).modem p = s.modem p := by
  cases p <;> rfl
@[simp] theorem down_set (s : State) (b : Nat) (F : Fld) (v : Nat) (p : Port) : (s.set b F v).down p = s.down p := by
  cases p <;> rfl

theorem sync_set_line_seen {F : Fld} (h : F.off < 0x4000) (s : State) (p : Port) (v : Nat) :
    (s.set (Pg.LINE p) F v).sync p = { s.sync p with clock := (s.set (Pg.LINE p) F v).syncClock p } := by
  simp only [State.sync, syncAlign_set_line h]
  rfl

theorem sync_set_lfr_seen {F : Fld} (h : F.off < 0x4000) (s : State) (p : Port) (v : Nat) :
    (s.set (Pg.LFR p) F v).sync p = { s.sync p with alignment := (s.set (Pg.LFR p) F v).syncAlign p } := by
  simp only [State.sync, syncClock_set_lfr h]
  rfl

theorem sync_set_cdr (s : State) (p : Port) (v : Nat) :
    (s.set (Pg.LINE p) LINE0.RX_STAT_CDR v).sync p =
      { s.sync p with clock := { (s.sync p).clock with cdr := v % 2 ^ 2 } } := by
  have self : (s.set (Pg.LINE p) LINE0.RX_STAT_CDR v).get (Pg.LINE p) LINE0.RX_STAT_CDR = v % 2 ^ 2 :=
    State.get_set_self _ _ _ _ (by decide)
  rw [sync_set_line_seen (by decide)]
  simp (disch := decide) only [State.sync, State.syncClock, get_set_apart, self, modem_set, State.set_timers]

theorem sync_set_source (s : State) (p : Port) (v : Nat) :
    (s.set (Pg.LINE p) LINE0.RX_STAT_CLK_SRC v).sync p =
      { s.sync p with clock := { (s.sync p).clock with source := v % 2 ^ 1 } } := by
  have self : (s.set (Pg.LINE p) LINE0.RX_STAT_CLK_SRC v).get (Pg.LINE p) LINE0.RX_STAT_CLK_SRC = v % 2 ^ 1 :=
    State.get_set_self _ _ _ _ (by decide)
  rw [sync_set_line_seen (by decide)]
  simp (disch := decide) only [State.sync, State.syncClock, get_set_apart, self, modem_set, State.set_timers]

theorem sync_inc_losses (s : State) (p : Port) :
    (s.inc (Pg.LINE p) LINE3.CDR_LOSSES).sync p =
      { s.sync p with clock := { (s.sync p).clock with losses := satAdd32 (s.sync p).clock.losses 1 } } := by
  have self := State.get_addCnt_self s (Pg.LINE p) LINE3.CDR_LOSSES 1 ⟨rfl, rfl⟩
  unfold State.addCnt at self
  rw [State.inc, State.addCnt, sync_set_line_seen (by decide)]
  simp (disch := decide) only [State.sync, State.syncClock, get_set_apart, self, modem_set, State.set_timers]

theorem sync_clockEvent (s : State) (p : Port) :
    (s.evt (Pg.LINE p) 8).sync p = { s.sync p with clock := { (s.sync p).clock with event := 1 } } := by
  have self : (s.set (Pg.LINE p) clockEvent 1).get (Pg.LINE p) clockEvent = 1 := State.get_set_self _ _ _ _ (by decide)
  have hF : (⟨HDR.PAGE_EVENT.off, 8, 1⟩ : Fld) = clockEvent := rfl
  rw [State.evt, hF, sync_set_line_seen (by decide)]
  simp (disch := decide) only [State.sync, State.syncClock, get_set_apart, self, modem_set, State.set_timers]

theorem sync_startTimer_lss (s : State) (p : Port) (ns : Nat) :
    (s.startTimer (Tm.lss p) ns).sync p = { s.sync p with clock := { (s.sync p).clock with lss := some ns } } := by
  have hne : Tm.acquire p ≠ Tm.lss p := by unfold Tm.acquire Tm.lss; omega
  simp only [State.sync, State.syncClock, State.timer_startTimer, if_true, if_neg hne]
  rfl

theorem sync_stopTimer_lss (s : State) (p : Port) :
    (s.stopTimer (Tm.lss p)).sync p = { s.sync p with clock := { (s.sync p).clock with lss := none } } := by
  have hne : Tm.acquire p ≠ Tm.lss p := by unfold Tm.acquire Tm.lss; omega
  simp only [State.sync, State.syncClock, State.timer_stopTimer, if_true, if_neg hne]
  rfl

theorem sync_startTimer_acquire (s : State) (p : Port) (ns : Nat) :
    (s.startTimer (Tm.acquire p) ns).sync p = { s.sync p with clock := { (s.sync p).clock with acquire := some ns } } := by
  have hne : Tm.lss p ≠ Tm.acquire p := by unfold Tm.acquire Tm.lss; omega
  simp only [State.sync, State.syncClock, State.timer_startTimer, if_true, if_neg hne]
  rfl

theorem sync_stopTimer_acquire (s : State) (p : Port) :
    (s.stopTimer (Tm.acquire p)).sync p = { s.sync p with clock := { (s.sync p).clock with acquire := none } } := by
  have hne : Tm.lss p ≠ Tm.acquire p := by unfold Tm.acquire Tm.lss; omega
  simp only [State.sync, State.syncClock, State.timer_stopTimer, if_true, if_neg hne]
  rfl

theorem sync_set_align (s : State) (p : Port) (v : Nat) :
    (s.set (Pg.LFR p) LFR0.DS_STAT_ALIGN v).sync p =
      { s.sync p with alignment := { (s.sync p).alignment with align := v % 2 ^ 2 } } := by
  have self : (s.set (Pg.LFR p) LFR0.DS_STAT_ALIGN v).get (Pg.LFR p) LFR0.DS_STAT_ALIGN = v % 2 ^ 2 :=
    State.get_set_self _ _ _ _ (by decide)
  rw [sync_set_lfr_seen (by decide)]
  simp (disch := decide) only [State.sync, State.syncAlign, get_set_apart, self, down_set]

theorem sync_set_frameCount (s : State) (p : Port) (v : Nat) :
    (s.set (Pg.LFR p) LFR0.FRAME_COUNT_LO v).sync p =
      { s.sync p with alignment := { (s.sync p).alignment with frameCount := v % 2 ^ 32 } } := by
  have self : (s.set (Pg.LFR p) LFR0.FRAME_COUNT_LO v).get (Pg.LFR p) LFR0.FRAME_COUNT_LO = v % 2 ^ 32 :=
    State.get_set_self _ _ _ _ (by decide)
  rw [sync_set_lfr_seen (by decide)]
  simp (disch := decide) only [State.sync, State.syncAlign, get_set_apart, self, down_set]

theorem sync_set_tree (s : State) (p : Port) (v : Nat) :
    (s.set (Pg.LFR p) LFR0.TREE v).sync p =
      { s.sync p with alignment := { (s.sync p).alignment with tree := v % 2 ^ 16 } } := by
  have self : (s.set (Pg.LFR p) LFR0.TREE v).get (Pg.LFR p) LFR0.TREE = v % 2 ^ 16 :=
    State.get_set_self _ _ _ _ (by decide)
  rw [sync_set_lfr_seen (by decide)]
  simp (disch := decide) only [State.sync, State.syncAlign, get_set_apart, self, down_set]

theorem sync_inc_jumps (s : State) (p : Port) :
    (s.inc (Pg.LFR p) LFR1.COUNT_JUMP).sync p =
      { s.sync p with alignment := { (s.sync p).alignment with jumps := satAdd32 (s.sync p).alignment.jumps 1 } } := by
  have self := State.get_addCnt_self s (Pg.LFR p) LFR1.COUNT_JUMP 1 ⟨rfl, rfl⟩
  unfold State.addCnt at self
  rw [State.inc, State.addCnt, sync_set_lfr_seen (by decide)]
  simp (disch := decide) only [State.sync, State.syncAlign, get_set_apart, self, down_set]

theorem sync_inc_lost (s : State) (p : Port) :
    (s.inc (Pg.LFR p) LFR1.HDR_LOST).sync p =
      { s.sync p with alignment := { (s.sync p).alignment with lost := satAdd32 (s.sync p).alignment.lost 1 } } := by
  have self := State.get_addCnt_self s (Pg.LFR p) LFR1.HDR_LOST 1 ⟨rfl, rfl⟩
  unfold State.addCnt at self
  rw [State.inc, State.addCnt, sync_set_lfr_seen (by decide)]
  simp (disch := decide) only [State.sync, State.syncAlign, get_set_apart, self, down_set]

/-- A word of a full register written is its field set. -/
theorem wr_eq_set (s : State) (b o v : Nat) : s.wr (b + o) (BitVec.ofNat 32 v) = s.set b ⟨o, 0, 32⟩ v := by
  have hput (w : Word) : BitVec.ofNat 32 v = Fld.put ⟨o, 0, 32⟩ w v := by
    apply BitVec.eq_of_toNat_eq
    rw [Fld.put_toNat _ _ _ (show 0 + 32 ≤ 32 by decide), BitVec.toNat_ofNat]
    have := w.isLt
    simp only [Nat.pow_zero, Nat.mod_one, Nat.zero_add, Nat.mul_one, Nat.div_eq_of_lt this, Nat.zero_mul, Nat.add_zero]
  exact congrArg (s.wr (b + o)) (hput _)

theorem sync_add64_frames (s : State) (p : Port) :
    (s.add64 (Pg.LFR p) LFR1.LINE_FRAMES_LO 1).sync p =
      { s.sync p with alignment := { (s.sync p).alignment with frames := wrapAdd64 (s.sync p).alignment.frames 1 } } := by
  have hlo : (⟨LFR1.LINE_FRAMES_LO.off, 0, 32⟩ : Fld) = LFR1.LINE_FRAMES_LO := rfl
  have hhi : (⟨LFR1.LINE_FRAMES_LO.off + 4, 0, 32⟩ : Fld) = LFR1.LINE_FRAMES_HI := rfl
  have hself : ((s.add64 (Pg.LFR p) LFR1.LINE_FRAMES_LO 1).syncAlign p).frames =
      wrapAdd64 (s.sync p).alignment.frames 1 := by
    rw [show (s.sync p).alignment = s.syncAlign p from rfl, frames_syncAlign, frames_syncAlign, State.add64,
      State.get64_set64_self]
    exact Nat.mod_mod _ _
  have hset : s.add64 (Pg.LFR p) LFR1.LINE_FRAMES_LO 1 =
      (s.set (Pg.LFR p) LFR1.LINE_FRAMES_LO (wrapAdd64 (s.get64 (Pg.LFR p) LFR1.LINE_FRAMES_LO) 1)).set (Pg.LFR p)
        LFR1.LINE_FRAMES_HI (wrapAdd64 (s.get64 (Pg.LFR p) LFR1.LINE_FRAMES_LO) 1 / 2 ^ 32) := by
    rw [State.add64, State.set64, Nat.add_assoc, wr_eq_set, wr_eq_set, hlo, hhi]
  rw [← hself, hset, sync_set_lfr_seen (by decide), sync_set_lfr_seen (by decide)]
  simp (disch := decide) only [State.sync, State.syncAlign, get_set_apart, down_set]

/-! ### Clock recovery (R128, R129) -/

/-- Clock recovery back in FREE. -/
def SyncClock.freed (c : SyncClock) (count : Bool) : SyncClock :=
  { c with
    cdr := cdrFree, losses := if count then satAdd32 c.losses 1 else c.losses, last := none, finds := [], good := 0,
    missed := 0, acquire := none }

/-- The clocks switched back from the recovered one. -/
def SyncClock.switchedBack (c : SyncClock) : SyncClock := { c with source := 0, event := 1, lss := none }

/-- What every way back to FREE begins with. -/
def State.cdrReset (s : State) (p : Port) (count : Bool) : State :=
  let s := (s.set (Pg.LINE p) LINE0.RX_STAT_CDR cdrFree).stopTimer (Tm.acquire p)
  let s := if count then s.inc (Pg.LINE p) LINE3.CDR_LOSSES else s
  s.setModem p { s.modem p with last := none, finds := [], good := 0, missed := 0 }

theorem sync_cdrReset (s : State) (p : Port) (count : Bool) :
    (s.cdrReset p count).sync p = { s.sync p with clock := (s.sync p).clock.freed count } := by
  cases count <;> simp only [State.cdrReset, sync_setModem, sync_inc_losses, sync_stopTimer_acquire, sync_set_cdr,
    SyncClock.freed, if_true, Bool.false_eq_true, if_false] <;> rfl

/-- The way back to FREE from the states in which the clocks are not the recovered ones. -/
theorem sync_cdrToFree_unlocked {s : State} {p : Port} (hf : s.cdr p ≠ cdrFree) (hl : s.cdr p ≠ cdrLocked)
    (count : Bool) : (s.cdrToFree p count).sync p = { s.sync p with clock := (s.sync p).clock.freed count } := by
  have hs : s.cdrToFree p count = s.cdrReset p count := by
    unfold State.cdrToFree
    simp only [if_neg hf, if_neg hl]
    rfl
  rw [hs, sync_cdrReset]

/-- The way back to FREE from LOCKED: the clocks are switched back, and LSS is raised (R13, R129). -/
theorem sync_cdrToFree_locked {s : State} {p : Port} (hl : s.cdr p = cdrLocked) (count : Bool) :
    (s.cdrToFree p count).sync p = { s.sync p with
      clock := ((s.sync p).clock.freed count).switchedBack
      raw := if s.lineOn p then maskRaw ((s.sync p).raw.set 1 true) else (s.sync p).raw } := by
  have hf : s.cdr p ≠ cdrFree := by rw [hl]; decide
  let u := (((((s.cdrReset p count).set (Pg.LINE p) LINE0.RX_STAT_CLK_SRC 0).evt (Pg.LINE p) 8).stopTimer
    (Tm.lss p)).refreshInhibit p)
  have hs : s.cdrToFree p count = u.setDefect p 1 true := by
    unfold State.cdrToFree
    simp only [if_neg hf, if_pos hl]
    rfl
  have hu : u.sync p = { s.sync p with clock := ((s.sync p).clock.freed count).switchedBack } := by
    simp only [u, sync_refreshInhibit, sync_stopTimer_lss, sync_clockEvent, sync_set_source, sync_cdrReset]
    rfl
  have hon : u.lineOn p = s.lineOn p := lineOn_of_rest p (congrArg SyncView.rest hu)
  rw [hs, sync_setDefect, hu, hon]

theorem sync_cdrLock (s : State) (p : Port) :
    (s.cdrLock p).sync p = { s.sync p with
      clock := { (s.sync p).clock with cdr := cdrLocked, source := 1, event := 1, lss := some ms } } := by
  simp only [State.cdrLock, sync_refreshInhibit, sync_startTimer_lss, sync_clockEvent, sync_set_source, sync_set_cdr]
  rfl

/-- What clock recovery leaves of a port: its alignment, and whether it tells six defects apart. -/
def SyncView.keepsAlignment (v w : SyncView) : Prop :=
  w.alignment = v.alignment ∧ w.rest = v.rest ∧ (v.raw.length = 6 → w.raw.length = 6)

theorem SyncView.keepsAlignment_refl (v : SyncView) : v.keepsAlignment v := ⟨rfl, rfl, id⟩

theorem SyncView.keepsAlignment_clock (v : SyncView) (c : SyncClock) : v.keepsAlignment { v with clock := c } :=
  ⟨rfl, rfl, id⟩

theorem keepsAlignment_cdrToFree (s : State) (p : Port) (count : Bool) :
    (s.sync p).keepsAlignment ((s.cdrToFree p count).sync p) := by
  by_cases hf : s.cdr p = cdrFree
  · have hs : s.cdrToFree p count = s := if_pos hf
    rw [hs]
    exact SyncView.keepsAlignment_refl _
  by_cases hl : s.cdr p = cdrLocked
  · rw [sync_cdrToFree_locked hl]
    refine ⟨rfl, rfl, fun h => ?_⟩
    show List.length (if _ then _ else _) = 6
    split
    · rfl
    · exact h
  · rw [sync_cdrToFree_unlocked hf hl]
    exact SyncView.keepsAlignment_clock _ _

theorem keepsAlignment_setModem (s : State) (p : Port) (m : Modem) :
    (s.sync p).keepsAlignment ((s.setModem p m).sync p) := by
  rw [sync_setModem]
  exact SyncView.keepsAlignment_clock _ _

theorem keepsAlignment_cdrMissed (s : State) (p : Port) : (s.sync p).keepsAlignment ((s.cdrMissed p).sync p) := by
  unfold State.cdrMissed
  simp only
  repeat' split
  · exact keepsAlignment_cdrToFree s p true
  · exact keepsAlignment_setModem s p _
  · exact SyncView.keepsAlignment_refl _

/-- A sync symbol's frequency shown in RX_FREQ. -/
theorem sync_showFreq (s : State) (p : Port) (v : Nat) : (s.set (Pg.LINE p) LINE0.RX_FREQ v).sync p = s.sync p :=
  sync_set_line (by decide) s v p

theorem keepsAlignment_cdrFound (s : State) (p : Port) (o : SyncObs) :
    (s.sync p).keepsAlignment ((s.cdrFound p o).sync p) := by
  unfold State.cdrFound
  simp only
  have shown : (if s.cdr p = cdrFree then s
      else s.set (Pg.LINE p) LINE0.RX_FREQ (ofSigned 16 o.freq)).sync p = s.sync p := by
    split
    · rfl
    · exact sync_showFreq s p _
  generalize (if s.cdr p = cdrFree then s else s.set (Pg.LINE p) LINE0.RX_FREQ (ofSigned 16 o.freq)) = t at shown
  rw [← shown]
  have track (m : Modem) : (t.sync p).keepsAlignment (((t.set (Pg.LINE p) LINE0.RX_STAT_CDR cdrTrack).stopTimer
      (Tm.acquire p) |>.setModem p m).sync p) := by
    rw [sync_setModem, sync_stopTimer_acquire, sync_set_cdr]
    exact SyncView.keepsAlignment_clock _ _
  have lock (m : Modem) : (t.sync p).keepsAlignment (((t.setModem p m).cdrLock p).sync p) := by
    rw [sync_cdrLock, sync_setModem]
    exact SyncView.keepsAlignment_clock _ _
  generalize (if o.freqError.natAbs ≤ 50 then (s.modem p).good + 1 else 0) = good
  repeat' split
  · exact track _
  · exact keepsAlignment_setModem t p _
  · exact keepsAlignment_cdrToFree t p true
  · exact lock _
  · exact keepsAlignment_setModem t p _
  · exact keepsAlignment_setModem t p _
  · exact keepsAlignment_cdrToFree t p true
  · exact keepsAlignment_setModem t p _
  · exact SyncView.keepsAlignment_refl _

/-! ### Streams of a line frame (R98, R101, R116, R552) -/

theorem lfrQuiet_delin : ∀ k ∈ List.range 8, lfrQuiet ⟨LFR0.DS_STAT.off, 16 + 2 * k, 2⟩ = true := by decide
theorem lfrQuiet_erased : ∀ k ∈ List.range 8, lfrQuiet (LFR1.PSTAT_ERASED k) = true := by decide
theorem lfrQuiet_hunts : ∀ k ∈ List.range 8, lfrQuiet (LFR1.PSTAT_HUNTS k) = true := by decide

theorem sync_setStream (s : State) (p : Port) {k : Nat} (hk : k ∈ List.range 8) (x : Stream) :
    (s.setStream p k x).sync p = s.sync p := by
  rw [State.setStream, sync_set_lfr (lfrQuiet_delin k hk), sync_setDown]
  rfl

theorem sync_dropStream (s : State) (p : Port) {k : Nat} (hk : k ∈ List.range 8) (on : Bool) :
    (s.dropStream p k on).sync p = s.sync p := by
  unfold State.dropStream
  simp only
  split
  · rw [sync_addCnt_lfr (lfrQuiet_erased k hk), sync_setStream _ p hk, State.rxRelease, sync_set_lfr rfl]
  · rw [sync_inc_lfr (lfrQuiet_hunts k hk), sync_addCnt_lfr (lfrQuiet_erased k hk), sync_setStream _ p hk,
      State.rxRelease, sync_set_lfr rfl]

theorem sync_dropStreams (s : State) (p : Port) : (s.dropStreams p).sync p = s.sync p := by
  refine sync_foldl (fun k hk s => ?_) s
  split
  · exact sync_dropStream s p hk true
  · rfl

theorem sync_applyProf (s : State) (p : Port) : (s.applyProf p).sync p = s.sync p := by
  refine sync_foldl (fun k hk s => ?_) s
  simp only
  repeat' split
  · rfl
  · exact sync_dropStream s p hk false
  · exact sync_setStream s p hk _

theorem sync_loseStreams (s : State) (p : Port) (n : Nat) : (s.loseStreams p n).sync p = s.sync p := by
  refine sync_foldl (fun k hk s => ?_) s
  simp only
  split
  · exact sync_setStream s p hk _
  · rfl

/-! ### Line frames (R93, R115, R116, R125) -/

theorem sync_headerLost (s : State) (p : Port) :
    (s.headerLost p).sync p =
      { s.sync p with alignment := { (s.sync p).alignment with lost := satAdd32 (s.sync p).alignment.lost 1 } } := by
  rw [State.headerLost, sync_loseStreams, sync_inc_lost]

theorem sync_frameStart (s : State) (p : Port) (frame place : Nat) (lost : Bool) :
    (s.frameStart p frame place lost).sync p = { s.sync p with
      alignment := { (s.sync p).alignment with
        frames := wrapAdd64 (s.sync p).alignment.frames 1, count := frame, boundary := place } } := by
  have capture (t : State) : (if t.bit (Pg.LINE p) LINE0.EQ_CAP_EN = true then
      t.setModem p { t.modem p with eqCount := (t.modem p).eqCount + 1 } else t).sync p = t.sync p := by
    split
    · rw [sync_setModem]; rfl
    · rfl
  have down (t : State) (x : List Bool) : (t.setDown p { t.down p with
      count := frame, boundary := place, lostRecent := x, bodyDue := !lost }).sync p =
        { t.sync p with alignment := { (t.sync p).alignment with count := frame, boundary := place } } := by
    rw [sync_setDown]; rfl
  have counted : ((s.applyProf p).add64 (Pg.LFR p) LFR1.LINE_FRAMES_LO 1).sync p = { s.sync p with
      alignment := { (s.sync p).alignment with frames := wrapAdd64 (s.sync p).alignment.frames 1 } } := by
    rw [sync_add64_frames, sync_applyProf]
  unfold State.frameStart
  simp only
  generalize (s.applyProf p).add64 _ _ 1 = t at counted
  rw [capture, sync_setRg, down]
  simp only [counted]

theorem sync_pushStamp (s : State) (p : Port) (n : Nat) (x : Option Nat) : (s.pushStamp p n x).sync p = s.sync p :=
  sync_setTport s p _ p

theorem sync_alignLost (s : State) (p : Port) :
    (s.alignLost p).sync p = { s.sync p with
      alignment := { (s.sync p).alignment with align := alSeek, miss := 0 }
      raw := if s.lineOn p then maskRaw ((s.sync p).raw.set 2 true) else (s.sync p).raw } := by
  have dropped : (((s.set (Pg.LFR p) LFR0.DS_STAT_ALIGN alSeek).setDown p
      { s.down p with bodyDue := false, miss := 0 }).dropStreams p).sync p =
      { s.sync p with alignment := { (s.sync p).alignment with align := alSeek, miss := 0 } } := by
    rw [sync_dropStreams, sync_setDown, sync_set_align]; rfl
  have raised (t : State) (h : t.beyondLines = s.beyondLines) :
      ((t.setRg p { t.rg p with fresh := false }).setDefect p 2 true).sync p =
        { t.sync p with raw := if s.lineOn p then maskRaw ((t.sync p).raw.set 2 true) else (t.sync p).raw } := by
    have reg : (t.setRg p { t.rg p with fresh := false }).sync p = t.sync p := sync_setRg t p _
    rw [sync_setDefect, reg, lineOn_of_rest p ((congrArg SyncView.rest reg).trans h)]
  exact (raised _ (congrArg SyncView.rest dropped)).trans (by rw [dropped])

theorem sync_showPreamble (s : State) (p : Port) (r : Preamble) :
    (s.showPreamble p r).sync p = { s.sync p with
      alignment := { (s.sync p).alignment with frameCount := r.frame % 2 ^ 32, tree := r.tree % 2 ^ 16 } } := by
  have tree (t : State) : ((t.set (Pg.LFR p) LFR0.TREE r.tree).setDown p { t.down p with tree := some r.tree }).sync p =
      { t.sync p with alignment := { (t.sync p).alignment with tree := r.tree % 2 ^ 16 } } := by
    rw [sync_setDown, sync_set_tree]; rfl
  have mode (t : State) : (if t.gen1 p then t else
      (t.set (Pg.LFR p) LFR0.DS_STAT_H r.h).set (Pg.LFR p) LFR0.DS_STAT_P0_MODE r.p0).sync p = t.sync p := by
    split
    · rfl
    · rw [sync_set_lfr rfl, sync_set_lfr rfl]
  unfold State.showPreamble
  simp only
  rw [mode, sync_gaugeKeep, tree, sync_set_lfr rfl, sync_set_frameCount]

end Sys2Proof.Machine
end

section
/-!
PROOF. What alignment makes of a line frame boundary, with its sync symbol and without.
-/

namespace Sys2Proof.Machine

/-! ### The rules of the generation in use -/

theorem gen1_of_gen {s t : State} {p : Port} (h : (t.sync p).alignment.gen = (s.sync p).alignment.gen) :
    t.gen1 p = s.gen1 p := by
  have hg : t.get (Pg.LFR p) LFR0.DS_CTRL_GEN = s.get (Pg.LFR p) LFR0.DS_CTRL_GEN := h
  simp only [State.gen1, State.bit, hg]

theorem period_of_gen {s t : State} {p : Port} (h : (t.sync p).alignment.gen = (s.sync p).alignment.gen) :
    t.period p = s.period p := by simp only [State.period, gen1_of_gen h]

theorem spacingTol_of_gen {s t : State} {p : Port} (h : (t.sync p).alignment.gen = (s.sync p).alignment.gen) :
    t.spacingTol p = s.spacingTol p := by simp only [State.spacingTol, gen1_of_gen h]

theorem placeTol_of_gen {s t : State} {p : Port} (h : (t.sync p).alignment.gen = (s.sync p).alignment.gen) :
    t.placeTol p = s.placeTol p := by simp only [State.placeTol, gen1_of_gen h]

theorem readPreamble_of_gen {s t : State} {p : Port} (h : (t.sync p).alignment.gen = (s.sync p).alignment.gen)
    (bs : Option (List Byte)) : t.readPreamble p bs = s.readPreamble p bs := by
  simp only [State.readPreamble, gen1_of_gen h]

/-! ### A boundary missed (R115, R116) -/

/-- A line frame whose header is lost, in LOCKED. -/
def SyncAlign.headerMissed (a : SyncAlign) (place : Nat) : SyncAlign :=
  { a with
    miss := a.miss + 1, frames := wrapAdd64 a.frames 1, count := a.count + 1, boundary := place, lost := satAdd32 a.lost 1 }

/-- Where the boundary of a line frame with a lost header lies: at a sync symbol found there, or as predicted. -/
def State.missedPlace (s : State) (p : Port) (found : Option (Nat × Nat)) : Nat :=
  (found.map (·.1)).getD ((s.down p).boundary + s.period p)

/-- The line frame of a lost header begun, in LOCKED. -/
def State.missFrame (s : State) (p : Port) (found : Option (Nat × Nat)) : State :=
  let d := s.down p
  let s := s.setDown p { d with miss := d.miss + 1 }
  let s := s.frameStart p (d.count + 1) ((found.map (·.1)).getD (d.boundary + s.period p)) true
  (s.pushStamp p (d.count + 1) (found.map (·.2))).headerLost p

theorem sync_missFrame (s : State) (p : Port) (found : Option (Nat × Nat)) :
    (s.missFrame p found).sync p =
      { s.sync p with alignment := (s.sync p).alignment.headerMissed (s.missedPlace p found) } := by
  have missed : (s.setDown p { s.down p with miss := (s.down p).miss + 1 }).sync p =
      { s.sync p with alignment := { (s.sync p).alignment with miss := (s.sync p).alignment.miss + 1 } } := by
    rw [sync_setDown]; rfl
  have hp : (s.setDown p { s.down p with miss := (s.down p).miss + 1 }).period p = s.period p :=
    period_of_gen (congrArg (·.alignment.gen) missed)
  unfold State.missFrame
  simp only [sync_headerLost, sync_pushStamp, sync_frameStart, missed, hp]
  rfl

theorem alignMiss_seek {s : State} {p : Port} (hc : s.align p ≠ alConfirm) (hl : s.align p ≠ alLocked)
    (found : Option (Nat × Nat)) : s.alignMiss p found = s := by
  unfold State.alignMiss
  simp only [if_neg hc, if_neg hl]

theorem sync_alignMiss_confirm {s : State} {p : Port} (h : s.align p = alConfirm) (found : Option (Nat × Nat)) :
    (s.alignMiss p found).sync p = { s.sync p with alignment := { (s.sync p).alignment with align := alSeek } } := by
  unfold State.alignMiss
  simp only [if_pos h, sync_set_align]
  rfl

theorem alignMiss_locked {s : State} {p : Port} (h : s.align p = alLocked) (found : Option (Nat × Nat)) :
    s.alignMiss p found = if (s.down p).miss = 3 then (s.missFrame p found).alignLost p else s.missFrame p found := by
  have hc : s.align p ≠ alConfirm := by rw [h]; decide
  unfold State.alignMiss
  simp only [if_neg hc, if_pos h]
  rfl

theorem sync_alignMiss_stays {s : State} {p : Port} (h : s.align p = alLocked) (hm : (s.down p).miss ≠ 3)
    (found : Option (Nat × Nat)) : (s.alignMiss p found).sync p =
      { s.sync p with alignment := (s.sync p).alignment.headerMissed (s.missedPlace p found) } := by
  rw [alignMiss_locked h, if_neg hm, sync_missFrame]

/-- The fourth miss in a row: alignment leaves LOCKED, and LOF is raised. -/
theorem sync_alignMiss_leaves {s : State} {p : Port} (h : s.align p = alLocked) (hm : (s.down p).miss = 3)
    (found : Option (Nat × Nat)) : (s.alignMiss p found).sync p = { s.sync p with
      alignment := { (s.sync p).alignment.headerMissed (s.missedPlace p found) with align := alSeek, miss := 0 }
      raw := if s.lineOn p then maskRaw ((s.sync p).raw.set 2 true) else (s.sync p).raw } := by
  have hon : (s.missFrame p found).lineOn p = s.lineOn p :=
    lineOn_of_rest p (congrArg SyncView.rest (sync_missFrame s p found))
  rw [alignMiss_locked h, if_pos hm, sync_alignLost, hon]
  simp only [sync_missFrame]

/-- What alignment leaves of a port: its clock recovery. -/
def SyncView.keepsClock (v w : SyncView) : Prop := w.clock = v.clock ∧ w.rest = v.rest

theorem SyncView.keepsClock_refl (v : SyncView) : v.keepsClock v := ⟨rfl, rfl⟩

theorem keepsClock_alignMiss (s : State) (p : Port) (found : Option (Nat × Nat)) :
    (s.sync p).keepsClock ((s.alignMiss p found).sync p) := by
  by_cases hc : s.align p = alConfirm
  · rw [sync_alignMiss_confirm hc]; exact ⟨rfl, rfl⟩
  by_cases hl : s.align p = alLocked
  · by_cases hm : (s.down p).miss = 3
    · rw [sync_alignMiss_leaves hl hm]; exact ⟨rfl, rfl⟩
    · rw [sync_alignMiss_stays hl hm]; exact ⟨rfl, rfl⟩
  · rw [alignMiss_seek hc hl]; exact ⟨rfl, rfl⟩

/-! ### A sync symbol with a valid preamble (R93, R115, R125) -/

/-- A line frame with a valid preamble. -/
def SyncAlign.headerRead (a : SyncAlign) (r : Preamble) (place : Nat) : SyncAlign :=
  { a with
    frameCount := r.frame % 2 ^ 32, tree := r.tree % 2 ^ 16, frames := wrapAdd64 a.frames 1, miss := 0, count := r.frame,
    boundary := place }

/-- A frame count other than the next one, counted in LOCKED. -/
def SyncAlign.jumpSeen (a : SyncAlign) (frame : Nat) : SyncAlign :=
  { a with jumps := if a.align = alLocked ∧ frame ≠ a.count + 1 then satAdd32 a.jumps 1 else a.jumps }

theorem sync_alignGood (s : State) (p : Port) (r : Preamble) (place stamp : Nat) :
    (s.alignGood p r place stamp).sync p =
      { s.sync p with alignment := ((s.sync p).alignment.jumpSeen r.frame).headerRead r place } := by
  have quiet (t : State) (other : Bool) : (if other = true then (t.evt (Pg.LFR p) 20).regTreeChange p
      else t.regTry p).sync p = t.sync p := by
    split
    · rw [sync_regTreeChange, sync_evt_lfr]
    · exact sync_regTry t p
  have missed : (s.setDown p { s.down p with miss := 0 }).sync p =
      { s.sync p with alignment := { (s.sync p).alignment with miss := 0 } } := by
    rw [sync_setDown]; rfl
  have halign : (s.setDown p { s.down p with miss := 0 }).align p = s.align p := congrArg (·.alignment.align) missed
  have jumped : (if (decide ((s.setDown p { s.down p with miss := 0 }).align p = alLocked)
        && decide (r.frame ≠ (s.down p).count + 1)) = true then
      ((s.setDown p { s.down p with miss := 0 }).inc (Pg.LFR p) LFR1.COUNT_JUMP).evt (Pg.LFR p) 19
      else s.setDown p { s.down p with miss := 0 }).sync p =
      { s.sync p with alignment := { (s.sync p).alignment.jumpSeen r.frame with miss := 0 } } := by
    have hcond : ((s.sync p).alignment.align = alLocked ∧ r.frame ≠ (s.sync p).alignment.count + 1) ↔
        (decide (s.align p = alLocked) && decide (r.frame ≠ (s.down p).count + 1)) = true := by
      rw [Bool.and_eq_true, decide_eq_true_eq, decide_eq_true_eq]; rfl
    rw [halign, SyncAlign.jumpSeen]
    simp only [hcond]
    split
    · simp only [sync_evt_lfr, sync_inc_jumps, missed]
    · exact missed
  unfold State.alignGood
  simp only [quiet, sync_pushStamp, sync_frameStart, sync_showPreamble, jumped]
  rfl

/-- A sync symbol found in SEEK with a valid preamble: the line frame is the first one to confirm. -/
theorem sync_alignFound_seek {s : State} {p : Port} {o : SyncObs} {r : Preamble} (h : s.align p = alSeek)
    (hr : s.readPreamble p o.preamble = some r) : (s.alignFound p o).sync p = { s.sync p with
      alignment := { (s.sync p).alignment with
        align := alConfirm, frameCount := r.frame % 2 ^ 32, tree := r.tree % 2 ^ 16, miss := 0, count := r.frame,
        boundary := o.place } } := by
  have down (t : State) : (t.setDown p { t.down p with count := r.frame, boundary := o.place, miss := 0 }).sync p =
      { t.sync p with alignment := { (t.sync p).alignment with miss := 0, count := r.frame, boundary := o.place } } := by
    rw [sync_setDown]; rfl
  unfold State.alignFound
  simp only [if_pos h, hr, down, sync_set_align, sync_showPreamble]
  rfl

section
variable {s : State} {p : Port} {o : SyncObs} {r : Preamble}

/-- Whether a sync symbol lies where the next boundary was predicted. -/
def State.atBoundary (s : State) (p : Port) (o : SyncObs) : Bool :=
  near o.place ((s.down p).boundary + s.period p) (s.placeTol p)

/-- A sync symbol at the predicted boundary in LOCKED, with a valid preamble. -/
theorem sync_alignFound_locked (h : s.align p = alLocked) (hr : s.readPreamble p o.preamble = some r)
    (hh : s.atBoundary p o = true) : (s.alignFound p o).sync p =
      { s.sync p with alignment := ((s.sync p).alignment.jumpSeen r.frame).headerRead r o.place } := by
  have hs : s.align p ≠ alSeek := by rw [h]; decide
  unfold State.atBoundary at hh
  unfold State.alignFound
  simp only [if_neg hs, hr, hh, Bool.not_true, Bool.false_eq_true, if_false, if_pos h, sync_alignGood]

/-- The same before LOCKED, with the next frame count: alignment is LOCKED and LOF cleared. -/
theorem sync_alignFound_confirmed (hs : s.align p ≠ alSeek) (hl : s.align p ≠ alLocked)
    (hr : s.readPreamble p o.preamble = some r) (hh : s.atBoundary p o = true) (hf : r.frame = (s.down p).count + 1) :
    (s.alignFound p o).sync p = { s.sync p with
      alignment := { (s.sync p).alignment.headerRead r o.place with align := alLocked }
      raw := if s.lineOn p then maskRaw ((s.sync p).raw.set 2 false) else (s.sync p).raw } := by
  have good : ((s.alignGood p r o.place (s.stampRx o.phase)).set (Pg.LFR p) LFR0.DS_STAT_ALIGN alLocked).sync p =
      { s.sync p with alignment := { (s.sync p).alignment.headerRead r o.place with align := alLocked } } := by
    have hj : (s.sync p).alignment.jumpSeen r.frame = (s.sync p).alignment := by
      rw [SyncAlign.jumpSeen, if_neg (fun hc => hl hc.1)]
    simp only [sync_set_align, sync_alignGood, hj]
    rfl
  unfold State.atBoundary at hh
  unfold State.alignFound
  simp only [if_neg hs, hr, hh, Bool.not_true, Bool.false_eq_true, if_false, if_neg hl, if_pos hf, sync_setDefect,
    lineOn_of_rest p (congrArg SyncView.rest good), good]

/-- The same before LOCKED, with another frame count. -/
theorem sync_alignFound_mismatch (hs : s.align p ≠ alSeek) (hl : s.align p ≠ alLocked)
    (hr : s.readPreamble p o.preamble = some r) (hh : s.atBoundary p o = true) (hf : r.frame ≠ (s.down p).count + 1) :
    (s.alignFound p o).sync p = { s.sync p with
      alignment := { (s.sync p).alignment with
        align := alSeek, frameCount := r.frame % 2 ^ 32, tree := r.tree % 2 ^ 16 } } := by
  unfold State.atBoundary at hh
  unfold State.alignFound
  simp only [if_neg hs, hr, hh, Bool.not_true, Bool.false_eq_true, if_false, if_neg hl, if_neg hf, sync_set_align,
    sync_showPreamble]
  rfl

end

theorem keepsClock_alignFound (s : State) (p : Port) (o : SyncObs) :
    (s.sync p).keepsClock ((s.alignFound p o).sync p) := by
  cases hr : s.readPreamble p o.preamble with
  | none =>
    unfold State.alignFound
    simp only [hr]
    split
    · exact SyncView.keepsClock_refl _
    · exact keepsClock_alignMiss s p _
  | some r =>
    by_cases hs : s.align p = alSeek
    · rw [sync_alignFound_seek hs hr]; exact ⟨rfl, rfl⟩
    cases hh : s.atBoundary p o with
    | false =>
      unfold State.atBoundary at hh
      unfold State.alignFound
      simp only [if_neg hs, hr, hh, Bool.not_false, if_true]
      exact keepsClock_alignMiss s p none
    | true =>
      by_cases hl : s.align p = alLocked
      · rw [sync_alignFound_locked hl hr hh]; exact ⟨rfl, rfl⟩
      by_cases hf : r.frame = (s.down p).count + 1
      · rw [sync_alignFound_confirmed hs hl hr hh hf]; exact ⟨rfl, rfl⟩
      · rw [sync_alignFound_mismatch hs hl hr hh hf]; exact ⟨rfl, rfl⟩

end Sys2Proof.Machine
end

section
/-!
PROOF. SYNC_SYMBOL_FOUND and SYNC_SYMBOL_MISS: the next state of each, and what clock recovery makes of a sync symbol.
-/

namespace Sys2Proof.Machine

/-! ### What the gain and the equaliser make of a sync symbol (R126, R131) -/

theorem sync_agc (s : State) (p : Port) (power : Nat) : (s.agc p power).sync p = s.sync p := by
  unfold State.agc State.fixedGain
  simp only
  repeat' split
  all_goals simp (disch := decide) only [sync_set_line]

theorem sync_equalise (s : State) (p : Port) (o : SyncObs) : (s.equalise p o).sync p = s.sync p := by
  rw [State.equalise, sync_setModem]; rfl

/-- The state in which clock recovery takes a sync symbol. -/
def State.symbolTaken (s : State) (p : Port) (o : SyncObs) : State :=
  let s := s.agc p o.power
  if s.gen1 p then s else s.equalise p o

theorem sync_symbolTaken (s : State) (p : Port) (o : SyncObs) : (s.symbolTaken p o).sync p = s.sync p := by
  unfold State.symbolTaken
  simp only
  split
  · exact sync_agc s p _
  · rw [sync_equalise, sync_agc]

/-! ### A sync symbol placed, as clock recovery takes it (R128) -/

section
variable {s u : State} {p : Port} (o : SyncObs) (hu : u.sync p = s.sync p)
include hu

/-- RX_FREQ shows the frequency while clock recovery is not in FREE. -/
theorem sync_shown : (u.set (Pg.LINE p) LINE0.RX_FREQ (ofSigned 16 o.freq)).sync p = s.sync p :=
  (sync_showFreq u p _).trans hu

theorem cdr_of_sync : u.cdr p = s.cdr p := congrArg (·.clock.cdr) hu

/-- Whether a sync symbol lies one period after an earlier one. -/
theorem finds_any_shown :
    (u.modem p).finds.any (fun l => near o.place
      (l + (u.set (Pg.LINE p) LINE0.RX_FREQ (ofSigned 16 o.freq)).period p)
      ((u.set (Pg.LINE p) LINE0.RX_FREQ (ofSigned 16 o.freq)).spacingTol p)) =
    (s.modem p).finds.any (fun l => near o.place (l + s.period p) (s.spacingTol p)) := by
  have hgen := congrArg (·.alignment.gen) (sync_shown o hu)
  have hfinds : (u.modem p).finds = (s.modem p).finds := congrArg (·.clock.finds) hu
  rw [period_of_gen hgen, spacingTol_of_gen hgen, hfinds]

/-- ACQUIRE is left for TRACK when a sync symbol lies one period after an earlier one. -/
theorem sync_cdrFound_spaced (h : s.cdr p = cdrAcquire) {l : Nat} (hl : l ∈ (s.modem p).finds)
    (hn : near o.place (l + s.period p) (s.spacingTol p) = true) : (u.cdrFound p o).sync p = { s.sync p with
      clock := { (s.sync p).clock with
        cdr := cdrTrack, acquire := none, last := some o.place, finds := [], good := 0, missed := 0 } } := by
  have hc : u.cdr p = cdrAcquire := (cdr_of_sync hu).trans h
  have hf : u.cdr p ≠ cdrFree := by rw [hc]; decide
  have hany := (finds_any_shown o hu).trans (List.any_eq_true.mpr ⟨l, hl, hn⟩)
  unfold State.cdrFound
  simp only [if_neg hf, if_pos hc, hany, if_true, sync_setModem, sync_stopTimer_acquire, sync_set_cdr, sync_shown o hu]
  rfl

/-- One that does not is kept beside them. -/
theorem sync_cdrFound_unspaced (h : s.cdr p = cdrAcquire)
    (hn : ∀ l, l ∈ (s.modem p).finds → near o.place (l + s.period p) (s.spacingTol p) = false) :
    (u.cdrFound p o).sync p = { s.sync p with
      clock := { (s.sync p).clock with last := some o.place, finds := o.place :: (s.sync p).clock.finds } } := by
  have hc : u.cdr p = cdrAcquire := (cdr_of_sync hu).trans h
  have hf : u.cdr p ≠ cdrFree := by rw [hc]; decide
  have hany := (finds_any_shown o hu).trans (List.any_eq_false.mpr (fun l hl => Bool.not_eq_true _ ▸ hn l hl))
  unfold State.cdrFound
  simp only [if_neg hf, if_pos hc, hany, Bool.false_eq_true, if_false, sync_setModem, sync_shown o hu]
  rw [← hu]
  rfl

/-- TRACK is left for FREE when the frequency is out of range. -/
theorem sync_cdrFound_far (h : s.cdr p = cdrTrack) (hfreq : 10000 < o.freq.natAbs) :
    (u.cdrFound p o).sync p = { s.sync p with clock := (s.sync p).clock.freed true } := by
  have hc : u.cdr p = cdrTrack := (cdr_of_sync hu).trans h
  have hf : u.cdr p ≠ cdrFree := by rw [hc]; decide
  have ha : u.cdr p ≠ cdrAcquire := by rw [hc]; decide
  have hshown := (cdr_of_sync (sync_shown o hu)).trans h
  have free := sync_cdrToFree_unlocked (by rw [hshown]; decide) (by rw [hshown]; decide) true
  unfold State.cdrFound
  simp only [if_neg hf, if_neg ha, if_pos hc, if_pos hfreq, free, sync_shown o hu]

/-- The sixteenth good sync symbol in a row: TRACK is left for LOCKED. -/
theorem sync_cdrFound_locks (h : s.cdr p = cdrTrack) (hfreq : o.freq.natAbs ≤ 10000) (he : o.freqError.natAbs ≤ 50)
    (hg : (s.modem p).good = 15) : (u.cdrFound p o).sync p = { s.sync p with
      clock := { (s.sync p).clock with
        cdr := cdrLocked, source := 1, event := 1, lss := some ms, last := some o.place, good := 16, missed := 0 } } := by
  have hc : u.cdr p = cdrTrack := (cdr_of_sync hu).trans h
  have hf : u.cdr p ≠ cdrFree := by rw [hc]; decide
  have ha : u.cdr p ≠ cdrAcquire := by rw [hc]; decide
  have hgood : (u.modem p).good = 15 := (congrArg (·.clock.good) hu).trans hg
  unfold State.cdrFound
  simp only [if_neg hf, if_neg ha, if_pos hc, if_neg (Nat.not_lt.mpr hfreq), if_pos he, hgood, if_true, sync_cdrLock,
    sync_setModem, sync_shown o hu]
  rw [← hu]
  rfl

/-- LOCKED is left for FREE when a sync symbol lies elsewhere than predicted. -/
theorem clock_cdrFound_misplaced (h : s.cdr p = cdrLocked) {l : Nat} (hl : (s.modem p).last = some l)
    (hn : near o.place (l + s.period p) (s.placeTol p) = false) :
    ((u.cdrFound p o).sync p).clock = ((s.sync p).clock.freed true).switchedBack := by
  have hc : u.cdr p = cdrLocked := (cdr_of_sync hu).trans h
  have hf : u.cdr p ≠ cdrFree := by rw [hc]; decide
  have ha : u.cdr p ≠ cdrAcquire := by rw [hc]; decide
  have ht : u.cdr p ≠ cdrTrack := by rw [hc]; decide
  have hlast : (u.modem p).last = some l := (congrArg (·.clock.last) hu).trans hl
  have hgen := congrArg (·.alignment.gen) (sync_shown o hu)
  have free := sync_cdrToFree_locked ((cdr_of_sync (sync_shown o hu)).trans h) true
  unfold State.cdrFound
  simp only [if_neg hf, if_neg ha, if_neg ht, if_pos hc, hlast, period_of_gen hgen, placeTol_of_gen hgen, hn,
    Bool.false_eq_true, if_false, free, sync_shown o hu]

/-- A sync symbol where it was predicted, in LOCKED. -/
theorem sync_cdrFound_placed (h : s.cdr p = cdrLocked) {l : Nat} (hl : (s.modem p).last = some l)
    (hn : near o.place (l + s.period p) (s.placeTol p) = true) : (u.cdrFound p o).sync p =
      { s.sync p with clock := { (s.sync p).clock with last := some o.place, missed := 0 } } := by
  have hc : u.cdr p = cdrLocked := (cdr_of_sync hu).trans h
  have hf : u.cdr p ≠ cdrFree := by rw [hc]; decide
  have ha : u.cdr p ≠ cdrAcquire := by rw [hc]; decide
  have ht : u.cdr p ≠ cdrTrack := by rw [hc]; decide
  have hlast : (u.modem p).last = some l := (congrArg (·.clock.last) hu).trans hl
  have hgen := congrArg (·.alignment.gen) (sync_shown o hu)
  unfold State.cdrFound
  simp only [if_neg hf, if_neg ha, if_neg ht, if_pos hc, hlast, period_of_gen hgen, placeTol_of_gen hgen, hn, if_true,
    sync_setModem, sync_shown o hu]
  rw [← hu]
  rfl

end

/-! ### SYNC_SYMBOL_FOUND -/

/-- The state after a sync symbol that counts as found: clock recovery takes it, then alignment. -/
def State.symbolPlaced (s : State) (p : Port) (o : SyncObs) : State :=
  let u := (s.symbolTaken p o).cdrFound p o
  if u.cdr p = cdrLocked then u.alignFound p o else u.alignMiss p none

theorem exec_syncSymbolFound {s : State} {p : Port} {o : SyncObs} (hon : s.lineOn p = true) (hf : s.cdr p ≠ cdrFree)
    (hs : s.scan = false) (hw : s.gen1 p = true → syncWordErrors o.syncWord ≤ (if s.align p = alSeek then 0 else 3)) :
    exec (.syncSymbolFound p o) s = .next (s.symbolPlaced p o) := by
  have hword : (s.gen1 p && decide ((if s.align p = alSeek then 0 else 3) < syncWordErrors o.syncWord)) = false := by
    cases hg : s.gen1 p with
    | false => rfl
    | true => rw [Bool.true_and, decide_eq_false (Nat.not_lt.mpr (hw hg))]
  show execSyncSymbolFound p o s = _
  unfold execSyncSymbolFound
  simp only [hon, hs, hword, decide_eq_false hf, Bool.not_true, Bool.or_false, Bool.false_eq_true, if_false]
  rfl

theorem keepsClock_symbolPlaced (s : State) (p : Port) (o : SyncObs) :
    (((s.symbolTaken p o).cdrFound p o).sync p).keepsClock ((s.symbolPlaced p o).sync p) := by
  unfold State.symbolPlaced
  simp only
  split
  · exact keepsClock_alignFound _ p o
  · exact keepsClock_alignMiss _ p none

theorem beyondLines_symbolPlaced (s : State) (p : Port) (o : SyncObs) :
    (s.symbolPlaced p o).beyondLines = s.beyondLines := by
  have taken := congrArg SyncView.rest (sync_symbolTaken s p o)
  exact ((keepsClock_symbolPlaced s p o).2.trans (keepsAlignment_cdrFound _ p o).2.1).trans taken

/-- A sync symbol where it was predicted, in LOCKED: alignment takes it, in a state that shows nothing else new. -/
theorem symbolPlaced_locked {s : State} {p : Port} {o : SyncObs} {l : Nat} (h : s.cdr p = cdrLocked)
    (hl : (s.modem p).last = some l) (hn : near o.place (l + s.period p) (s.placeTol p) = true) :
    ∃ u : State, s.symbolPlaced p o = u.alignFound p o ∧ u.sync p =
      { s.sync p with clock := { (s.sync p).clock with last := some o.place, missed := 0 } } := by
  have hu := sync_cdrFound_placed o (sync_symbolTaken s p o) h hl hn
  have hc : ((s.symbolTaken p o).cdrFound p o).cdr p = cdrLocked := (congrArg (·.clock.cdr) hu).trans h
  exact ⟨_, if_pos hc, hu⟩

/-! ### SYNC_SYMBOL_MISS -/

theorem exec_syncSymbolMiss {s : State} {p : Port} (hon : s.lineOn p = true) :
    exec (.syncSymbolMiss p) s = .next ((s.cdrMissed p).alignMiss p none) := by
  show execSyncSymbolMiss p s = _
  unfold execSyncSymbolMiss State.syncMiss
  rw [if_pos hon]

theorem cdr_cdrToFree {s : State} {p : Port} (h : s.cdr p ≠ cdrFree) (count : Bool) :
    (s.cdrToFree p count).cdr p = cdrFree := by
  by_cases hl : s.cdr p = cdrLocked
  · exact congrArg (·.clock.cdr) (sync_cdrToFree_locked hl count)
  · exact congrArg (·.clock.cdr) (sync_cdrToFree_unlocked h hl count)

/-- The eighth sync symbol missed in a row: clock recovery goes back to FREE. -/
theorem cdr_cdrMissed_last {s : State} {p : Port} (h : s.cdr p = cdrTrack ∨ s.cdr p = cdrLocked)
    (hm : (s.modem p).missed = 7) : (s.cdrMissed p).cdr p = cdrFree := by
  have hf : s.cdr p ≠ cdrFree := by rcases h with h | h <;> rw [h] <;> decide
  unfold State.cdrMissed
  simp only [if_pos h, if_pos hm, cdr_cdrToFree hf]

theorem sync_cdrMissed_counted {s : State} {p : Port} (h : s.cdr p = cdrTrack ∨ s.cdr p = cdrLocked)
    (hm : (s.modem p).missed ≠ 7) : (s.cdrMissed p).sync p = { s.sync p with
      clock := { (s.sync p).clock with
        missed := (s.modem p).missed + 1, good := 0, last := (s.modem p).last.map (· + s.period p) } } := by
  unfold State.cdrMissed
  simp only [if_pos h, if_neg hm, sync_setModem]
  rfl

/-! ### Present defects (R117, R118) -/

/-- What masks a defect does not touch LOS, LSS and LOF. -/
theorem maskRaw_getD (raw : List Bool) {i : Nat} (h : i < 3) : (maskRaw raw).getD i false = raw.getD i false := by
  match i, h with
  | 0, _ | 1, _ | 2, _ => rfl

theorem maskRaw_raised {raw : List Bool} (hl : raw.length = 6) {i : Nat} (h : i < 3) :
    (maskRaw (raw.set i true)).getD i false = true := by
  rw [maskRaw_getD _ h, List.getD_eq_getElem?_getD, List.getElem?_set_self (by omega)]
  rfl

theorem maskRaw_cleared (raw : List Bool) {i : Nat} (h : i < 3) : (maskRaw (raw.set i false)).getD i false = false := by
  rw [maskRaw_getD _ h, List.getD_eq_getElem?_getD, List.getElem?_set_self']
  cases raw[i]? <;> rfl

end Sys2Proof.Machine
end

section
/-!
PROOF. Clock recovery and alignment: the obligation, command by command.
-/

namespace Sys2Proof.Machine

/-! ### The next states of the other commands (R117, R128) -/

theorem exec_cdrAcquireStart {s : State} {p : Port} (h : s.cdr p = cdrFree)
    (hon : (s.fnIs (.line p) .castingOn || s.fnIs (.line p) .running) = true) (hl : (s.down p).raw.getD 0 false = false) :
    exec (.cdrAcquireStart p) s =
      .next (((s.set (Pg.LINE p) LINE0.RX_STAT_CDR cdrAcquire).startTimer (Tm.acquire p) (20 * ms)).setModem p
        { s.modem p with last := none, finds := [], good := 0, missed := 0 }) := by
  show execCdrAcquireStart p s = _
  unfold execCdrAcquireStart
  simp only [decide_eq_true h, hon, hl, Bool.not_false, Bool.and_true, if_true]

theorem exec_cdrAcquireTimeout {s : State} {p : Port} (h : s.cdr p = cdrAcquire) (hr : s.running (Tm.acquire p) = true) :
    exec (.cdrAcquireTimeout p) s = .next (s.cdrReset p true) := by
  have hf : s.cdr p ≠ cdrFree := by rw [h]; decide
  have hl : s.cdr p ≠ cdrLocked := by rw [h]; decide
  show execCdrAcquireTimeout p s = _
  unfold execCdrAcquireTimeout State.cdrToFree
  simp only [decide_eq_true h, hr, Bool.and_true, if_true, if_neg hf, if_neg hl]
  rfl

theorem exec_cdrLoss {s : State} {p : Port} (h : s.cdr p = cdrLocked) :
    exec (.cdrLoss p) s = .next (s.cdrToFree p true) := congrArg Host.Outcome.next (if_pos h)

theorem exec_lssClear {s : State} {p : Port} (h : s.cdr p = cdrLocked) (hr : s.running (Tm.lss p) = true) :
    exec (.lssClear p) s = .next ((s.stopTimer (Tm.lss p)).setDefect p 1 false) := by
  show execLssClear p s = _
  unfold execLssClear
  rw [decide_eq_true h, hr, Bool.and_true, if_pos rfl]

theorem rd_setModem (s : State) (p : Port) (m : Modem) (a : Nat) : (s.setModem p m).rd a = s.rd a := by cases p <;> rfl

theorem cdrAcquireStart_frame (s : State) (p : Port) (v ns : Nat) (m : Modem) {t : State}
    (ht : t = ((s.set (Pg.LINE p) LINE0.RX_STAT_CDR v).startTimer (Tm.acquire p) ns).setModem p m) :
    t.line p.other = s.line p.other ∧
      t = { s with regs := t.regs, lineA := t.lineA, lineB := t.lineB, timers := t.timers } ∧
      OnlyRegs [Pg.LINE p + LINE0.RX_STAT_CDR.off] s t := by
  subst ht
  refine ⟨by cases p <;> rfl, by cases p <;> rfl, fun a ha => ?_⟩
  rw [rd_setModem]
  exact State.rd_set_ne s _ _ _ (fun e => ha (List.mem_singleton.mpr e))

theorem cdrReset_eq (s : State) (p : Port) : ∃ v m, s.cdrReset p true =
    (((s.set (Pg.LINE p) LINE0.RX_STAT_CDR cdrFree).stopTimer (Tm.acquire p)).set (Pg.LINE p) LINE3.CDR_LOSSES v).setModem
      p m := ⟨_, _, rfl⟩

theorem set_frame (s : State) (b : Nat) (F : Fld) (v : Nat) : ∃ x, s.set b F v = { s with regs := x } := ⟨_, rfl⟩

theorem cdrReset_frame (s : State) (p : Port) : s.cdrReset p true = { s with
    regs := (s.cdrReset p true).regs, lineA := (s.cdrReset p true).lineA, lineB := (s.cdrReset p true).lineB,
    timers := (s.cdrReset p true).timers } := by
  obtain ⟨v, m, h⟩ := cdrReset_eq s p
  obtain ⟨x, hx⟩ := set_frame s (Pg.LINE p) LINE0.RX_STAT_CDR cdrFree
  obtain ⟨y, hy⟩ := set_frame (({ s with regs := x } : State).stopTimer (Tm.acquire p)) (Pg.LINE p) LINE3.CDR_LOSSES v
  rw [h, hx, hy]
  cases p <;> rfl

theorem cdrReset_onlyRegs (s : State) (p : Port) :
    OnlyRegs [Pg.LINE p + LINE0.RX_STAT_CDR.off, Pg.LINE p + LINE3.CDR_LOSSES.off] s (s.cdrReset p true) := by
  obtain ⟨v, m, h⟩ := cdrReset_eq s p
  intro a ha
  rw [List.mem_cons, List.mem_singleton, not_or] at ha
  rw [h, rd_setModem, State.rd_set_ne _ _ _ _ ha.2, State.rd_stopTimer, State.rd_set_ne _ _ _ _ ha.1]

/-- A timer that the view shows as stopped does not run. -/
theorem running_of_none {s : State} {t : Nat} (h : SMap.get noTimer s.timers t = none) : s.running t = false := by
  rw [State.running, h]; rfl

/-! ### What alignment answers -/

section
variable {s u : State} {p : Port}

/-- Of a sync symbol with a valid preamble, found in LOCKED of clock recovery. -/
theorem alignFound_answers {o : SyncObs} {c : SyncClock} {r : Preamble} (hon : s.lineOn p = true)
    (hu : u.sync p = { s.sync p with clock := c }) (hr : s.readPreamble p o.preamble = some r) :
    (s.align p = alSeek → (u.alignFound p o).align p = alConfirm ∧ ((u.alignFound p o).down p).count = r.frame ∧
      ((u.alignFound p o).down p).boundary = o.place ∧
      (u.alignFound p o).get (Pg.LFR p) LFR0.FRAME_COUNT_LO = r.frame % 2 ^ 32 ∧
      (u.alignFound p o).get (Pg.LFR p) LFR0.TREE = r.tree % 2 ^ 16) ∧
    (near o.place ((s.down p).boundary + s.period p) (s.placeTol p) = true →
      (s.align p = alConfirm → r.frame = (s.down p).count + 1 → (u.alignFound p o).align p = alLocked ∧
        ((u.alignFound p o).down p).raw.getD 2 false = false ∧ ((u.alignFound p o).down p).count = r.frame) ∧
      (s.align p = alConfirm → r.frame ≠ (s.down p).count + 1 → (u.alignFound p o).align p = alSeek) ∧
      (s.align p = alLocked → (u.alignFound p o).align p = alLocked ∧ ((u.alignFound p o).down p).miss = 0 ∧
        ((u.alignFound p o).down p).count = r.frame ∧
        (u.alignFound p o).get64 (Pg.LFR p) LFR1.LINE_FRAMES_LO =
          wrapAdd64 (s.get64 (Pg.LFR p) LFR1.LINE_FRAMES_LO) 1 ∧
        (u.alignFound p o).get (Pg.LFR p) LFR1.COUNT_JUMP =
          (if r.frame = (s.down p).count + 1 then s.get (Pg.LFR p) LFR1.COUNT_JUMP
            else satAdd32 (s.get (Pg.LFR p) LFR1.COUNT_JUMP) 1))) := by
  have halign : u.align p = s.align p := congrArg (·.alignment.align) hu
  have hcount : (u.down p).count = (s.down p).count := congrArg (·.alignment.count) hu
  have hgen := congrArg (·.alignment.gen) hu
  have hread := (readPreamble_of_gen hgen o.preamble).trans hr
  refine ⟨fun ha => ?_, fun hn => ?_⟩
  · have ht := sync_alignFound_seek (halign.trans ha) hread
    exact ⟨congrArg (·.alignment.align) ht, congrArg (·.alignment.count) ht, congrArg (·.alignment.boundary) ht,
      congrArg (·.alignment.frameCount) ht, congrArg (·.alignment.tree) ht⟩
  have hat : u.atBoundary p o = true := by
    have hb : (u.down p).boundary = (s.down p).boundary := congrArg (·.alignment.boundary) hu
    rw [State.atBoundary, hb, period_of_gen hgen, placeTol_of_gen hgen, hn]
  refine ⟨fun ha hf => ?_, fun ha hf => ?_, fun ha => ?_⟩
  · have ht := sync_alignFound_confirmed (by rw [halign, ha]; decide) (by rw [halign, ha]; decide) hread hat
      (hf.trans (congrArg (· + 1) hcount.symm))
    have honu : u.lineOn p = true := (lineOn_of_rest p (congrArg SyncView.rest hu)).trans hon
    rw [honu, if_pos rfl] at ht
    refine ⟨congrArg (·.alignment.align) ht, ?_, congrArg (·.alignment.count) ht⟩
    have hraw : ((u.alignFound p o).down p).raw = _ := congrArg (·.raw) ht
    rw [hraw]
    exact maskRaw_cleared _ (by decide)
  · exact congrArg (·.alignment.align) (sync_alignFound_mismatch (by rw [halign, ha]; decide) (by rw [halign, ha]; decide)
      hread hat (by rw [hcount]; exact hf))
  · have ht := sync_alignFound_locked (halign.trans ha) hread hat
    rw [hu] at ht
    have hframes := congrArg (·.alignment.frames) ht
    have hjumps := congrArg (·.alignment.jumps) ht
    have hlocked : (s.sync p).alignment.align = alLocked := ha
    simp only [SyncAlign.headerRead, SyncAlign.jumpSeen, hlocked, true_and, ne_eq, ite_not] at hjumps
    refine ⟨(congrArg (·.alignment.align) ht).trans ha, congrArg (·.alignment.miss) ht, congrArg (·.alignment.count) ht,
      ?_, hjumps⟩
    rw [← frames_syncAlign, ← frames_syncAlign]
    exact hframes

/-- Of a boundary without its sync symbol, in LOCKED. -/
theorem alignMiss_answers (hon : s.lineOn p = true) (hu : (s.sync p).keepsAlignment (u.sync p))
    (ha : u.align p = alLocked) :
    ((u.alignMiss p none).down p).count = (s.down p).count + 1 ∧
    ((u.alignMiss p none).down p).boundary = (s.down p).boundary + s.period p ∧
    (u.alignMiss p none).get64 (Pg.LFR p) LFR1.LINE_FRAMES_LO = wrapAdd64 (s.get64 (Pg.LFR p) LFR1.LINE_FRAMES_LO) 1 ∧
    (u.alignMiss p none).get (Pg.LFR p) LFR1.HDR_LOST = satAdd32 (s.get (Pg.LFR p) LFR1.HDR_LOST) 1 ∧
    (if (s.down p).miss = 3 then (u.alignMiss p none).align p = alSeek ∧
        ((s.down p).raw.length = 6 → ((u.alignMiss p none).down p).raw.getD 2 false = true)
      else (u.alignMiss p none).align p = alLocked ∧ ((u.alignMiss p none).down p).miss = (s.down p).miss + 1) := by
  obtain ⟨halign, hrest, hlen⟩ := hu
  have hmiss : (u.down p).miss = (s.down p).miss := congrArg (·.miss) halign
  have hplace : u.missedPlace p none = (s.down p).boundary + s.period p := by
    have hb : (u.down p).boundary = (s.down p).boundary := congrArg (·.boundary) halign
    rw [State.missedPlace, period_of_gen (congrArg (·.gen) halign), hb]
    rfl
  rw [← frames_syncAlign, ← frames_syncAlign]
  by_cases hm : (s.down p).miss = 3
  · have ht := sync_alignMiss_leaves ha (hmiss.trans hm) none
    have honu : u.lineOn p = true := (lineOn_of_rest p hrest).trans hon
    rw [halign, hplace, honu, if_pos rfl] at ht
    refine ⟨congrArg (·.alignment.count) ht, congrArg (·.alignment.boundary) ht, congrArg (·.alignment.frames) ht,
      congrArg (·.alignment.lost) ht, ?_⟩
    rw [if_pos hm]
    refine ⟨congrArg (·.alignment.align) ht, fun hl => ?_⟩
    have hraw : ((u.alignMiss p none).down p).raw = _ := congrArg (·.raw) ht
    rw [hraw]
    exact maskRaw_raised (hlen hl) (by decide)
  · have ht := sync_alignMiss_stays ha (fun h => hm (hmiss.symm.trans h)) none
    rw [halign, hplace] at ht
    refine ⟨congrArg (·.alignment.count) ht, congrArg (·.alignment.boundary) ht, congrArg (·.alignment.frames) ht,
      congrArg (·.alignment.lost) ht, ?_⟩
    rw [if_neg hm]
    exact ⟨(congrArg (·.alignment.align) ht).trans ((congrArg (·.align) halign).symm.trans ha),
      congrArg (·.alignment.miss) ht⟩

end

end Sys2Proof.Machine

open Sys2Proof Sys2Proof.Machine

/-- Settles O19, through the view of a port that its commands read and write. -/
theorem clockRecoveryAndAlignment : Obligations.ClockRecoveryAndAlignment := by
  unfold Obligations.ClockRecoveryAndAlignment
  refine ⟨fun p s hc hon hl => ⟨_, exec_cdrAcquireStart hc hon hl, ?_⟩,
    fun p s hc hr => ⟨_, exec_cdrAcquireTimeout hc hr, ?_⟩, fun p s hc => ⟨_, exec_cdrLoss hc, ?_⟩,
    fun p s hc hr hon => ⟨_, exec_lssClear hc hr, ?_⟩,
    fun p o s hon hf hs hw => ⟨_, exec_syncSymbolFound hon hf hs hw, ?_⟩,
    fun p s hon => ⟨_, exec_syncSymbolMiss hon, ?_⟩⟩
  · -- CDR_ACQUIRE_START
    have ht := sync_setModem ((s.set (Pg.LINE p) LINE0.RX_STAT_CDR cdrAcquire).startTimer (Tm.acquire p) (20 * ms)) p
      { s.modem p with last := none, finds := [], good := 0, missed := 0 }
    rw [sync_startTimer_acquire, sync_set_cdr] at ht
    exact ⟨congrArg (·.clock.cdr) ht, congrArg (·.clock.acquire) ht, congrArg (·.clock.last) ht,
      cdrAcquireStart_frame s p _ _ _ rfl⟩
  · -- CDR_ACQUIRE_TIMEOUT
    have ht := sync_cdrReset s p true
    exact ⟨congrArg (·.clock.cdr) ht, running_of_none (congrArg (·.clock.acquire) ht), congrArg (·.clock.losses) ht,
      cdrReset_frame s p, cdrReset_onlyRegs s p⟩
  · -- CDR_LOSS
    have ht := sync_cdrToFree_locked hc true
    refine ⟨congrArg (·.clock.cdr) ht, ?_, running_of_none (congrArg (·.clock.lss) ht),
      congrArg (·.clock.losses) ht, ?_, fun hon hl => ?_, eq_of_beyondLines (congrArg SyncView.rest ht)⟩
    · have hsource : (s.cdrToFree p true).get (Pg.LINE p) LINE0.RX_STAT_CLK_SRC = 0 := congrArg (·.clock.source) ht
      rw [State.bit, hsource]; rfl
    · have hevent : (s.cdrToFree p true).get (Pg.LINE p) ⟨HDR.PAGE_EVENT.off, 8, 1⟩ = 1 := congrArg (·.clock.event) ht
      rw [State.bit, hevent]; rfl
    · have hraw : ((s.cdrToFree p true).down p).raw = _ := congrArg (·.raw) ht
      rw [hraw, hon, if_pos rfl]
      exact maskRaw_raised hl (by decide)
  · -- LSS_CLEAR
    have ht := sync_setDefect (s.stopTimer (Tm.lss p)) p 1 false
    have hon' : (s.stopTimer (Tm.lss p)).lineOn p = true := hon
    rw [hon', if_pos rfl, sync_stopTimer_lss] at ht
    refine ⟨?_, running_of_none (congrArg (·.clock.lss) ht), (congrArg (·.clock.cdr) ht).trans hc,
      eq_of_beyondLines (congrArg SyncView.rest ht)⟩
    have hraw : (((s.stopTimer (Tm.lss p)).setDefect p 1 false).down p).raw = _ := congrArg (·.raw) ht
    rw [hraw]
    exact maskRaw_cleared _ (by decide)
  · -- SYNC_SYMBOL_FOUND
    have hk := (keepsClock_symbolPlaced s p o).1
    have hu := sync_symbolTaken s p o
    refine ⟨fun hc => ⟨fun l hl hn => ?_, fun hn => ?_⟩, fun hc hfreq => ?_, fun hc hfreq he hg => ?_,
      fun l hc hl hn => ?_, fun l r hc hl hn hr => ?_, eq_of_beyondLines (beyondLines_symbolPlaced s p o)⟩
    · have ht := hk.trans (congrArg (·.clock) (sync_cdrFound_spaced o hu hc hl hn))
      exact ⟨congrArg (·.cdr) ht, running_of_none (congrArg (·.acquire) ht), congrArg (·.last) ht,
        congrArg (·.good) ht, congrArg (·.finds) ht⟩
    · have ht := hk.trans (congrArg (·.clock) (sync_cdrFound_unspaced o hu hc hn))
      exact ⟨(congrArg (·.cdr) ht).trans hc, congrArg (·.finds) ht⟩
    · exact congrArg (·.cdr) (hk.trans (congrArg (·.clock) (sync_cdrFound_far o hu hc hfreq)))
    · have ht := hk.trans (congrArg (·.clock) (sync_cdrFound_locks o hu hc hfreq he hg))
      refine ⟨congrArg (·.cdr) ht, ?_, congrArg (·.lss) ht⟩
      have hsource : (s.symbolPlaced p o).get (Pg.LINE p) LINE0.RX_STAT_CLK_SRC = 1 := congrArg (·.source) ht
      rw [State.bit, hsource]; rfl
    · have ht := hk.trans (clock_cdrFound_misplaced o hu hc hl hn)
      exact ⟨congrArg (·.cdr) ht, congrArg (·.losses) ht⟩
    · obtain ⟨u, hplaced, hsync⟩ := symbolPlaced_locked hc hl hn
      rw [hplaced]
      exact ⟨(congrArg (·.cdr) (keepsClock_alignFound u p o).1).trans ((congrArg (·.clock.cdr) hsync).trans hc),
        alignFound_answers hon hsync hr⟩
  · -- SYNC_SYMBOL_MISS
    have hk := (keepsClock_alignMiss (s.cdrMissed p) p none).1
    have hm := keepsAlignment_cdrMissed s p
    have halign : (s.cdrMissed p).align p = s.align p := congrArg (·.align) hm.1
    refine ⟨fun hc h7 => (congrArg (·.cdr) hk).trans (cdr_cdrMissed_last hc h7), fun hc h7 => ?_,
      fun ha => congrArg (·.alignment.align) (sync_alignMiss_confirm (halign.trans ha) none),
      fun ha => alignMiss_answers hon hm (halign.trans ha),
      eq_of_beyondLines ((keepsClock_alignMiss (s.cdrMissed p) p none).2.trans hm.2.1)⟩
    have ht := hk.trans (congrArg (·.clock) (sync_cdrMissed_counted hc h7))
    exact ⟨congrArg (·.cdr) ht, congrArg (·.missed) ht, congrArg (·.last) ht⟩
end
